-- ==== Sys2Proof/Word.lean ====
section
/-!
DEFINITION. The machine's word types (spec 00 R2, R5, R6; 02 R26, R52), and the shape of a sparse
table: a list of key and value pairs. The operations over sparse tables are in Machine/Sparse.lean.
-/

namespace Sys2Proof

/-- One byte. -/
abbrev Byte := BitVec 8
/-- The contents of a g register and of most control registers (R73, R306). -/
abbrev Word := BitVec 64
/-- An instruction word (R53) and a binary32 code. -/
abbrev W32 := BitVec 32
/-- The contents of an s register, a statistic record (R47). -/
abbrev S128 := BitVec 128
/-- The contents of a v register (R115). -/
abbrev V256 := BitVec 256

/-- A table from keys to values that holds only the keys whose value is not the table's default,
keys strictly rising. -/
abbrev Sparse (α : Type) := List (Nat × α)

end Sys2Proof
end

