-- ==== Sys2Proof/Syntax.lean ====
section
/-!
DEFINITION. The steps of the machine as abstract syntax: one constructor for each row of
spec/opcode_table.json. The rows with an encoding are instruction words (03 R55, R69); their operands
are the word's fields, under the table's names (`t` and `u` are per-source bits, R60). The rows without
an encoding are steps that no instruction word names (95); their operands say which waiting thing of the
state the step acts on: a plot (PLOTID[19:0]), a context number, an index into a list of the state.
-/

namespace Sys2Proof

/-- A step of the machine (spec/opcode_table.json). -/
inductive Instr where
  /-- R76. Sets G[d] to a + b modulo 2^64, or to the clamped sum under a kind-01 saturate modifier. -/
  | add (d : BitVec 6) (a : BitVec 6) (b : BitVec 6) (t : Bool) (u : Bool)
  /-- R76. Sets G[d] to a − b modulo 2^64, or to the clamped difference under saturation. -/
  | sub (d : BitVec 6) (a : BitVec 6) (b : BitVec 6) (t : Bool) (u : Bool)
  /-- R76. Sets G[d] to a AND b. -/
  | and (d : BitVec 6) (a : BitVec 6) (b : BitVec 6) (t : Bool) (u : Bool)
  /-- R76. Sets G[d] to a OR b. -/
  | or (d : BitVec 6) (a : BitVec 6) (b : BitVec 6) (t : Bool) (u : Bool)
  /-- R76. Sets G[d] to a XOR b. -/
  | xor (d : BitVec 6) (a : BitVec 6) (b : BitVec 6) (t : Bool) (u : Bool)
  /-- R76. Sets G[d] to a AND NOT b. -/
  | andn (d : BitVec 6) (a : BitVec 6) (b : BitVec 6) (t : Bool) (u : Bool)
  /-- R76. Sets G[d] to a OR NOT b. -/
  | orn (d : BitVec 6) (a : BitVec 6) (b : BitVec 6) (t : Bool) (u : Bool)
  /-- R76. Sets G[d] to NOT (a XOR b). -/
  | xnor (d : BitVec 6) (a : BitVec 6) (b : BitVec 6) (t : Bool) (u : Bool)
  /-- R76. Shifts a left by b[5:0]. -/
  | sll (d : BitVec 6) (a : BitVec 6) (b : BitVec 6) (t : Bool) (u : Bool)
  /-- R76. Shifts a right logically by b[5:0]. -/
  | srl (d : BitVec 6) (a : BitVec 6) (b : BitVec 6) (t : Bool) (u : Bool)
  /-- R76. Shifts a right arithmetically by b[5:0]. -/
  | sra (d : BitVec 6) (a : BitVec 6) (b : BitVec 6) (t : Bool) (u : Bool)
  /-- R76. Rotates a left by b[5:0]. -/
  | rol (d : BitVec 6) (a : BitVec 6) (b : BitVec 6) (t : Bool) (u : Bool)
  /-- R76. Rotates a right by b[5:0]. -/
  | ror (d : BitVec 6) (a : BitVec 6) (b : BitVec 6) (t : Bool) (u : Bool)
  /-- R76. Sets G[d] to 1 if a < b as i64, else 0. -/
  | slt (d : BitVec 6) (a : BitVec 6) (b : BitVec 6) (t : Bool) (u : Bool)
  /-- R76. Sets G[d] to 1 if a < b as n64, else 0. -/
  | sltn (d : BitVec 6) (a : BitVec 6) (b : BitVec 6) (t : Bool) (u : Bool)
  /-- R76. Sets G[d] to 1 if a = b, else 0. -/
  | seq (d : BitVec 6) (a : BitVec 6) (b : BitVec 6) (t : Bool) (u : Bool)
  /-- R76. Sets G[d] to 1 if a ≠ b, else 0. -/
  | sne (d : BitVec 6) (a : BitVec 6) (b : BitVec 6) (t : Bool) (u : Bool)
  /-- R76. Sets G[d] to the smaller of a and b as i64. -/
  | min (d : BitVec 6) (a : BitVec 6) (b : BitVec 6) (t : Bool) (u : Bool)
  /-- R76. Sets G[d] to the larger of a and b as i64. -/
  | max (d : BitVec 6) (a : BitVec 6) (b : BitVec 6) (t : Bool) (u : Bool)
  /-- R76. Sets G[d] to the smaller of a and b as n64. -/
  | minn (d : BitVec 6) (a : BitVec 6) (b : BitVec 6) (t : Bool) (u : Bool)
  /-- R76. Sets G[d] to the larger of a and b as n64. -/
  | maxn (d : BitVec 6) (a : BitVec 6) (b : BitVec 6) (t : Bool) (u : Bool)
  /-- R79. Starts a multiply on the multiplier giving the low 64 bits of a × b. -/
  | mul (d : BitVec 6) (a : BitVec 6) (b : BitVec 6) (t : Bool) (u : Bool)
  /-- R79. Starts a multiply giving the high 64 bits of the signed product. -/
  | mulh (d : BitVec 6) (a : BitVec 6) (b : BitVec 6) (t : Bool) (u : Bool)
  /-- R79. Starts a multiply giving the high 64 bits of the unsigned product. -/
  | mulhn (d : BitVec 6) (a : BitVec 6) (b : BitVec 6) (t : Bool) (u : Bool)
  /-- R79. Starts a multiply giving the high 64 bits of signed a times unsigned b. -/
  | mulhsn (d : BitVec 6) (a : BitVec 6) (b : BitVec 6) (t : Bool) (u : Bool)
  /-- R79. Starts a signed division on the divider with the results of R28. -/
  | div (d : BitVec 6) (a : BitVec 6) (b : BitVec 6) (t : Bool) (u : Bool)
  /-- R79. Starts an unsigned division on the divider. -/
  | divn (d : BitVec 6) (a : BitVec 6) (b : BitVec 6) (t : Bool) (u : Bool)
  /-- R79. Starts a signed remainder on the divider. -/
  | rem (d : BitVec 6) (a : BitVec 6) (b : BitVec 6) (t : Bool) (u : Bool)
  /-- R79. Starts an unsigned remainder on the divider. -/
  | remn (d : BitVec 6) (a : BitVec 6) (b : BitVec 6) (t : Bool) (u : Bool)
  /-- R77. Counts leading zeros per element of width w. -/
  | clz (d : BitVec 6) (a : BitVec 6) (t : Bool) (w : BitVec 2)
  /-- R77. Counts trailing zeros per element of width w. -/
  | ctz (d : BitVec 6) (a : BitVec 6) (t : Bool) (w : BitVec 2)
  /-- R77. Finds the first set bit per element of width w. -/
  | ffs (d : BitVec 6) (a : BitVec 6) (t : Bool) (w : BitVec 2)
  /-- R77. Counts set bits per element of width w. -/
  | popc (d : BitVec 6) (a : BitVec 6) (t : Bool) (w : BitVec 2)
  /-- R77. Writes a if the old G[d] is non-zero, else b. -/
  | csel (d : BitVec 6) (a : BitVec 6) (b : BitVec 6) (t : Bool) (u : Bool)
  /-- R76. Reverses the bit order of a. -/
  | brev (d : BitVec 6) (a : BitVec 6) (t : Bool)
  /-- R76. Reverses the byte order of a. -/
  | bswap (d : BitVec 6) (a : BitVec 6) (t : Bool)
  /-- R77. Adds packed elements of width w, optionally saturating. -/
  | padd (d : BitVec 6) (a : BitVec 6) (b : BitVec 6) (t : Bool) (u : Bool) (w : BitVec 2)
  /-- R77. Subtracts packed elements of width w, optionally saturating. -/
  | psub (d : BitVec 6) (a : BitVec 6) (b : BitVec 6) (t : Bool) (u : Bool) (w : BitVec 2)
  /-- R80. Sets G[d] to a + Imm(). -/
  | addi (d : BitVec 6) (a : BitVec 6) (t : Bool) (i : BitVec 13)
  /-- R80. Sets G[d] to a AND Imm(). -/
  | andi (d : BitVec 6) (a : BitVec 6) (t : Bool) (i : BitVec 13)
  /-- R80. Sets G[d] to a OR Imm(). -/
  | ori (d : BitVec 6) (a : BitVec 6) (t : Bool) (i : BitVec 13)
  /-- R80. Sets G[d] to a XOR Imm(). -/
  | xori (d : BitVec 6) (a : BitVec 6) (t : Bool) (i : BitVec 13)
  /-- R81. Sets G[d] to 1 if a < the signed imm12 as i64. -/
  | slti (d : BitVec 6) (a : BitVec 6) (t : Bool) (i : BitVec 12)
  /-- R81. Sets G[d] to 1 if a < the sign-extended imm12 as n64. -/
  | sltni (d : BitVec 6) (a : BitVec 6) (t : Bool) (i : BitVec 12)
  /-- R82. Shifts a left by sh. -/
  | slli (d : BitVec 6) (a : BitVec 6) (t : Bool) (s : BitVec 6)
  /-- R82. Shifts a right logically by sh. -/
  | srli (d : BitVec 6) (a : BitVec 6) (t : Bool) (s : BitVec 6)
  /-- R82. Shifts a right arithmetically by sh. -/
  | srai (d : BitVec 6) (a : BitVec 6) (t : Bool) (s : BitVec 6)
  /-- R82. Rotates a right by sh. -/
  | rori (d : BitVec 6) (a : BitVec 6) (t : Bool) (s : BitVec 6)
  /-- R83. Extracts a zero-extended bit field of a. -/
  | exti (d : BitVec 6) (a : BitVec 6) (t : Bool) (p : BitVec 6) (l : BitVec 6)
  /-- R83. Inserts the low bits of a into a field of G[d]. -/
  | insi (d : BitVec 6) (a : BitVec 6) (t : Bool) (p : BitVec 6) (l : BitVec 6)
  /-- R85. Sets G[d] to a + b × 2^fn without touching memory. -/
  | lea (d : BitVec 6) (a : BitVec 6) (b : BitVec 6) (t : Bool) (u : Bool) (s : BitVec 3)
  /-- R85. Forms the BADDR of an A-buffer byte on a plot. -/
  | leaA (d : BitVec 6) (a : BitVec 6) (b : BitVec 6) (t : Bool) (u : Bool)
  /-- R85. Forms the BADDR of a W-buffer byte on a plot. -/
  | leaW (d : BitVec 6) (a : BitVec 6) (b : BitVec 6) (t : Bool) (u : Bool)
  /-- R85. Forms the BADDR of a C-buffer byte on a plot. -/
  | leaC (d : BitVec 6) (a : BitVec 6) (b : BitVec 6) (t : Bool) (u : Bool)
  /-- R86. Branches when a = b. -/
  | beq (a : BitVec 6) (b : BitVec 6) (t : Bool) (u : Bool) (i : BitVec 12)
  /-- R86. Branches when a ≠ b. -/
  | bne (a : BitVec 6) (b : BitVec 6) (t : Bool) (u : Bool) (i : BitVec 12)
  /-- R86. Branches when a < b as i64. -/
  | blt (a : BitVec 6) (b : BitVec 6) (t : Bool) (u : Bool) (i : BitVec 12)
  /-- R86. Branches when a ≥ b as i64. -/
  | bge (a : BitVec 6) (b : BitVec 6) (t : Bool) (u : Bool) (i : BitVec 12)
  /-- R86. Branches when a < b as n64. -/
  | bltn (a : BitVec 6) (b : BitVec 6) (t : Bool) (u : Bool) (i : BitVec 12)
  /-- R86. Branches when a ≥ b as n64. -/
  | bgen (a : BitVec 6) (b : BitVec 6) (t : Bool) (u : Bool) (i : BitVec 12)
  /-- R87. Writes the return address to G[link] and jumps PC-relative. -/
  | jal (l : BitVec 6) (i : BitVec 20)
  /-- R87. Jumps to a + imm13 and writes the return address to G[d]. -/
  | jalr (d : BitVec 6) (a : BitVec 6) (t : Bool) (i : BitVec 13)
  /-- R197. Makes the context a follower of a leading context in its row. -/
  | follow (a : BitVec 6) (t : Bool)
  /-- R196. Makes the context its plot's leading context. -/
  | lead
  /-- R199. Dissolves the leader's furrow so followers resume their own fetch. -/
  | split
  /-- R191. Ends the task and resolves an unsettled promise with 0. -/
  | tend
  /-- R192. Places the context last in its priority's cyclic order and ends a floor-tick quantum. -/
  | yield
  /-- R193. Blocks the context for G[a] cycles. -/
  | sleep (a : BitVec 6) (t : Bool)
  /-- R193. Blocks the context until CYCLE ≥ G[a]. -/
  | sleepuntil (a : BitVec 6) (t : Bool)
  /-- R194. Sets G[d] to the handle of the task's own promise. -/
  | tself (d : BitVec 6)
  /-- R194. Sets G[d] to the context's furrow state word. -/
  | tselfF (d : BitVec 6)
  /-- R195. Sets BLK of a channel on a plot. -/
  | chblk (a : BitVec 6) (b : BitVec 6) (t : Bool) (u : Bool)
  /-- R195. Clears BLK of a channel on a plot. -/
  | chunb (a : BitVec 6) (b : BitVec 6) (t : Bool) (u : Bool)
  /-- R100. Loads a scalar from the plot's own A, W or C buffer. -/
  | ldl (d : BitVec 6) (b : BitVec 6) (t : Bool) (x : BitVec 2) (w : BitVec 3) (o : BitVec 8)
  /-- R100. Stores a scalar into the plot's own A or W buffer without touching FE. -/
  | stl (s : BitVec 6) (b : BitVec 6) (t : Bool) (x : BitVec 2) (w : BitVec 3) (o : BitVec 8)
  /-- R105. Issues a translated global load as a long-latency producer. -/
  | ldg (d : BitVec 6) (b : BitVec 6) (t : Bool) (w : BitVec 3) (o : BitVec 8)
  /-- R105. Issues a translated, capability-checked posted global store. -/
  | stg (s : BitVec 6) (b : BitVec 6) (t : Bool) (w : BitVec 3) (o : BitVec 8)
  /-- R107. Loads from another plot's buffer through its remote port, holding the context. -/
  | ldx (d : BitVec 6) (a : BitVec 6) (b : BitVec 6) (t : Bool) (u : Bool) (w : BitVec 3)
  /-- R107. Stores into another plot's buffer through its remote port, holding the context. -/
  | stx (s : BitVec 6) (a : BitVec 6) (b : BitVec 6) (t : Bool) (u : Bool) (w : BitVec 2)
  /-- R102. Loads a word once it is full, waiting while it is empty. -/
  | ldsync (d : BitVec 6) (b : BitVec 6) (t : Bool) (x : BitVec 2) (o : BitVec 8)
  /-- R102. Loads a full word and empties it in one step. -/
  | ldfe (d : BitVec 6) (b : BitVec 6) (t : Bool) (x : BitVec 2) (o : BitVec 8)
  /-- R102. Stores a word and sets it full. -/
  | stfull (s : BitVec 6) (b : BitVec 6) (t : Bool) (x : BitVec 2) (o : BitVec 8)
  /-- R102. Sets a word or sector empty, keeping its contents. -/
  | clrfe (b : BitVec 6) (t : Bool) (x : BitVec 2) (o : BitVec 8)
  /-- R249. Atomically adds b to memory and returns the old value. -/
  | amoAdd (d : BitVec 6) (a : BitVec 6) (b : BitVec 6) (t : Bool) (u : Bool) (o : BitVec 2)
  /-- R249. Atomically swaps memory with b. -/
  | amoSwap (d : BitVec 6) (a : BitVec 6) (b : BitVec 6) (t : Bool) (u : Bool) (o : BitVec 2)
  /-- R249. Atomically compares and swaps using the pair G[b], G[b+1]. -/
  | amoCas (d : BitVec 6) (a : BitVec 6) (b : BitVec 6) (t : Bool) (u : Bool) (o : BitVec 2)
  /-- R249. Atomic signed minimum. -/
  | amoMin (d : BitVec 6) (a : BitVec 6) (b : BitVec 6) (t : Bool) (u : Bool) (o : BitVec 2)
  /-- R249. Atomic signed maximum. -/
  | amoMax (d : BitVec 6) (a : BitVec 6) (b : BitVec 6) (t : Bool) (u : Bool) (o : BitVec 2)
  /-- R249. Atomic unsigned minimum. -/
  | amoMinn (d : BitVec 6) (a : BitVec 6) (b : BitVec 6) (t : Bool) (u : Bool) (o : BitVec 2)
  /-- R249. Atomic unsigned maximum. -/
  | amoMaxn (d : BitVec 6) (a : BitVec 6) (b : BitVec 6) (t : Bool) (u : Bool) (o : BitVec 2)
  /-- R249. Atomic bitwise AND. -/
  | amoAnd (d : BitVec 6) (a : BitVec 6) (b : BitVec 6) (t : Bool) (u : Bool) (o : BitVec 2)
  /-- R249. Atomic bitwise OR. -/
  | amoOr (d : BitVec 6) (a : BitVec 6) (b : BitVec 6) (t : Bool) (u : Bool) (o : BitVec 2)
  /-- R249. Atomic bitwise XOR. -/
  | amoXor (d : BitVec 6) (a : BitVec 6) (b : BitVec 6) (t : Bool) (u : Bool) (o : BitVec 2)
  /-- R249. Atomic binary32 add rounded RNE. -/
  | amoFaddF (d : BitVec 6) (a : BitVec 6) (b : BitVec 6) (t : Bool) (u : Bool) (o : BitVec 2)
  /-- R249. Atomic binary64 add rounded RNE. -/
  | amoFaddD (d : BitVec 6) (a : BitVec 6) (b : BitVec 6) (t : Bool) (u : Bool) (o : BitVec 2)
  /-- R249. Atomically merges a statistic record into memory with Merge. -/
  | amoAmerge (d : BitVec 6) (a : BitVec 6) (b : BitVec 6) (t : Bool) (u : Bool) (o : BitVec 2)
  /-- R240. Requests a shared grant of a headgate and holds the context until granted. -/
  | acqS (a : BitVec 6) (t : Bool)
  /-- R240. Requests an exclusive grant of a headgate and holds the context until granted. -/
  | acqX (a : BitVec 6) (t : Bool)
  /-- R241. Waits for earlier stores and copies, then releases the held headgate. -/
  | rel (a : BitVec 6) (t : Bool)
  /-- R242. Passes an exclusive headgate capability to a named task. -/
  | handover (a : BitVec 6) (b : BitVec 6) (t : Bool) (u : Bool)
  /-- R245. Binds or unbinds a headgate to a virtual region. -/
  | hgbind (a : BitVec 6) (b : BitVec 6) (t : Bool) (u : Bool)
  /-- R248. Holds the context until its own-buffer accesses and loads complete. -/
  | fenceCtx
  /-- R248. Fence of plot scope. -/
  | fencePlot
  /-- R248. Fence of field scope. -/
  | fenceField
  /-- R248. Fence of package scope, waiting for HBM store and AMO acknowledgements. -/
  | fencePkg
  /-- R248. Fence of system scope, also waiting for PEER and HOST accesses. -/
  | fenceSys
  /-- R252. Fences as fence.pkg, arrives at a barrier and blocks until all members arrive. -/
  | bar (d : BitVec 6) (a : BitVec 6) (t : Bool)
  /-- R262. Puts a keyed element into a priority pool and holds until the weir answers. -/
  | pput (d : BitVec 6) (a : BitVec 6) (b : BitVec 6) (t : Bool) (u : Bool)
  /-- R263. Takes an element from a pool, parking until one can be served. -/
  | ptake (d : BitVec 6) (a : BitVec 6) (t : Bool)
  /-- R263. Takes an element from a pool or answers EMPTY after emptiness agreement. -/
  | ptaken (d : BitVec 6) (a : BitVec 6) (t : Bool)
  /-- R264. Reports the first known element of a pool without removing it. -/
  | ppeek (d : BitVec 6) (a : BitVec 6) (t : Bool)
  /-- R265. Returns the local weir's state word for a pool. -/
  | pstat (d : BitVec 6) (a : BitVec 6) (t : Bool)
  /-- R266. Writes a pool's configuration at all 16 weirs (supervisor). -/
  | pcfg (a : BitVec 6) (b : BitVec 6) (t : Bool) (u : Bool)
  /-- R211. Creates a promise record, returns its handle and sends an invocation. -/
  | invoke (d : BitVec 6) (a : BitVec 6) (n : BitVec 6) (t : Bool) (m : BitVec 6)
  /-- R224. Requests the result of a handle, trapping BROKEN on a break. -/
  | await (d : BitVec 6) (a : BitVec 6) (t : Bool)
  /-- R224. Requests the result of a handle, returning a break record with status 1. -/
  | awaitb (d : BitVec 6) (a : BitVec 6) (b : BitVec 6) (t : Bool)
  /-- R223. Resolves the task's promise to a value and ends the task. -/
  | resolve (a : BitVec 6) (t : Bool)
  /-- R223. Resolves the promise to an OREF or chains it to a handle, then ends the task. -/
  | resolveref (a : BitVec 6) (t : Bool)
  /-- R223. Breaks the task's promise with a software code and ends the task. -/
  | breakP (a : BitVec 6) (t : Bool)
  /-- R226. Requests a snapshot of a promise record's state. -/
  | hstat (d : BitVec 6) (a : BitVec 6) (t : Bool)
  /-- R232. Sends a posted raw message to a plot channel. -/
  | send (a : BitVec 6) (n : BitVec 6) (t : Bool)
  /-- R233. Receives the next word of a raw message from a channel. -/
  | recv (d : BitVec 6) (a : BitVec 6) (t : Bool)
  /-- R281. Sends a copy command to a chosen flume and holds until accepted, returning the promise P. -/
  | cpy (d : BitVec 6) (a : BitVec 6)
  /-- R281. As cpy with an explicitly named flume. -/
  | cpyE (d : BitVec 6) (a : BitVec 6) (b : BitVec 6) (u : Bool)
  /-- R291. Starts a collective instance on a communicator and returns its token. -/
  | coll (d : BitVec 6) (a : BitVec 6)
  /-- R292. Waits for a collective instance's destination bytes and returns its status. -/
  | collw (d : BitVec 6) (a : BitVec 6) (t : Bool)
  /-- R285. Copies data to a destination and then performs a signal AMO there. -/
  | puts (d : BitVec 6) (a : BitVec 6)
  /-- R285. Copies data from an HBM or PEER source to a local destination. -/
  | get (d : BitVec 6) (a : BitVec 6)
  /-- R120. Loads a 32-byte row segment into a v register. -/
  | vldRow (v : BitVec 4) (b : BitVec 6) (s : BitVec 2) (t : Bool) (o : BitVec 11)
  /-- R120. Loads a column strip of element width e into a v register. -/
  | vldCol (v : BitVec 4) (b : BitVec 6) (s : BitVec 2) (t : Bool) (e : BitVec 2) (o : BitVec 9)
  /-- R120. Stores a v register as a 32-byte row segment. -/
  | vstRow (v : BitVec 4) (b : BitVec 6) (s : BitVec 2) (t : Bool) (o : BitVec 11)
  /-- R120. Stores a v register as a column strip. -/
  | vstCol (v : BitVec 4) (b : BitVec 6) (s : BitVec 2) (t : Bool) (e : BitVec 2) (o : BitVec 9)
  /-- R122. Integer lane add. -/
  | vaddInt (d : BitVec 4) (a : BitVec 4) (b : BitVec 4) (y : BitVec 3) (t : Bool) (u : Bool)
  /-- R122. Integer lane subtract. -/
  | vsubInt (d : BitVec 4) (a : BitVec 4) (b : BitVec 4) (y : BitVec 3) (t : Bool) (u : Bool)
  /-- R122. Integer lane multiply, low half. -/
  | vmulInt (d : BitVec 4) (a : BitVec 4) (b : BitVec 4) (y : BitVec 3) (t : Bool) (u : Bool)
  /-- R122. Integer lane multiply, high half. -/
  | vmulh (d : BitVec 4) (a : BitVec 4) (b : BitVec 4) (y : BitVec 3) (t : Bool) (u : Bool)
  /-- R122. Integer lane minimum. -/
  | vminInt (d : BitVec 4) (a : BitVec 4) (b : BitVec 4) (y : BitVec 3) (t : Bool) (u : Bool)
  /-- R122. Integer lane maximum. -/
  | vmaxInt (d : BitVec 4) (a : BitVec 4) (b : BitVec 4) (y : BitVec 3) (t : Bool) (u : Bool)
  /-- R122. Integer lane absolute value. -/
  | vabsInt (d : BitVec 4) (a : BitVec 4) (y : BitVec 3) (t : Bool)
  /-- R122. Integer lane negation. -/
  | vnegInt (d : BitVec 4) (a : BitVec 4) (y : BitVec 3) (t : Bool)
  /-- R122. Integer lane rounded average. -/
  | vavg (d : BitVec 4) (a : BitVec 4) (b : BitVec 4) (y : BitVec 3) (t : Bool) (u : Bool)
  /-- R122. Integer lane absolute difference. -/
  | vabsd (d : BitVec 4) (a : BitVec 4) (b : BitVec 4) (y : BitVec 3) (t : Bool) (u : Bool)
  /-- R122. Integer lane multiply-accumulate into the old destination. -/
  | vmacc (d : BitVec 4) (a : BitVec 4) (b : BitVec 4) (y : BitVec 3) (t : Bool) (u : Bool)
  /-- R122. Integer lane division. -/
  | vdivInt (d : BitVec 4) (a : BitVec 4) (b : BitVec 4) (y : BitVec 3) (t : Bool) (u : Bool)
  /-- R122. Integer lane remainder. -/
  | vrem (d : BitVec 4) (a : BitVec 4) (b : BitVec 4) (y : BitVec 3) (t : Bool) (u : Bool)
  /-- R122. Integer lane leading-zero count. -/
  | vclz (d : BitVec 4) (a : BitVec 4) (y : BitVec 3) (t : Bool)
  /-- R122. Integer lane population count. -/
  | vpopc (d : BitVec 4) (a : BitVec 4) (y : BitVec 3) (t : Bool)
  /-- R123. Float lane add, rounded once. -/
  | vaddFloat (d : BitVec 4) (a : BitVec 4) (b : BitVec 4) (y : BitVec 4) (t : Bool) (u : Bool)
  /-- R123. Float lane subtract. -/
  | vsubFloat (d : BitVec 4) (a : BitVec 4) (b : BitVec 4) (y : BitVec 4) (t : Bool) (u : Bool)
  /-- R123. Float lane multiply. -/
  | vmulFloat (d : BitVec 4) (a : BitVec 4) (b : BitVec 4) (y : BitVec 4) (t : Bool) (u : Bool)
  /-- R123. Float lane zero-times-anything multiply. -/
  | vmulz (d : BitVec 4) (a : BitVec 4) (b : BitVec 4) (y : BitVec 4) (t : Bool) (u : Bool)
  /-- R123. Float lane division. -/
  | vdivFloat (d : BitVec 4) (a : BitVec 4) (b : BitVec 4) (y : BitVec 4) (t : Bool) (u : Bool)
  /-- R123. Float lane minimum. -/
  | vminFloat (d : BitVec 4) (a : BitVec 4) (b : BitVec 4) (y : BitVec 4) (t : Bool) (u : Bool)
  /-- R123. Float lane maximum. -/
  | vmaxFloat (d : BitVec 4) (a : BitVec 4) (b : BitVec 4) (y : BitVec 4) (t : Bool) (u : Bool)
  /-- R123. Float lane absolute value. -/
  | vabsFloat (d : BitVec 4) (a : BitVec 4) (y : BitVec 4) (t : Bool)
  /-- R123. Float lane negation. -/
  | vnegFloat (d : BitVec 4) (a : BitVec 4) (y : BitVec 4) (t : Bool)
  /-- R123. Float lane fused a × b + c. -/
  | vfma (d : BitVec 4) (a : BitVec 4) (b : BitVec 4) (y : BitVec 4) (t : Bool) (u : Bool)
  /-- R123. Float lane fused a × b − c. -/
  | vfms (d : BitVec 4) (a : BitVec 4) (b : BitVec 4) (y : BitVec 4) (t : Bool) (u : Bool)
  /-- R123. Float lane fused −(a × b) + c. -/
  | vfnma (d : BitVec 4) (a : BitVec 4) (b : BitVec 4) (y : BitVec 4) (t : Bool) (u : Bool)
  /-- R123. Float lane square root. -/
  | vsqrt (d : BitVec 4) (a : BitVec 4) (y : BitVec 4) (t : Bool)
  /-- R123. Float lane fused (a ×z b) + c. -/
  | vfmaz (d : BitVec 4) (a : BitVec 4) (b : BitVec 4) (y : BitVec 4) (t : Bool) (u : Bool)
  /-- R124. Lane compare equal. -/
  | vceq (d : BitVec 4) (a : BitVec 4) (b : BitVec 4) (y : BitVec 4) (t : Bool) (u : Bool)
  /-- R124. Lane compare not equal. -/
  | vcne (d : BitVec 4) (a : BitVec 4) (b : BitVec 4) (y : BitVec 4) (t : Bool) (u : Bool)
  /-- R124. Lane compare less. -/
  | vclt (d : BitVec 4) (a : BitVec 4) (b : BitVec 4) (y : BitVec 4) (t : Bool) (u : Bool)
  /-- R124. Lane compare less or equal. -/
  | vcle (d : BitVec 4) (a : BitVec 4) (b : BitVec 4) (y : BitVec 4) (t : Bool) (u : Bool)
  /-- R124. Lane compare unordered. -/
  | vcun (d : BitVec 4) (a : BitVec 4) (b : BitVec 4) (y : BitVec 4) (t : Bool) (u : Bool)
  /-- R124. Lane bitwise AND. -/
  | vand (d : BitVec 4) (a : BitVec 4) (b : BitVec 4) (y : BitVec 3) (t : Bool) (u : Bool)
  /-- R124. Lane bitwise OR. -/
  | vor (d : BitVec 4) (a : BitVec 4) (b : BitVec 4) (y : BitVec 3) (t : Bool) (u : Bool)
  /-- R124. Lane bitwise XOR. -/
  | vxor (d : BitVec 4) (a : BitVec 4) (b : BitVec 4) (y : BitVec 3) (t : Bool) (u : Bool)
  /-- R124. Lane bitwise AND NOT. -/
  | vandn (d : BitVec 4) (a : BitVec 4) (b : BitVec 4) (y : BitVec 3) (t : Bool) (u : Bool)
  /-- R124. Lane bitwise NOT. -/
  | vnot (d : BitVec 4) (a : BitVec 4) (y : BitVec 3) (t : Bool)
  /-- R124. Lane shift left. -/
  | vsll (d : BitVec 4) (a : BitVec 4) (b : BitVec 4) (y : BitVec 3) (t : Bool) (u : Bool)
  /-- R124. Lane logical shift right. -/
  | vsrl (d : BitVec 4) (a : BitVec 4) (b : BitVec 4) (y : BitVec 3) (t : Bool) (u : Bool)
  /-- R124. Lane arithmetic shift right. -/
  | vsra (d : BitVec 4) (a : BitVec 4) (b : BitVec 4) (y : BitVec 3) (t : Bool) (u : Bool)
  /-- R125. Converts lanes from type S to type D, widening, narrowing or equal. -/
  | vcvt (d : BitVec 4) (a : BitVec 4) (p : BitVec 1) (y : BitVec 4) (t : Bool) (q : BitVec 2) (s : BitVec 4)
  /-- R126. Permutes lanes of a by indices in b. -/
  | vperm (d : BitVec 4) (a : BitVec 4) (b : BitVec 4) (y : BitVec 4) (t : Bool) (u : Bool)
  /-- R126. Reverses lane order. -/
  | vrev (d : BitVec 4) (a : BitVec 4) (y : BitVec 4) (t : Bool)
  /-- R126. Interleaves the low halves of a and b. -/
  | vzipl (d : BitVec 4) (a : BitVec 4) (b : BitVec 4) (y : BitVec 4) (t : Bool) (u : Bool)
  /-- R126. Interleaves the high halves of a and b. -/
  | vziph (d : BitVec 4) (a : BitVec 4) (b : BitVec 4) (y : BitVec 4) (t : Bool) (u : Bool)
  /-- R126. Deinterleaves even lanes. -/
  | vuzpe (d : BitVec 4) (a : BitVec 4) (b : BitVec 4) (y : BitVec 4) (t : Bool) (u : Bool)
  /-- R126. Deinterleaves odd lanes. -/
  | vuzpo (d : BitVec 4) (a : BitVec 4) (b : BitVec 4) (y : BitVec 4) (t : Bool) (u : Bool)
  /-- R126. Copies lanes of a. -/
  | vmov (d : BitVec 4) (a : BitVec 4) (y : BitVec 4) (t : Bool)
  /-- R126. Writes each lane's index. -/
  | vidx (d : BitVec 4) (y : BitVec 3)
  /-- R127. Broadcasts the low bytes of a g register into every active lane. -/
  | vbcast (g : BitVec 6) (v : BitVec 4) (y : BitVec 4) (t : Bool)
  /-- R127. Extracts lane 0 of a v register into a g register. -/
  | vextr (g : BitVec 6) (v : BitVec 4) (y : BitVec 4) (t : Bool)
  /-- R127. Gathers the top bit of each lane into a g register. -/
  | vmskb (g : BitVec 6) (v : BitVec 4) (y : BitVec 4) (t : Bool)
  /-- R128. Lane reciprocal special function. -/
  | vrcp (d : BitVec 4) (a : BitVec 4) (y : BitVec 1) (t : Bool)
  /-- R128. Lane reciprocal square root. -/
  | vrsqrt (d : BitVec 4) (a : BitVec 4) (y : BitVec 1) (t : Bool)
  /-- R128. Lane base-2 exponential. -/
  | vexp2 (d : BitVec 4) (a : BitVec 4) (y : BitVec 1) (t : Bool)
  /-- R128. Lane base-2 logarithm. -/
  | vlog2 (d : BitVec 4) (a : BitVec 4) (y : BitVec 1) (t : Bool)
  /-- R128. Lane natural exponential. -/
  | vexp (d : BitVec 4) (a : BitVec 4) (y : BitVec 1) (t : Bool)
  /-- R128. Lane hyperbolic tangent. -/
  | vtanh (d : BitVec 4) (a : BitVec 4) (y : BitVec 1) (t : Bool)
  /-- R128. Lane logistic sigmoid. -/
  | vsigm (d : BitVec 4) (a : BitVec 4) (y : BitVec 1) (t : Bool)
  /-- R131. Fills vd with the next random block and advances RNGCTR. -/
  | vrand (d : BitVec 4) (y : BitVec 2)
  /-- R171. Updates a statistic record from the active lanes of a register. -/
  | supd (d : BitVec 4) (a : BitVec 4) (y : BitVec 4) (t : Bool)
  /-- R171. Weighted update of a statistic record from lanes and weights. -/
  | supdw (d : BitVec 4) (a : BitVec 4) (b : BitVec 4) (y : BitVec 4) (t : Bool) (u : Bool)
  /-- R173. Merges two statistic records. -/
  | smrg (d : BitVec 4) (a : BitVec 4) (b : BitVec 4) (t : Bool) (u : Bool)
  /-- R173. Writes the empty record into an s register. -/
  | sclr (d : BitVec 4)
  /-- R173. Copies bytes 0–15 of a v register into an s register. -/
  | sputLo (d : BitVec 4) (a : BitVec 4) (t : Bool)
  /-- R173. Copies bytes 16–31 of a v register into an s register. -/
  | sputHi (d : BitVec 4) (a : BitVec 4) (t : Bool)
  /-- R173. Copies an s register into bytes 0–15 of a v register. -/
  | sgetLo (d : BitVec 4) (a : BitVec 4) (t : Bool)
  /-- R173. Copies an s register into bytes 16–31 of a v register. -/
  | sgetHi (d : BitVec 4) (a : BitVec 4) (t : Bool)
  /-- R174. Drains a record to one binary32 value by the selected option into active lanes. -/
  | sdrain (d : BitVec 4) (a : BitVec 4) (t : Bool) (o : BitVec 3)
  /-- R175. Normalises lanes by a record's mean and reciprocal standard deviation. -/
  | snorm (d : BitVec 4) (a : BitVec 4) (b : BitVec 4) (y : BitVec 4) (t : Bool) (u : Bool)
  /-- R175. As snorm using the zero-times-anything product. -/
  | snormZ (d : BitVec 4) (a : BitVec 4) (b : BitVec 4) (y : BitVec 4) (t : Bool) (u : Bool)
  /-- R172. Updates a record from a row segment of the plot's own buffer. -/
  | supdRow (d : BitVec 4) (b : BitVec 6) (s : BitVec 2) (y : BitVec 4) (t : Bool)
  /-- R172. Updates a record from a column strip of the plot's own buffer. -/
  | supdCol (d : BitVec 4) (b : BitVec 6) (s : BitVec 2) (y : BitVec 4) (t : Bool)
  /-- R146. Multiplies operand descriptors into a C tile group in fixed order. -/
  | mma (a : BitVec 6) (b : BitVec 6) (k : BitVec 6) (c : BitVec 6)
  /-- R146. Guarded multiply whose row end comes from a guard word at first issue. -/
  | mmaG (a : BitVec 6) (b : BitVec 6) (k : BitVec 6) (c : BitVec 6)
  /-- R151. Sparse multiply with a 2-of-4 compressed B operand. -/
  | mmas (a : BitVec 6) (b : BitVec 6) (k : BitVec 6) (c : BitVec 6)
  /-- R153. Forms a tile group, faulting TILE-LIVE on a live touched group. -/
  | mcfg (a : BitVec 6)
  /-- R153. Forms a tile group, discarding and zeroing touched groups. -/
  | mcfgD (a : BitVec 6)
  /-- R154. Zeroes a group and marks it not live. -/
  | mzero (a : BitVec 6)
  /-- R155. Drains a group into A or W with conversion. -/
  | mdrain (a : BitVec 6) (b : BitVec 6)
  /-- R155. Drains a group and then zeroes it and marks it not live. -/
  | mdrainZ (a : BitVec 6) (b : BitVec 6)
  /-- R156. Copies one C tile row into a v register. -/
  | mdrainV (d : BitVec 4) (a : BitVec 6)
  /-- R157. Adds a row- and column-scaled partial group into a target group. -/
  | mscale (d : BitVec 6) (a : BitVec 6) (b : BitVec 6)
  /-- R157. As mscale with the zero-times-anything product. -/
  | mscaleZ (d : BitVec 6) (a : BitVec 6) (b : BitVec 6)
  /-- R150. Compresses a matrix 2-of-4 along k with metadata. -/
  | mcomp (d : BitVec 6) (a : BitVec 6) (b : BitVec 6)
  /-- R308. Reads a CSR into G[d]. -/
  | csrr (d : BitVec 6) (c : BitVec 8)
  /-- R308. Writes a CSR from G[a], returning the old value; the write row for CSRs without their own row. -/
  | csrw (d : BitVec 6) (a : BitVec 6) (t : Bool) (c : BitVec 8)
  /-- R308. Sets CSR bits from G[a], returning the old value. -/
  | csrs (d : BitVec 6) (a : BitVec 6) (t : Bool) (c : BitVec 8)
  /-- R308. Clears CSR bits from G[a], returning the old value. -/
  | csrc (d : BitVec 6) (a : BitVec 6) (t : Bool) (c : BitVec 8)
  /-- R312. Returns from a trap to EPC in the mode of TSTAT.PPRIV. -/
  | tret
  /-- R307. Retires and raises SOFTWARE with TVAL = G[a]. -/
  | trap (a : BitVec 6) (t : Bool)
  /-- R307. Retires and raises BREAKPOINT with TVAL = 0x1_0000 + n. -/
  | brk (n : BitVec 8)
  /-- R320. Hands the recorded trap to containment. -/
  | tfault
  /-- R325. Writes a word into the instruction store. -/
  | iswr (a : BitVec 6) (t : Bool)
  /-- R324. Invalidates the translations of one page across the package. -/
  | tlbinv (a : BitVec 6) (t : Bool)
  /-- R324. Invalidates every translation of the partition on the package. -/
  | tlbinvAll
  /-- R322. Maps an old OREF to a new home in the object directory. -/
  | objhome (a : BitVec 6) (t : Bool)
  /-- R64. Kind-00 modifier extending the next ADDI/ANDI/ORI/XORI immediate to 37 bits. -/
  | modImm (p : BitVec 24)
  /-- R65. Kind-01 vector/float modifier of the next instruction. -/
  | modVf (p : BitVec 24)
  /-- R65. Kind-10 invoke modifier of the next INVOKE. -/
  | modInv (p : BitVec 24)
  /-- R64. Kind-11 scheduling hint, architecturally ignored. -/
  | modHint (p : BitVec 24)
  /-- R70. An issue attempt of a word that matches no instruction (major 0x00, a reserved major, or an unlisted minor code) raises ILLEGAL. -/
  | ill (w : W32)
  /-- R79. A multiplier, divider or vector result is written to its destination. -/
  | multicycleResult (p : Nat) (c : Nat) (k : Nat)
  /-- R59. A response writes a long-latency producer's destination and sets it full. -/
  | longLatencyResponse (k : Nat)
  /-- R106. The far end's response or acceptance releases a held context or makes it trap. -/
  | heldAccessResponse (k : Nat)
  /-- R74. A port word moves from an outbound queue to the neighbour's inbound queue. -/
  | portWordTransfer (p : Nat) (dir : Nat)
  /-- R111. A field TLB hit or walk returns a translation to the micro-TLB. -/
  | translationComplete (p : Nat) (k : Nat)
  /-- R138. The freed matrix engine is granted to the waiting context of greatest priority. -/
  | engineGrant (p : Nat)
  /-- R214. An invocation is checked at its plot and joins a channel queue or breaks. -/
  | invocationArrival (k : Nat)
  /-- R179. A raw message joins its channel queue or is discarded. -/
  | rawMessageArrival (k : Nat)
  /-- R230. The memory-side agent appends a held invocation or message to its list in HBM. -/
  | agentListAppend (k : Nat)
  /-- R179. The agent returns held messages to a queue or record in arrival order as room frees. -/
  | agentReturn (f : Nat) (k : Nat)
  /-- R230. The object directory forwards an invocation for a moved object to its new home. -/
  | directoryForward (k : Nat)
  /-- R181. A ready task starts in a free context with its registers initialised. -/
  | taskStart (p : Nat)
  /-- R191. An ended task's context frees once its results and held responses are in. -/
  | contextFree (p : Nat) (c : Nat)
  /-- R185. The plot chooses a candidate context and starts writing its image to the cistern. -/
  | spill (p : Nat)
  /-- R185. A context image has been written and the context is free. -/
  | spillComplete (p : Nat)
  /-- R186. A spilled ready task's image is read back into a context. -/
  | restore (p : Nat)
  /-- R189. Every 65,536 cc the longest-waiting ready task receives a quantum. -/
  | floorTick (p : Nat)
  /-- R193. A sleeping context's wake time is reached. -/
  | sleepWake (p : Nat) (k : Nat)
  /-- R202. A plot in deterministic mode ends its quantum. -/
  | quantumEnd (p : Nat)
  /-- R203. When all plots end quantum k, deferred deliveries, takes and grants are applied in order. -/
  | quantumApply (x : Nat)
  /-- R197. A follow request reaches the leader's plot and joins the follower. -/
  | followJoin (k : Nat)
  /-- R199. A follower splits when its leader's stall lasts beyond 65,536 cc. -/
  | furrowTimeoutSplit (p : Nat) (c : Nat)
  /-- R216. A resolution, chain or break reaches a promise record and settles it. -/
  | settlementArrival (k : Nat)
  /-- R216. A settled record treats one queued entry by forwarding, releasing or breaking it. -/
  | recordQueueEntry (p : Nat) (r : Nat)
  /-- R218. An acceptance notice reaches the forwarding plot and is passed back along the chain. -/
  | acceptanceNotice (k : Nat)
  /-- R219. A chained record's registration reaches the next handle's record. -/
  | chainRegistration (k : Nat)
  /-- R220. The next record's answer makes a chained record take its result or break. -/
  | chainCollapse (k : Nat)
  /-- R225. An AWAIT request reaches a record and is answered or held. -/
  | awaitRequest (k : Nat)
  /-- R224. An await answer reaches the awaiter and writes its result or traps BROKEN. -/
  | awaitAnswer (k : Nat)
  /-- R226. An hstat request reaches a record and a snapshot is returned. -/
  | hstatRequest (k : Nat)
  /-- R206. A record becomes free once its owner has ended and all its work is done. -/
  | recordFree (p : Nat) (r : Nat)
  /-- R107. A plot's remote port serves an LDX, STX or SCRATCH access in class 3. -/
  | remotePortAccess (k : Nat)
  /-- R103. A parked synchronising load is served when its bit becomes full. -/
  | parkedRequestServe (k : Nat)
  /-- R103. A request that found no parking space is sent again after 256 cc. -/
  | requestResend (k : Nat)
  /-- R345. A base die performs an HBM load or store and acknowledges it. -/
  | baseDieAccess (k : Nat)
  /-- R250. The serving place performs an AMO indivisibly and responds. -/
  | amoServe (k : Nat)
  /-- R240. The headgate unit queues or grants an acquire request. -/
  | headgateRequest (k : Nat)
  /-- R240. A grant reaches the requesting context and enters its held-gate table. -/
  | headgateGrant (k : Nat)
  /-- R241. The unit applies a release and grants waiting requests. -/
  | headgateRelease (k : Nat)
  /-- R242. A handover grant reaches the target plot and is accepted or refused. -/
  | handoverGrant (k : Nat)
  /-- R245. A field service block applies a binding change and acknowledges it. -/
  | hgbindChange (k : Nat)
  /-- R253. A bar arrival is counted at the field service block's barrier. -/
  | barrierArrival (k : Nat)
  /-- R253. Waiters are released 50 cc after a barrier's last arrival. -/
  | barrierRelease (f : Nat) (k : Nat)
  /-- R262. The local weir stores, redirects or refuses a put. -/
  | weirPut (k : Nat)
  /-- R262. A redirected put reaches another weir. -/
  | putRedirect (k : Nat)
  /-- R262. A weir receives an announced element and acknowledges it. -/
  | announcement (k : Nat)
  /-- R262. An acknowledgement of an announcement reaches the storing weir. -/
  | announcementAck (k : Nat)
  /-- R263. The local weir serves, pulls for or parks a take. -/
  | weirTake (k : Nat)
  /-- R264. The local weir answers a ppeek from its known set. -/
  | weirPeek (k : Nat)
  /-- R265. The local weir answers a pstat. -/
  | weirStat (k : Nat)
  /-- R266. A weir applies a pool configuration and acknowledges it. -/
  | weirCfg (k : Nat)
  /-- R267. Every PER × 16 cc a weir broadcasts a summary of each enabled pool. -/
  | weirSummary (f : Nat) (q : Nat)
  /-- R267. A summary reaches a weir and may complete a round and update thresholds. -/
  | summaryArrival (k : Nat)
  /-- R271. A moved element is received and acknowledged. -/
  | moveArrival (k : Nat)
  /-- R269. A pull reaches the holding weir, which returns or refuses its first element. -/
  | pull (k : Nat)
  /-- R269. A pull's answer reaches the local weir and serves or retries the take. -/
  | pullAnswer (k : Nat)
  /-- R272. A weir answers a collect with its put and take totals and traffic in flight. -/
  | emptinessCollect (k : Nat)
  /-- R272. Collect answers reach the requesting weir, which decides emptiness. -/
  | collectAnswer (k : Nat)
  /-- R273. An element older than AGE × 1,024 cc becomes overdue. -/
  | elementOverdue (f : Nat) (k : Nat)
  /-- R281. A flume accepts a copy command, reads the guard, empties CE words and answers P. -/
  | flumeAccept (k : Nat)
  /-- R282. A flume moves one piece of a queued copy. -/
  | copyPiece (f : Nat) (k : Nat)
  /-- R282. A copy's last byte is performed and its record frees. -/
  | copyComplete (k : Nat)
  /-- R283. A record with LT = 1 not complete at CYCLE = P is found late. -/
  | copyLate (p : Nat) (c : Nat) (k : Nat)
  /-- R283. A copy's record completes marked failed. -/
  | copyFailed (k : Nat)
  /-- R286. After all data bytes are performed the signal AMO is applied and acknowledged. -/
  | putsSignal (k : Nat)
  /-- R291. A coll reaches the sluice and is checked against the communicator. -/
  | collRequest (k : Nat)
  /-- R291. The sluice accepts an instance once every local member has issued and the previous instance has finished. -/
  | collAccept (x : Nat)
  /-- R292. A collw reaches the sluice and is answered when the instance finishes here. -/
  | collwRequest (k : Nat)
  /-- R294. A collective chunk arrives and is accepted, staged or detected as mismatch or overrun. -/
  | chunkArrival (k : Nat)
  /-- R295. The sluice takes up a ready chunk, merges and forwards it. -/
  | chunkTakeup (x : Nat)
  /-- R294. A break notice reaches a member, which marks the communicator broken. -/
  | commBreakNotice (k : Nat)
  /-- R299. A data frame is received and delivered in SEQ order or buffered. -/
  | lintilData (k : Nat)
  /-- R302. An ack frame releases acknowledged frames and updates the window and RTT. -/
  | lintilAck (k : Nat)
  /-- R300. A nack makes the sender retransmit from the nacked SEQ. -/
  | lintilNack (k : Nat)
  /-- R299. An open frame requests a connection. -/
  | lintilOpen (k : Nat)
  /-- R299. An open-ack completes a connection's opening. -/
  | lintilOpenAck (k : Nat)
  /-- R299. A close frame ends a connection. -/
  | lintilClose (k : Nat)
  /-- R297. A received PAUSE or PFC frame is discarded. -/
  | pauseFrameReceive (k : Nat)
  /-- R300. The receiver acknowledges at least every 6,000 cc. -/
  | ackTimer (k : Nat)
  /-- R300. A retransmission timeout resends from the oldest unacknowledged frame. -/
  | retransmitTimeout (k : Nat)
  /-- R301. A spilled connection state returns from the host area. -/
  | connectionStateFetch (k : Nat)
  /-- R333. CNT returns to 0 when CYCLE is a multiple of WIN × 1,024. -/
  | thresholdWindowReset (p : Nat) (k : Nat)
  /-- R332. A task blocked on one instruction for 2^24 cc is counted. -/
  | watchdog (p : Nat) (c : Nat)
  /-- R336. The scrubber reads and corrects code words in unclaimed cycles. -/
  | scrub (p : Nat)
  /-- R335. A cleared failed square finishes its 2,048 cc rebuild. -/
  | squareRebuildComplete (p : Nat) (k : Nat)
  /-- R309. A write to PTROOT also invalidates the plot's micro-TLB. -/
  | ptrootWrite (p : Nat) (w : Word)
  /-- R321. A write to OBJENT may evict or reload an object. -/
  | objentWrite (p : Nat) (k : Nat) (w : Word)
  /-- R178. A write to CHENT sets a channel entry. -/
  | chentWrite (p : Nat) (k : Nat) (w : Word)
  /-- R323. A write to CISTERN sets slots and, when no image is stored, the base. -/
  | cisternWrite (p : Nat) (w : Word)
  /-- R335. A write to SQSTAT marks a square failed or starts its rebuild. -/
  | sqstatWrite (p : Nat) (w : Word)
  /-- R330. Halts a context at its next boundary. -/
  | debugHalt (k : Nat)
  /-- R330. Resumes a halted context at PC. -/
  | debugResume (k : Nat)
  /-- R330. Performs trap entry for a context halted by HOT. -/
  | debugDeliver (k : Nat)
  /-- R330. Resumes for one instruction or pair, then halts. -/
  | debugStep (k : Nat)
  /-- R330. Reads g, v or s registers and their FE. -/
  | debugRegRead (k : Nat)
  /-- R330. Writes a register, waiting for a pending producer. -/
  | debugRegWrite (k : Nat)
  /-- R330. Reads CSRs as supervisor. -/
  | debugCsrRead (k : Nat)
  /-- R330. Writes CSRs as supervisor. -/
  | debugCsrWrite (k : Nat)
  /-- R330. Reads buffers and their FE bits. -/
  | debugBufferRead (k : Nat)
  /-- R330. Writes buffers as class 3. -/
  | debugBufferWrite (k : Nat)
  /-- R330. Reads the store, tables, turnout, gates, barriers or weir entries at one cycle. -/
  | debugSnapshot (k : Nat)
  /-- R330. Writes the instruction store as iswr does. -/
  | debugIstoreWrite (k : Nat)
  /-- R331. Writes the per-plot debug CSR template and channel mask. -/
  | debugTemplateWrite (k : Nat)
  /-- R376. A CXL.mem read of the host window is served at the base die. -/
  | hostWindowRead (k : Nat)
  /-- R376. A CXL.mem write of the host window is performed at the base die. -/
  | hostWindowWrite (k : Nat)
  /-- R378. A CTL write with GO = 1 makes the proxy invoke or refuses the slot. -/
  | hostInvoke (k : Nat)
  /-- R378. A write of a handle to RELEASE ends the host's ownership of that record. -/
  | release (k : Nat)
  /-- R380. Creates a partition and sets up its plots, granules and cisterns. -/
  | partCreate
  /-- R382. Destroys a partition and zeroes its owned things. -/
  | partDestroy
  /-- R382. After 2^26 cc PART.DESTROY fails still-open copies, collectives and connections. -/
  | partDestroyTimeout
  /-- R380. Sets a partition's DETCTL and DETQ. -/
  | partSetdet
  /-- R380. Sets a partition's PCONT. -/
  | partSetcont
  /-- R288. Writes a communicator entry and its member lists. -/
  | commSet
  /-- R376. Maps a host-window granule to HBM and an owning partition. -/
  | windowMap
  /-- R380. Loads an image onto target plots and extends measurement 5. -/
  | imageLoad
  /-- R386. Writes a summary of device state to a host buffer. -/
  | resync
  /-- R380. Configures Lintil ports, route table and connection spill area. -/
  | portCfg
  /-- R389. Sets the module power cap. -/
  | powerCap
  /-- R387. Sets the event queue address and MSI-X vector. -/
  | evqSet
  /-- R381. Sets the package id. -/
  | pkgId
  /-- R385. SPDM GET_VERSION request. -/
  | getVersion (k : Nat)
  /-- R385. SPDM GET_CAPABILITIES request. -/
  | getCapabilities (k : Nat)
  /-- R385. SPDM NEGOTIATE_ALGORITHMS request. -/
  | negotiateAlgorithms (k : Nat)
  /-- R385. SPDM GET_DIGESTS request. -/
  | getDigests (k : Nat)
  /-- R385. SPDM GET_CERTIFICATE request. -/
  | getCertificate (k : Nat)
  /-- R385. SPDM CHALLENGE request answered with a signature. -/
  | challenge (k : Nat)
  /-- R385. SPDM GET_MEASUREMENTS request returning the SHA-384 measurements. -/
  | getMeasurements (k : Nat)
  /-- R383. Damkar starts from ROM and begins the start-up stages. -/
  | powerOn
  /-- R383. A start-up stage finishes and STATE advances. -/
  | startupStageComplete
  /-- R383. The CXL link trains and comes up. -/
  | cxlLinkUp
  /-- R388. A plot idle for 4,096 cc enters retention voltage. -/
  | retentionEnter (p : Nat)
  /-- R388. The 64 cc parity sweep after a wake completes. -/
  | paritySweepComplete (p : Nat)
  /-- R389. The power governor changes its throttle level and reports an event. -/
  | throttleChange (n : Nat)
  /-- R104. Headworks 0 takes a plot's HOST load, store or AMO and performs it over CXL.cache. -/
  | hostRequest (k : Nat)
  /-- R347. A CXL.cache completion from the host makes a HOST access or a proxy result write take effect and answer. -/
  | cxlCompletion (k : Nat)
  /-- R195. A posted chblk or chunb request arrives in SYS at a remote plot and sets or clears BLK there, or is discarded on a tenant mismatch. -/
  | channelBlockRequest (k : Nat)
  /-- R324. A field service block applies a tlbinv or tlbinv.all to its TLB and its plots' micro-TLBs and acknowledges it. -/
  | tlbInvalidate (k : Nat)
  /-- R322. The old object's field directory records the objhome mapping and acknowledges it, and the agent's list is sent to the new home. -/
  | directoryMapUpdate (k : Nat)
  /-- R298. A received Lintil frame whose KIND is not 0 to 5 is dropped and counted. -/
  | lintilUnknownKind (k : Nat)
  deriving DecidableEq, Repr

end Sys2Proof
end

