-- ==== Sys2Proof/WellFormed.lean ====
section
/-!
DEFINITION. Which instruction words are well formed (03 R56, R57, R58, R62, R65, R70 and each chapter's
own ILLEGAL uses). A word whose fields break one of these is ILLEGAL.
-/

namespace Sys2Proof

/-- R62: not a port register, as the destination of a long-latency producer must be. -/
def notPort (r : BitVec 6) : Bool := decide (r.toNat < 60)

/-- R62: a group of `n` consecutive registers from `r` holds no port and does not run past g63. -/
def groupOk (r : BitVec 6) (n : Nat) : Bool := decide (r.toNat + n ≤ 60)

/-- R52: a type code that names a format. -/
def anyType (y : BitVec 4) : Bool := decide (y.toNat ≤ 12)

/-- R123: the float type codes 8 to 12. -/
def floatType (y : BitVec 4) : Bool := decide (8 ≤ y.toNat) && decide (y.toNat ≤ 12)

/-- R161, R169: the element types of a statistic. -/
def statType (y : BitVec 4) : Bool := decide (y.toNat ∈ [8, 9, 11, 12])

/-- R58: an index of an s register. -/
def sReg (r : BitVec 4) : Bool := decide (r.toNat < 8)

/-- R52: the bytes of one element of a type code; 0 for a code that names no format. -/
def typeBytes : Nat → Nat
  | 0 | 4 | 11 | 12 => 1
  | 1 | 5 | 8 => 2
  | 2 | 6 | 9 => 4
  | 3 | 7 | 10 => 8
  | _ => 0

/-- R125: the type codes of a conversion differ and name formats, and the part is below the ratio of
the element sizes. -/
def cvtOk (dst src : BitVec 4) (part : Nat) : Bool :=
  let ed := typeBytes dst.toNat
  let es := typeBytes src.toNat
  anyType dst && anyType src && decide (dst ≠ src) && decide (part < max (ed / es) (es / ed))

/-- R306: the CSR numbers that are not reserved. -/
def csrKnown (c : Nat) : Bool :=
  decide (c ≤ 0x04) || (decide (0x08 ≤ c) && decide (c ≤ 0x0D)) || (decide (0x10 ≤ c) && decide (c ≤ 0x13)) ||
  (decide (0x18 ≤ c) && decide (c ≤ 0x1A)) || (decide (0x20 ≤ c) && decide (c ≤ 0x2C)) ||
  (decide (0x30 ≤ c) && decide (c ≤ 0x31)) || (decide (0x38 ≤ c) && decide (c ≤ 0x3B)) ||
  (decide (0x40 ≤ c) && decide (c ≤ 0x49))

/-- R306, R309: the CSRs that are read-only as a whole; a write instruction naming one is ILLEGAL. -/
def csrReadOnly (c : Nat) : Bool := decide (c ∈ [0x00, 0x01, 0x02, 0x03, 0x04, 0x30, 0x31, 0x48])

/-- R37, R39, R62, R65: a kind-01 payload that no following instruction can make legal is ILLEGAL: the
mask names a port, rm is 5 or 6, bits [1:0] are not zero, or an infinity option stands without a
precision. Such a word is refused in decoding, and is what TVAL names even where its successor is ILLEGAL too: the spec does not say which word
that is (DESIGN CHOICE, log entry 63). -/
def modVfOk (p : BitVec 24) : Bool :=
  decide ((p.extractLsb' 18 6).toNat < 60) && decide (p.extractLsb' 14 3 ≠ 5) && decide (p.extractLsb' 14 3 ≠ 6) &&
  decide (p.extractLsb' 0 2 = 0) && (decide (p.extractLsb' 4 3 ≠ 0) || !p.getLsbD 2)

/-- R65: a kind-10 payload has bits [2:0] zero and no strict bit without its handle bit. -/
def modInvOk (p : BitVec 24) : Bool :=
  decide (p.extractLsb' 0 3 = 0) && decide (p.extractLsb' 8 8 &&& ~~~(p.extractLsb' 16 8) = 0)

/-- The well-formed instructions. A step that is no instruction word is well formed. -/
def Instr.wf : Instr → Bool
  | .add _ _ _ _ _ => true
  | .sub _ _ _ _ _ => true
  | .and _ _ _ _ _ => true
  | .or _ _ _ _ _ => true
  | .xor _ _ _ _ _ => true
  | .andn _ _ _ _ _ => true
  | .orn _ _ _ _ _ => true
  | .xnor _ _ _ _ _ => true
  | .sll _ _ _ _ _ => true
  | .srl _ _ _ _ _ => true
  | .sra _ _ _ _ _ => true
  | .rol _ _ _ _ _ => true
  | .ror _ _ _ _ _ => true
  | .slt _ _ _ _ _ => true
  | .sltn _ _ _ _ _ => true
  | .seq _ _ _ _ _ => true
  | .sne _ _ _ _ _ => true
  | .min _ _ _ _ _ => true
  | .max _ _ _ _ _ => true
  | .minn _ _ _ _ _ => true
  | .maxn _ _ _ _ _ => true
  | .mul _ _ _ _ _ => true
  | .mulh _ _ _ _ _ => true
  | .mulhn _ _ _ _ _ => true
  | .mulhsn _ _ _ _ _ => true
  | .div _ _ _ _ _ => true
  | .divn _ _ _ _ _ => true
  | .rem _ _ _ _ _ => true
  | .remn _ _ _ _ _ => true
  | .clz _ _ _ _ => true
  | .ctz _ _ _ _ => true
  | .ffs _ _ _ _ => true
  | .popc _ _ _ _ => true
  | .csel d _ _ _ _ => decide (d.toNat < 60)
  | .brev _ _ _ => true
  | .bswap _ _ _ => true
  | .padd _ _ _ _ _ _ => true
  | .psub _ _ _ _ _ _ => true
  | .addi _ _ _ _ => true
  | .andi _ _ _ _ => true
  | .ori _ _ _ _ => true
  | .xori _ _ _ _ => true
  | .slti _ _ _ _ => true
  | .sltni _ _ _ _ => true
  | .slli _ _ _ _ => true
  | .srli _ _ _ _ => true
  | .srai _ _ _ _ => true
  | .rori _ _ _ _ => true
  | .exti _ _ _ p l => decide (p.toNat + l.toNat + 1 ≤ 64)
  | .insi d _ _ p l => decide (p.toNat + l.toNat + 1 ≤ 64) && decide (d.toNat < 60)
  | .lea _ _ _ _ _ s => decide (s.toNat ≤ 4)
  | .leaA _ _ _ _ _ => true
  | .leaW _ _ _ _ _ => true
  | .leaC _ _ _ _ _ => true
  | .beq _ _ _ _ _ => true
  | .bne _ _ _ _ _ => true
  | .blt _ _ _ _ _ => true
  | .bge _ _ _ _ _ => true
  | .bltn _ _ _ _ _ => true
  | .bgen _ _ _ _ _ => true
  | .jal _ _ => true
  | .jalr _ _ _ _ => true
  | .follow _ _ => true
  | .lead => true
  | .split => true
  | .tend => true
  | .yield => true
  | .sleep _ _ => true
  | .sleepuntil _ _ => true
  | .tself _ => true
  | .tselfF _ => true
  | .chblk _ _ _ _ => true
  | .chunb _ _ _ _ => true
  | .ldl _ _ _ x w _ => decide (x ≠ 3) && decide (w ≠ 7)
  | .stl _ _ _ x w _ => decide (x.toNat < 2) && decide (w.toNat < 4)
  | .ldg d _ _ w _ => decide (w ≠ 7) && notPort d
  | .stg _ _ _ w _ => decide (w.toNat < 4)
  | .ldx d _ _ _ _ w => decide (w ≠ 7) && notPort d
  | .stx _ _ _ _ _ _ => true
  | .ldsync d _ _ x _ => decide (x ≠ 3) || notPort d
  | .ldfe d _ _ x _ => decide (x ≠ 3) || notPort d
  | .stfull _ _ _ x _ => decide (x ≠ 2)
  | .clrfe _ _ x _ => decide (x ≠ 2)
  | .amoAdd d _ _ _ _ _ => notPort d
  | .amoSwap d _ _ _ _ _ => notPort d
  | .amoCas d _ b _ _ _ => notPort d && groupOk b 2
  | .amoMin d _ _ _ _ _ => notPort d
  | .amoMax d _ _ _ _ _ => notPort d
  | .amoMinn d _ _ _ _ _ => notPort d
  | .amoMaxn d _ _ _ _ _ => notPort d
  | .amoAnd d _ _ _ _ _ => notPort d
  | .amoOr d _ _ _ _ _ => notPort d
  | .amoXor d _ _ _ _ _ => notPort d
  | .amoFaddF d _ _ _ _ _ => notPort d
  | .amoFaddD d _ _ _ _ _ => notPort d
  | .amoAmerge d _ b _ _ _ => decide (d ≠ 0) && groupOk d 2 && groupOk b 2
  | .acqS _ _ => true
  | .acqX _ _ => true
  | .rel _ _ => true
  | .handover _ _ _ _ => true
  | .hgbind _ _ _ _ => true
  | .fenceCtx => true
  | .fencePlot => true
  | .fenceField => true
  | .fencePkg => true
  | .fenceSys => true
  | .bar d _ _ => notPort d
  | .pput d _ _ _ _ => notPort d
  | .ptake d _ _ => decide (d ≠ 0) && groupOk d 2
  | .ptaken d _ _ => decide (d ≠ 0) && groupOk d 2
  | .ppeek d _ _ => notPort d
  | .pstat d _ _ => notPort d
  | .pcfg _ _ _ _ => true
  | .invoke _ _ n _ _ => decide (n.toNat ≤ 8)
  | .await d _ _ => notPort d
  | .awaitb d _ b _ => notPort d && notPort b
  | .resolve _ _ => true
  | .resolveref _ _ => true
  | .breakP _ _ => true
  | .hstat d _ _ => notPort d
  | .send _ n _ => decide (n.toNat ≤ 8)
  | .recv d _ _ => notPort d
  | .cpy _ a => decide (a ≠ 0) && groupOk a 4
  | .cpyE _ a _ _ => decide (a ≠ 0) && groupOk a 4
  | .coll _ a => decide (a ≠ 0) && groupOk a 4
  | .collw _ _ _ => true
  | .puts _ a => decide (a ≠ 0) && groupOk a 5
  | .get _ a => decide (a ≠ 0) && groupOk a 3
  | .vldRow _ _ _ _ _ => true
  | .vldCol _ _ s _ _ _ => decide (s.toNat < 2)
  | .vstRow _ _ s _ _ => decide (s ≠ 2)
  | .vstCol _ _ s _ _ _ => decide (s.toNat < 2)
  | .vaddInt _ _ _ _ _ _ => true
  | .vsubInt _ _ _ _ _ _ => true
  | .vmulInt _ _ _ _ _ _ => true
  | .vmulh _ _ _ _ _ _ => true
  | .vminInt _ _ _ _ _ _ => true
  | .vmaxInt _ _ _ _ _ _ => true
  | .vabsInt _ _ _ _ => true
  | .vnegInt _ _ _ _ => true
  | .vavg _ _ _ _ _ _ => true
  | .vabsd _ _ _ _ _ _ => true
  | .vmacc _ _ _ _ _ _ => true
  | .vdivInt _ _ _ _ _ _ => true
  | .vrem _ _ _ _ _ _ => true
  | .vclz _ _ _ _ => true
  | .vpopc _ _ _ _ => true
  | .vaddFloat _ _ _ y _ _ => floatType y
  | .vsubFloat _ _ _ y _ _ => floatType y
  | .vmulFloat _ _ _ y _ _ => floatType y
  | .vmulz _ _ _ y _ _ => floatType y
  | .vdivFloat _ _ _ y _ _ => floatType y
  | .vminFloat _ _ _ y _ _ => floatType y
  | .vmaxFloat _ _ _ y _ _ => floatType y
  | .vabsFloat _ _ y _ => floatType y
  | .vnegFloat _ _ y _ => floatType y
  | .vfma _ _ _ y _ _ => floatType y
  | .vfms _ _ _ y _ _ => floatType y
  | .vfnma _ _ _ y _ _ => floatType y
  | .vsqrt _ _ y _ => floatType y
  | .vfmaz _ _ _ y _ _ => floatType y
  | .vceq _ _ _ y _ _ => anyType y
  | .vcne _ _ _ y _ _ => anyType y
  | .vclt _ _ _ y _ _ => anyType y
  | .vcle _ _ _ y _ _ => anyType y
  | .vcun _ _ _ y _ _ => floatType y
  | .vand _ _ _ _ _ _ => true
  | .vor _ _ _ _ _ _ => true
  | .vxor _ _ _ _ _ _ => true
  | .vandn _ _ _ _ _ _ => true
  | .vnot _ _ _ _ => true
  | .vsll _ _ _ _ _ _ => true
  | .vsrl _ _ _ _ _ _ => true
  | .vsra _ _ _ _ _ _ => true
  | .vcvt _ _ p y _ q s => cvtOk y s (p.toNat * 4 + q.toNat)
  | .vperm _ _ _ y _ _ => anyType y
  | .vrev _ _ y _ => anyType y
  | .vzipl _ _ _ y _ _ => anyType y
  | .vziph _ _ _ y _ _ => anyType y
  | .vuzpe _ _ _ y _ _ => anyType y
  | .vuzpo _ _ _ y _ _ => anyType y
  | .vmov _ _ y _ => anyType y
  | .vidx _ _ => true
  | .vbcast _ _ y _ => anyType y
  | .vextr _ _ y _ => anyType y
  | .vmskb _ _ y _ => anyType y
  | .vrcp _ _ _ _ => true
  | .vrsqrt _ _ _ _ => true
  | .vexp2 _ _ _ _ => true
  | .vlog2 _ _ _ _ => true
  | .vexp _ _ _ _ => true
  | .vtanh _ _ _ _ => true
  | .vsigm _ _ _ _ => true
  | .vrand _ _ => true
  | .supd d _ y _ => sReg d && statType y
  | .supdw d _ _ y _ _ => sReg d && statType y
  | .smrg d a b _ _ => sReg d && sReg a && sReg b
  | .sclr d => sReg d
  | .sputLo d _ _ => sReg d
  | .sputHi d _ _ => sReg d
  | .sgetLo _ a _ => sReg a
  | .sgetHi _ a _ => sReg a
  | .sdrain _ a _ _ => sReg a
  | .snorm _ _ b y _ _ => sReg b && statType y
  | .snormZ _ _ b y _ _ => sReg b && statType y
  | .supdRow d _ s y _ => sReg d && decide (s ≠ 3) && statType y
  | .supdCol d _ s y _ => sReg d && decide (s.toNat < 2) && statType y
  | .mma a b _ _ => groupOk a 2 && groupOk b 2
  | .mmaG a b _ _ => groupOk a 2 && groupOk b 2
  | .mmas a b _ _ => groupOk a 2 && groupOk b 2
  | .mcfg _ => true
  | .mcfgD _ => true
  | .mzero _ => true
  | .mdrain _ b => groupOk b 2
  | .mdrainZ _ b => groupOk b 2
  | .mdrainV _ _ => true
  | .mscale d _ b => groupOk d 2 && groupOk b 2
  | .mscaleZ d _ b => groupOk d 2 && groupOk b 2
  | .mcomp _ a b => groupOk a 2 && groupOk b 2
  | .csrr _ c => csrKnown c.toNat
  | .csrw _ _ _ c => csrKnown c.toNat && !csrReadOnly c.toNat
  | .csrs _ _ _ c => csrKnown c.toNat && !csrReadOnly c.toNat
  | .csrc _ _ _ c => csrKnown c.toNat && !csrReadOnly c.toNat
  | .tret => true
  | .trap _ _ => true
  | .brk _ => true
  | .tfault => true
  | .iswr a _ => groupOk a 2
  | .tlbinv _ _ => true
  | .tlbinvAll => true
  | .objhome a _ => groupOk a 2
  | .modImm _ => true
  | .modVf p => modVfOk p
  | .modInv p => modInvOk p
  | .modHint _ => true
  | .multicycleResult _ _ _ => true
  | .longLatencyResponse _ => true
  | .heldAccessResponse _ => true
  | .portWordTransfer _ _ => true
  | .translationComplete _ _ => true
  | .engineGrant _ => true
  | .invocationArrival _ => true
  | .rawMessageArrival _ => true
  | .agentListAppend _ => true
  | .agentReturn _ _ => true
  | .directoryForward _ => true
  | .taskStart _ => true
  | .contextFree _ _ => true
  | .spill _ => true
  | .spillComplete _ => true
  | .restore _ => true
  | .floorTick _ => true
  | .sleepWake _ _ => true
  | .quantumEnd _ => true
  | .quantumApply _ => true
  | .followJoin _ => true
  | .furrowTimeoutSplit _ _ => true
  | .settlementArrival _ => true
  | .recordQueueEntry _ _ => true
  | .acceptanceNotice _ => true
  | .chainRegistration _ => true
  | .chainCollapse _ => true
  | .awaitRequest _ => true
  | .awaitAnswer _ => true
  | .hstatRequest _ => true
  | .recordFree _ _ => true
  | .remotePortAccess _ => true
  | .parkedRequestServe _ => true
  | .requestResend _ => true
  | .baseDieAccess _ => true
  | .amoServe _ => true
  | .headgateRequest _ => true
  | .headgateGrant _ => true
  | .headgateRelease _ => true
  | .handoverGrant _ => true
  | .hgbindChange _ => true
  | .barrierArrival _ => true
  | .barrierRelease _ _ => true
  | .weirPut _ => true
  | .putRedirect _ => true
  | .announcement _ => true
  | .announcementAck _ => true
  | .weirTake _ => true
  | .weirPeek _ => true
  | .weirStat _ => true
  | .weirCfg _ => true
  | .weirSummary _ _ => true
  | .summaryArrival _ => true
  | .moveArrival _ => true
  | .pull _ => true
  | .pullAnswer _ => true
  | .emptinessCollect _ => true
  | .collectAnswer _ => true
  | .elementOverdue _ _ => true
  | .flumeAccept _ => true
  | .copyPiece _ _ => true
  | .copyComplete _ => true
  | .copyLate _ _ _ => true
  | .copyFailed _ => true
  | .putsSignal _ => true
  | .collRequest _ => true
  | .collAccept _ => true
  | .collwRequest _ => true
  | .chunkArrival _ => true
  | .chunkTakeup _ => true
  | .commBreakNotice _ => true
  | .lintilData _ => true
  | .lintilAck _ => true
  | .lintilNack _ => true
  | .lintilOpen _ => true
  | .lintilOpenAck _ => true
  | .lintilClose _ => true
  | .pauseFrameReceive _ => true
  | .ackTimer _ => true
  | .retransmitTimeout _ => true
  | .connectionStateFetch _ => true
  | .thresholdWindowReset _ _ => true
  | .watchdog _ _ => true
  | .scrub _ => true
  | .squareRebuildComplete _ _ => true
  | .ptrootWrite _ _ => true
  | .objentWrite _ _ _ => true
  | .chentWrite _ _ _ => true
  | .cisternWrite _ _ => true
  | .sqstatWrite _ _ => true
  | .debugHalt _ => true
  | .debugResume _ => true
  | .debugDeliver _ => true
  | .debugStep _ => true
  | .debugRegRead _ => true
  | .debugRegWrite _ => true
  | .debugCsrRead _ => true
  | .debugCsrWrite _ => true
  | .debugBufferRead _ => true
  | .debugBufferWrite _ => true
  | .debugSnapshot _ => true
  | .debugIstoreWrite _ => true
  | .debugTemplateWrite _ => true
  | .hostWindowRead _ => true
  | .hostWindowWrite _ => true
  | .hostInvoke _ => true
  | .release _ => true
  | .partCreate => true
  | .partDestroy => true
  | .partDestroyTimeout => true
  | .partSetdet => true
  | .partSetcont => true
  | .commSet => true
  | .windowMap => true
  | .imageLoad => true
  | .resync => true
  | .portCfg => true
  | .powerCap => true
  | .evqSet => true
  | .pkgId => true
  | .getVersion _ => true
  | .getCapabilities _ => true
  | .negotiateAlgorithms _ => true
  | .getDigests _ => true
  | .getCertificate _ => true
  | .challenge _ => true
  | .getMeasurements _ => true
  | .powerOn => true
  | .startupStageComplete => true
  | .cxlLinkUp => true
  | .retentionEnter _ => true
  | .paritySweepComplete _ => true
  | .throttleChange _ => true
  | .ill _ => true
  | .hostRequest _ => true
  | .cxlCompletion _ => true
  | .channelBlockRequest _ => true
  | .tlbInvalidate _ => true
  | .directoryMapUpdate _ => true
  | .lintilUnknownKind _ => true

end Sys2Proof
end

