-- ==== Sys2Proof/Decode.lean ====
section
/-!
DEFINITION. The decoder and the encoder, both from the formats of 03 R55 (and 06 R119, R125, R127;
07 R152; 08 R169) and the minor codes of each chapter as spec/opcode_table.json lists them. Decoding is
strict (R70): a word that matches no row, or whose fields a chapter calls ILLEGAL, is rejected by name.
-/

namespace Sys2Proof

/-- The `n` bits of `w` from bit `lo` on, as a number. -/
def fld (w lo n : Nat) : Nat := w / 2 ^ lo % 2 ^ n

/-- One bit of `w`. -/
def flag (w lo : Nat) : Bool := fld w lo 1 == 1

/-- A fixed field of an encoding: its lowest bit, its length and the value it must hold. -/
structure Fixed where
  lo : Nat
  len : Nat
  val : Nat
  deriving DecidableEq, Repr

/-- A row of the opcode table: its fixed fields, and the instruction its operand fields give. -/
structure Row where
  fixed : List Fixed
  build : Nat → Instr

/-- A word has a row's fixed fields. -/
def Row.fits (r : Row) (w : Nat) : Bool := r.fixed.all fun f => fld w f.lo f.len == f.val

/-- R76: register to register (major 0x01). -/
def rowsAlu : List Row := [
  ⟨[⟨26, 6, 1⟩, ⟨2, 4, 0⟩, ⟨0, 2, 0⟩], fun w => .add (.ofNat 6 (fld w 20 6)) (.ofNat 6 (fld w 14 6)) (.ofNat 6 (fld w 8 6)) (flag w 7) (flag w 6)⟩,
  ⟨[⟨26, 6, 1⟩, ⟨2, 4, 0⟩, ⟨0, 2, 1⟩], fun w => .sub (.ofNat 6 (fld w 20 6)) (.ofNat 6 (fld w 14 6)) (.ofNat 6 (fld w 8 6)) (flag w 7) (flag w 6)⟩,
  ⟨[⟨26, 6, 1⟩, ⟨2, 4, 0⟩, ⟨0, 2, 2⟩], fun w => .and (.ofNat 6 (fld w 20 6)) (.ofNat 6 (fld w 14 6)) (.ofNat 6 (fld w 8 6)) (flag w 7) (flag w 6)⟩,
  ⟨[⟨26, 6, 1⟩, ⟨2, 4, 0⟩, ⟨0, 2, 3⟩], fun w => .or (.ofNat 6 (fld w 20 6)) (.ofNat 6 (fld w 14 6)) (.ofNat 6 (fld w 8 6)) (flag w 7) (flag w 6)⟩,
  ⟨[⟨26, 6, 1⟩, ⟨2, 4, 1⟩, ⟨0, 2, 0⟩], fun w => .xor (.ofNat 6 (fld w 20 6)) (.ofNat 6 (fld w 14 6)) (.ofNat 6 (fld w 8 6)) (flag w 7) (flag w 6)⟩,
  ⟨[⟨26, 6, 1⟩, ⟨2, 4, 1⟩, ⟨0, 2, 1⟩], fun w => .andn (.ofNat 6 (fld w 20 6)) (.ofNat 6 (fld w 14 6)) (.ofNat 6 (fld w 8 6)) (flag w 7) (flag w 6)⟩,
  ⟨[⟨26, 6, 1⟩, ⟨2, 4, 1⟩, ⟨0, 2, 2⟩], fun w => .orn (.ofNat 6 (fld w 20 6)) (.ofNat 6 (fld w 14 6)) (.ofNat 6 (fld w 8 6)) (flag w 7) (flag w 6)⟩,
  ⟨[⟨26, 6, 1⟩, ⟨2, 4, 1⟩, ⟨0, 2, 3⟩], fun w => .xnor (.ofNat 6 (fld w 20 6)) (.ofNat 6 (fld w 14 6)) (.ofNat 6 (fld w 8 6)) (flag w 7) (flag w 6)⟩,
  ⟨[⟨26, 6, 1⟩, ⟨2, 4, 2⟩, ⟨0, 2, 0⟩], fun w => .sll (.ofNat 6 (fld w 20 6)) (.ofNat 6 (fld w 14 6)) (.ofNat 6 (fld w 8 6)) (flag w 7) (flag w 6)⟩,
  ⟨[⟨26, 6, 1⟩, ⟨2, 4, 2⟩, ⟨0, 2, 1⟩], fun w => .srl (.ofNat 6 (fld w 20 6)) (.ofNat 6 (fld w 14 6)) (.ofNat 6 (fld w 8 6)) (flag w 7) (flag w 6)⟩,
  ⟨[⟨26, 6, 1⟩, ⟨2, 4, 2⟩, ⟨0, 2, 2⟩], fun w => .sra (.ofNat 6 (fld w 20 6)) (.ofNat 6 (fld w 14 6)) (.ofNat 6 (fld w 8 6)) (flag w 7) (flag w 6)⟩,
  ⟨[⟨26, 6, 1⟩, ⟨2, 4, 2⟩, ⟨0, 2, 3⟩], fun w => .rol (.ofNat 6 (fld w 20 6)) (.ofNat 6 (fld w 14 6)) (.ofNat 6 (fld w 8 6)) (flag w 7) (flag w 6)⟩,
  ⟨[⟨26, 6, 1⟩, ⟨2, 4, 3⟩, ⟨0, 2, 0⟩], fun w => .ror (.ofNat 6 (fld w 20 6)) (.ofNat 6 (fld w 14 6)) (.ofNat 6 (fld w 8 6)) (flag w 7) (flag w 6)⟩,
  ⟨[⟨26, 6, 1⟩, ⟨2, 4, 4⟩, ⟨0, 2, 0⟩], fun w => .slt (.ofNat 6 (fld w 20 6)) (.ofNat 6 (fld w 14 6)) (.ofNat 6 (fld w 8 6)) (flag w 7) (flag w 6)⟩,
  ⟨[⟨26, 6, 1⟩, ⟨2, 4, 4⟩, ⟨0, 2, 1⟩], fun w => .sltn (.ofNat 6 (fld w 20 6)) (.ofNat 6 (fld w 14 6)) (.ofNat 6 (fld w 8 6)) (flag w 7) (flag w 6)⟩,
  ⟨[⟨26, 6, 1⟩, ⟨2, 4, 4⟩, ⟨0, 2, 2⟩], fun w => .seq (.ofNat 6 (fld w 20 6)) (.ofNat 6 (fld w 14 6)) (.ofNat 6 (fld w 8 6)) (flag w 7) (flag w 6)⟩,
  ⟨[⟨26, 6, 1⟩, ⟨2, 4, 4⟩, ⟨0, 2, 3⟩], fun w => .sne (.ofNat 6 (fld w 20 6)) (.ofNat 6 (fld w 14 6)) (.ofNat 6 (fld w 8 6)) (flag w 7) (flag w 6)⟩,
  ⟨[⟨26, 6, 1⟩, ⟨2, 4, 5⟩, ⟨0, 2, 0⟩], fun w => .min (.ofNat 6 (fld w 20 6)) (.ofNat 6 (fld w 14 6)) (.ofNat 6 (fld w 8 6)) (flag w 7) (flag w 6)⟩,
  ⟨[⟨26, 6, 1⟩, ⟨2, 4, 5⟩, ⟨0, 2, 1⟩], fun w => .max (.ofNat 6 (fld w 20 6)) (.ofNat 6 (fld w 14 6)) (.ofNat 6 (fld w 8 6)) (flag w 7) (flag w 6)⟩,
  ⟨[⟨26, 6, 1⟩, ⟨2, 4, 5⟩, ⟨0, 2, 2⟩], fun w => .minn (.ofNat 6 (fld w 20 6)) (.ofNat 6 (fld w 14 6)) (.ofNat 6 (fld w 8 6)) (flag w 7) (flag w 6)⟩,
  ⟨[⟨26, 6, 1⟩, ⟨2, 4, 5⟩, ⟨0, 2, 3⟩], fun w => .maxn (.ofNat 6 (fld w 20 6)) (.ofNat 6 (fld w 14 6)) (.ofNat 6 (fld w 8 6)) (flag w 7) (flag w 6)⟩,
  ⟨[⟨26, 6, 1⟩, ⟨2, 4, 6⟩, ⟨0, 2, 0⟩], fun w => .mul (.ofNat 6 (fld w 20 6)) (.ofNat 6 (fld w 14 6)) (.ofNat 6 (fld w 8 6)) (flag w 7) (flag w 6)⟩,
  ⟨[⟨26, 6, 1⟩, ⟨2, 4, 6⟩, ⟨0, 2, 1⟩], fun w => .mulh (.ofNat 6 (fld w 20 6)) (.ofNat 6 (fld w 14 6)) (.ofNat 6 (fld w 8 6)) (flag w 7) (flag w 6)⟩,
  ⟨[⟨26, 6, 1⟩, ⟨2, 4, 6⟩, ⟨0, 2, 2⟩], fun w => .mulhn (.ofNat 6 (fld w 20 6)) (.ofNat 6 (fld w 14 6)) (.ofNat 6 (fld w 8 6)) (flag w 7) (flag w 6)⟩,
  ⟨[⟨26, 6, 1⟩, ⟨2, 4, 6⟩, ⟨0, 2, 3⟩], fun w => .mulhsn (.ofNat 6 (fld w 20 6)) (.ofNat 6 (fld w 14 6)) (.ofNat 6 (fld w 8 6)) (flag w 7) (flag w 6)⟩,
  ⟨[⟨26, 6, 1⟩, ⟨2, 4, 7⟩, ⟨0, 2, 0⟩], fun w => .div (.ofNat 6 (fld w 20 6)) (.ofNat 6 (fld w 14 6)) (.ofNat 6 (fld w 8 6)) (flag w 7) (flag w 6)⟩,
  ⟨[⟨26, 6, 1⟩, ⟨2, 4, 7⟩, ⟨0, 2, 1⟩], fun w => .divn (.ofNat 6 (fld w 20 6)) (.ofNat 6 (fld w 14 6)) (.ofNat 6 (fld w 8 6)) (flag w 7) (flag w 6)⟩,
  ⟨[⟨26, 6, 1⟩, ⟨2, 4, 7⟩, ⟨0, 2, 2⟩], fun w => .rem (.ofNat 6 (fld w 20 6)) (.ofNat 6 (fld w 14 6)) (.ofNat 6 (fld w 8 6)) (flag w 7) (flag w 6)⟩,
  ⟨[⟨26, 6, 1⟩, ⟨2, 4, 7⟩, ⟨0, 2, 3⟩], fun w => .remn (.ofNat 6 (fld w 20 6)) (.ofNat 6 (fld w 14 6)) (.ofNat 6 (fld w 8 6)) (flag w 7) (flag w 6)⟩,
  ⟨[⟨26, 6, 1⟩, ⟨8, 6, 0⟩, ⟨6, 1, 0⟩, ⟨2, 4, 8⟩], fun w => .clz (.ofNat 6 (fld w 20 6)) (.ofNat 6 (fld w 14 6)) (flag w 7) (.ofNat 2 (fld w 0 2))⟩,
  ⟨[⟨26, 6, 1⟩, ⟨8, 6, 0⟩, ⟨6, 1, 0⟩, ⟨2, 4, 9⟩], fun w => .ctz (.ofNat 6 (fld w 20 6)) (.ofNat 6 (fld w 14 6)) (flag w 7) (.ofNat 2 (fld w 0 2))⟩,
  ⟨[⟨26, 6, 1⟩, ⟨8, 6, 0⟩, ⟨6, 1, 0⟩, ⟨2, 4, 10⟩], fun w => .ffs (.ofNat 6 (fld w 20 6)) (.ofNat 6 (fld w 14 6)) (flag w 7) (.ofNat 2 (fld w 0 2))⟩,
  ⟨[⟨26, 6, 1⟩, ⟨8, 6, 0⟩, ⟨6, 1, 0⟩, ⟨2, 4, 11⟩], fun w => .popc (.ofNat 6 (fld w 20 6)) (.ofNat 6 (fld w 14 6)) (flag w 7) (.ofNat 2 (fld w 0 2))⟩,
  ⟨[⟨26, 6, 1⟩, ⟨2, 4, 12⟩, ⟨0, 2, 0⟩], fun w => .csel (.ofNat 6 (fld w 20 6)) (.ofNat 6 (fld w 14 6)) (.ofNat 6 (fld w 8 6)) (flag w 7) (flag w 6)⟩,
  ⟨[⟨26, 6, 1⟩, ⟨8, 6, 0⟩, ⟨6, 1, 0⟩, ⟨2, 4, 12⟩, ⟨0, 2, 1⟩], fun w => .brev (.ofNat 6 (fld w 20 6)) (.ofNat 6 (fld w 14 6)) (flag w 7)⟩,
  ⟨[⟨26, 6, 1⟩, ⟨8, 6, 0⟩, ⟨6, 1, 0⟩, ⟨2, 4, 12⟩, ⟨0, 2, 2⟩], fun w => .bswap (.ofNat 6 (fld w 20 6)) (.ofNat 6 (fld w 14 6)) (flag w 7)⟩,
  ⟨[⟨26, 6, 1⟩, ⟨2, 4, 13⟩], fun w => .padd (.ofNat 6 (fld w 20 6)) (.ofNat 6 (fld w 14 6)) (.ofNat 6 (fld w 8 6)) (flag w 7) (flag w 6) (.ofNat 2 (fld w 0 2))⟩,
  ⟨[⟨26, 6, 1⟩, ⟨2, 4, 14⟩], fun w => .psub (.ofNat 6 (fld w 20 6)) (.ofNat 6 (fld w 14 6)) (.ofNat 6 (fld w 8 6)) (flag w 7) (flag w 6) (.ofNat 2 (fld w 0 2))⟩ ]

/-- R80 to R83, R85: immediates, shifts, fields and addresses (majors 0x02 to 0x09). -/
def rowsImm : List Row := [
  ⟨[⟨26, 6, 2⟩], fun w => .addi (.ofNat 6 (fld w 20 6)) (.ofNat 6 (fld w 14 6)) (flag w 13) (.ofNat 13 (fld w 0 13))⟩,
  ⟨[⟨26, 6, 3⟩], fun w => .andi (.ofNat 6 (fld w 20 6)) (.ofNat 6 (fld w 14 6)) (flag w 13) (.ofNat 13 (fld w 0 13))⟩,
  ⟨[⟨26, 6, 4⟩], fun w => .ori (.ofNat 6 (fld w 20 6)) (.ofNat 6 (fld w 14 6)) (flag w 13) (.ofNat 13 (fld w 0 13))⟩,
  ⟨[⟨26, 6, 5⟩], fun w => .xori (.ofNat 6 (fld w 20 6)) (.ofNat 6 (fld w 14 6)) (flag w 13) (.ofNat 13 (fld w 0 13))⟩,
  ⟨[⟨26, 6, 6⟩, ⟨12, 1, 0⟩], fun w => .slti (.ofNat 6 (fld w 20 6)) (.ofNat 6 (fld w 14 6)) (flag w 13) (.ofNat 12 (fld w 0 12))⟩,
  ⟨[⟨26, 6, 6⟩, ⟨12, 1, 1⟩], fun w => .sltni (.ofNat 6 (fld w 20 6)) (.ofNat 6 (fld w 14 6)) (flag w 13) (.ofNat 12 (fld w 0 12))⟩,
  ⟨[⟨26, 6, 7⟩, ⟨12, 1, 0⟩, ⟨10, 2, 0⟩, ⟨6, 4, 0⟩], fun w => .slli (.ofNat 6 (fld w 20 6)) (.ofNat 6 (fld w 14 6)) (flag w 13) (.ofNat 6 (fld w 0 6))⟩,
  ⟨[⟨26, 6, 7⟩, ⟨12, 1, 0⟩, ⟨10, 2, 1⟩, ⟨6, 4, 0⟩], fun w => .srli (.ofNat 6 (fld w 20 6)) (.ofNat 6 (fld w 14 6)) (flag w 13) (.ofNat 6 (fld w 0 6))⟩,
  ⟨[⟨26, 6, 7⟩, ⟨12, 1, 0⟩, ⟨10, 2, 2⟩, ⟨6, 4, 0⟩], fun w => .srai (.ofNat 6 (fld w 20 6)) (.ofNat 6 (fld w 14 6)) (flag w 13) (.ofNat 6 (fld w 0 6))⟩,
  ⟨[⟨26, 6, 7⟩, ⟨12, 1, 0⟩, ⟨10, 2, 3⟩, ⟨6, 4, 0⟩], fun w => .rori (.ofNat 6 (fld w 20 6)) (.ofNat 6 (fld w 14 6)) (flag w 13) (.ofNat 6 (fld w 0 6))⟩,
  ⟨[⟨26, 6, 8⟩, ⟨12, 1, 0⟩], fun w => .exti (.ofNat 6 (fld w 20 6)) (.ofNat 6 (fld w 14 6)) (flag w 13) (.ofNat 6 (fld w 6 6)) (.ofNat 6 (fld w 0 6))⟩,
  ⟨[⟨26, 6, 8⟩, ⟨12, 1, 1⟩], fun w => .insi (.ofNat 6 (fld w 20 6)) (.ofNat 6 (fld w 14 6)) (flag w 13) (.ofNat 6 (fld w 6 6)) (.ofNat 6 (fld w 0 6))⟩,
  ⟨[⟨26, 6, 9⟩, ⟨3, 3, 0⟩], fun w => .lea (.ofNat 6 (fld w 20 6)) (.ofNat 6 (fld w 14 6)) (.ofNat 6 (fld w 8 6)) (flag w 7) (flag w 6) (.ofNat 3 (fld w 0 3))⟩,
  ⟨[⟨26, 6, 9⟩, ⟨3, 3, 1⟩, ⟨0, 3, 0⟩], fun w => .leaA (.ofNat 6 (fld w 20 6)) (.ofNat 6 (fld w 14 6)) (.ofNat 6 (fld w 8 6)) (flag w 7) (flag w 6)⟩,
  ⟨[⟨26, 6, 9⟩, ⟨3, 3, 1⟩, ⟨0, 3, 1⟩], fun w => .leaW (.ofNat 6 (fld w 20 6)) (.ofNat 6 (fld w 14 6)) (.ofNat 6 (fld w 8 6)) (flag w 7) (flag w 6)⟩,
  ⟨[⟨26, 6, 9⟩, ⟨3, 3, 1⟩, ⟨0, 3, 2⟩], fun w => .leaC (.ofNat 6 (fld w 20 6)) (.ofNat 6 (fld w 14 6)) (.ofNat 6 (fld w 8 6)) (flag w 7) (flag w 6)⟩ ]

/-- R86, R87, R190: branches, calls and task control (majors 0x0A to 0x12). -/
def rowsFlow : List Row := [
  ⟨[⟨26, 6, 10⟩], fun w => .beq (.ofNat 6 (fld w 20 6)) (.ofNat 6 (fld w 14 6)) (flag w 13) (flag w 12) (.ofNat 12 (fld w 0 12))⟩,
  ⟨[⟨26, 6, 11⟩], fun w => .bne (.ofNat 6 (fld w 20 6)) (.ofNat 6 (fld w 14 6)) (flag w 13) (flag w 12) (.ofNat 12 (fld w 0 12))⟩,
  ⟨[⟨26, 6, 12⟩], fun w => .blt (.ofNat 6 (fld w 20 6)) (.ofNat 6 (fld w 14 6)) (flag w 13) (flag w 12) (.ofNat 12 (fld w 0 12))⟩,
  ⟨[⟨26, 6, 13⟩], fun w => .bge (.ofNat 6 (fld w 20 6)) (.ofNat 6 (fld w 14 6)) (flag w 13) (flag w 12) (.ofNat 12 (fld w 0 12))⟩,
  ⟨[⟨26, 6, 14⟩], fun w => .bltn (.ofNat 6 (fld w 20 6)) (.ofNat 6 (fld w 14 6)) (flag w 13) (flag w 12) (.ofNat 12 (fld w 0 12))⟩,
  ⟨[⟨26, 6, 15⟩], fun w => .bgen (.ofNat 6 (fld w 20 6)) (.ofNat 6 (fld w 14 6)) (flag w 13) (flag w 12) (.ofNat 12 (fld w 0 12))⟩,
  ⟨[⟨26, 6, 16⟩], fun w => .jal (.ofNat 6 (fld w 20 6)) (.ofNat 20 (fld w 0 20))⟩,
  ⟨[⟨26, 6, 17⟩], fun w => .jalr (.ofNat 6 (fld w 20 6)) (.ofNat 6 (fld w 14 6)) (flag w 13) (.ofNat 13 (fld w 0 13))⟩,
  ⟨[⟨26, 6, 18⟩, ⟨20, 6, 0⟩, ⟨8, 6, 0⟩, ⟨6, 1, 0⟩, ⟨0, 6, 0⟩], fun w => .follow (.ofNat 6 (fld w 14 6)) (flag w 7)⟩,
  ⟨[⟨26, 6, 18⟩, ⟨20, 6, 0⟩, ⟨14, 6, 0⟩, ⟨8, 6, 0⟩, ⟨7, 1, 0⟩, ⟨6, 1, 0⟩, ⟨0, 6, 1⟩], fun _ => .lead⟩,
  ⟨[⟨26, 6, 18⟩, ⟨20, 6, 0⟩, ⟨14, 6, 0⟩, ⟨8, 6, 0⟩, ⟨7, 1, 0⟩, ⟨6, 1, 0⟩, ⟨0, 6, 2⟩], fun _ => .split⟩,
  ⟨[⟨26, 6, 18⟩, ⟨20, 6, 0⟩, ⟨14, 6, 0⟩, ⟨8, 6, 0⟩, ⟨7, 1, 0⟩, ⟨6, 1, 0⟩, ⟨0, 6, 3⟩], fun _ => .tend⟩,
  ⟨[⟨26, 6, 18⟩, ⟨20, 6, 0⟩, ⟨14, 6, 0⟩, ⟨8, 6, 0⟩, ⟨7, 1, 0⟩, ⟨6, 1, 0⟩, ⟨0, 6, 4⟩], fun _ => .yield⟩,
  ⟨[⟨26, 6, 18⟩, ⟨20, 6, 0⟩, ⟨8, 6, 0⟩, ⟨6, 1, 0⟩, ⟨0, 6, 5⟩], fun w => .sleep (.ofNat 6 (fld w 14 6)) (flag w 7)⟩,
  ⟨[⟨26, 6, 18⟩, ⟨20, 6, 0⟩, ⟨8, 6, 0⟩, ⟨6, 1, 0⟩, ⟨0, 6, 6⟩], fun w => .sleepuntil (.ofNat 6 (fld w 14 6)) (flag w 7)⟩,
  ⟨[⟨26, 6, 18⟩, ⟨14, 6, 0⟩, ⟨8, 6, 0⟩, ⟨7, 1, 0⟩, ⟨6, 1, 0⟩, ⟨0, 6, 8⟩], fun w => .tself (.ofNat 6 (fld w 20 6))⟩,
  ⟨[⟨26, 6, 18⟩, ⟨14, 6, 0⟩, ⟨8, 6, 0⟩, ⟨7, 1, 0⟩, ⟨6, 1, 0⟩, ⟨0, 6, 9⟩], fun w => .tselfF (.ofNat 6 (fld w 20 6))⟩,
  ⟨[⟨26, 6, 18⟩, ⟨20, 6, 0⟩, ⟨0, 6, 10⟩], fun w => .chblk (.ofNat 6 (fld w 14 6)) (.ofNat 6 (fld w 8 6)) (flag w 7) (flag w 6)⟩,
  ⟨[⟨26, 6, 18⟩, ⟨20, 6, 0⟩, ⟨0, 6, 11⟩], fun w => .chunb (.ofNat 6 (fld w 14 6)) (.ofNat 6 (fld w 8 6)) (flag w 7) (flag w 6)⟩ ]

/-- R100 to R107: loads, stores and synchronising accesses (majors 0x13 to 0x18). -/
def rowsMem : List Row := [
  ⟨[⟨26, 6, 19⟩], fun w => .ldl (.ofNat 6 (fld w 20 6)) (.ofNat 6 (fld w 14 6)) (flag w 13) (.ofNat 2 (fld w 11 2)) (.ofNat 3 (fld w 8 3)) (.ofNat 8 (fld w 0 8))⟩,
  ⟨[⟨26, 6, 20⟩], fun w => .stl (.ofNat 6 (fld w 20 6)) (.ofNat 6 (fld w 14 6)) (flag w 13) (.ofNat 2 (fld w 11 2)) (.ofNat 3 (fld w 8 3)) (.ofNat 8 (fld w 0 8))⟩,
  ⟨[⟨26, 6, 21⟩, ⟨11, 2, 0⟩], fun w => .ldg (.ofNat 6 (fld w 20 6)) (.ofNat 6 (fld w 14 6)) (flag w 13) (.ofNat 3 (fld w 8 3)) (.ofNat 8 (fld w 0 8))⟩,
  ⟨[⟨26, 6, 22⟩, ⟨11, 2, 0⟩], fun w => .stg (.ofNat 6 (fld w 20 6)) (.ofNat 6 (fld w 14 6)) (flag w 13) (.ofNat 3 (fld w 8 3)) (.ofNat 8 (fld w 0 8))⟩,
  ⟨[⟨26, 6, 23⟩, ⟨3, 3, 0⟩], fun w => .ldx (.ofNat 6 (fld w 20 6)) (.ofNat 6 (fld w 14 6)) (.ofNat 6 (fld w 8 6)) (flag w 7) (flag w 6) (.ofNat 3 (fld w 0 3))⟩,
  ⟨[⟨26, 6, 23⟩, ⟨3, 3, 1⟩, ⟨2, 1, 0⟩], fun w => .stx (.ofNat 6 (fld w 20 6)) (.ofNat 6 (fld w 14 6)) (.ofNat 6 (fld w 8 6)) (flag w 7) (flag w 6) (.ofNat 2 (fld w 0 2))⟩,
  ⟨[⟨26, 6, 24⟩, ⟨8, 3, 0⟩], fun w => .ldsync (.ofNat 6 (fld w 20 6)) (.ofNat 6 (fld w 14 6)) (flag w 13) (.ofNat 2 (fld w 11 2)) (.ofNat 8 (fld w 0 8))⟩,
  ⟨[⟨26, 6, 24⟩, ⟨8, 3, 1⟩], fun w => .ldfe (.ofNat 6 (fld w 20 6)) (.ofNat 6 (fld w 14 6)) (flag w 13) (.ofNat 2 (fld w 11 2)) (.ofNat 8 (fld w 0 8))⟩,
  ⟨[⟨26, 6, 24⟩, ⟨8, 3, 2⟩], fun w => .stfull (.ofNat 6 (fld w 20 6)) (.ofNat 6 (fld w 14 6)) (flag w 13) (.ofNat 2 (fld w 11 2)) (.ofNat 8 (fld w 0 8))⟩,
  ⟨[⟨26, 6, 24⟩, ⟨20, 6, 0⟩, ⟨8, 3, 3⟩], fun w => .clrfe (.ofNat 6 (fld w 14 6)) (flag w 13) (.ofNat 2 (fld w 11 2)) (.ofNat 8 (fld w 0 8))⟩ ]

/-- R249: atomics (major 0x19). -/
def rowsAmo : List Row := [
  ⟨[⟨26, 6, 25⟩, ⟨2, 4, 0⟩], fun w => .amoAdd (.ofNat 6 (fld w 20 6)) (.ofNat 6 (fld w 14 6)) (.ofNat 6 (fld w 8 6)) (flag w 7) (flag w 6) (.ofNat 2 (fld w 0 2))⟩,
  ⟨[⟨26, 6, 25⟩, ⟨2, 4, 1⟩], fun w => .amoSwap (.ofNat 6 (fld w 20 6)) (.ofNat 6 (fld w 14 6)) (.ofNat 6 (fld w 8 6)) (flag w 7) (flag w 6) (.ofNat 2 (fld w 0 2))⟩,
  ⟨[⟨26, 6, 25⟩, ⟨2, 4, 2⟩], fun w => .amoCas (.ofNat 6 (fld w 20 6)) (.ofNat 6 (fld w 14 6)) (.ofNat 6 (fld w 8 6)) (flag w 7) (flag w 6) (.ofNat 2 (fld w 0 2))⟩,
  ⟨[⟨26, 6, 25⟩, ⟨2, 4, 3⟩], fun w => .amoMin (.ofNat 6 (fld w 20 6)) (.ofNat 6 (fld w 14 6)) (.ofNat 6 (fld w 8 6)) (flag w 7) (flag w 6) (.ofNat 2 (fld w 0 2))⟩,
  ⟨[⟨26, 6, 25⟩, ⟨2, 4, 4⟩], fun w => .amoMax (.ofNat 6 (fld w 20 6)) (.ofNat 6 (fld w 14 6)) (.ofNat 6 (fld w 8 6)) (flag w 7) (flag w 6) (.ofNat 2 (fld w 0 2))⟩,
  ⟨[⟨26, 6, 25⟩, ⟨2, 4, 5⟩], fun w => .amoMinn (.ofNat 6 (fld w 20 6)) (.ofNat 6 (fld w 14 6)) (.ofNat 6 (fld w 8 6)) (flag w 7) (flag w 6) (.ofNat 2 (fld w 0 2))⟩,
  ⟨[⟨26, 6, 25⟩, ⟨2, 4, 6⟩], fun w => .amoMaxn (.ofNat 6 (fld w 20 6)) (.ofNat 6 (fld w 14 6)) (.ofNat 6 (fld w 8 6)) (flag w 7) (flag w 6) (.ofNat 2 (fld w 0 2))⟩,
  ⟨[⟨26, 6, 25⟩, ⟨2, 4, 7⟩], fun w => .amoAnd (.ofNat 6 (fld w 20 6)) (.ofNat 6 (fld w 14 6)) (.ofNat 6 (fld w 8 6)) (flag w 7) (flag w 6) (.ofNat 2 (fld w 0 2))⟩,
  ⟨[⟨26, 6, 25⟩, ⟨2, 4, 8⟩], fun w => .amoOr (.ofNat 6 (fld w 20 6)) (.ofNat 6 (fld w 14 6)) (.ofNat 6 (fld w 8 6)) (flag w 7) (flag w 6) (.ofNat 2 (fld w 0 2))⟩,
  ⟨[⟨26, 6, 25⟩, ⟨2, 4, 9⟩], fun w => .amoXor (.ofNat 6 (fld w 20 6)) (.ofNat 6 (fld w 14 6)) (.ofNat 6 (fld w 8 6)) (flag w 7) (flag w 6) (.ofNat 2 (fld w 0 2))⟩,
  ⟨[⟨26, 6, 25⟩, ⟨2, 4, 10⟩], fun w => .amoFaddF (.ofNat 6 (fld w 20 6)) (.ofNat 6 (fld w 14 6)) (.ofNat 6 (fld w 8 6)) (flag w 7) (flag w 6) (.ofNat 2 (fld w 0 2))⟩,
  ⟨[⟨26, 6, 25⟩, ⟨2, 4, 11⟩], fun w => .amoFaddD (.ofNat 6 (fld w 20 6)) (.ofNat 6 (fld w 14 6)) (.ofNat 6 (fld w 8 6)) (flag w 7) (flag w 6) (.ofNat 2 (fld w 0 2))⟩,
  ⟨[⟨26, 6, 25⟩, ⟨2, 4, 12⟩], fun w => .amoAmerge (.ofNat 6 (fld w 20 6)) (.ofNat 6 (fld w 14 6)) (.ofNat 6 (fld w 8 6)) (flag w 7) (flag w 6) (.ofNat 2 (fld w 0 2))⟩ ]

/-- R237, R260: gates and pools (majors 0x1A, 0x1B). -/
def rowsGate : List Row := [
  ⟨[⟨26, 6, 26⟩, ⟨20, 6, 0⟩, ⟨8, 6, 0⟩, ⟨6, 1, 0⟩, ⟨0, 6, 0⟩], fun w => .acqS (.ofNat 6 (fld w 14 6)) (flag w 7)⟩,
  ⟨[⟨26, 6, 26⟩, ⟨20, 6, 0⟩, ⟨8, 6, 0⟩, ⟨6, 1, 0⟩, ⟨0, 6, 1⟩], fun w => .acqX (.ofNat 6 (fld w 14 6)) (flag w 7)⟩,
  ⟨[⟨26, 6, 26⟩, ⟨20, 6, 0⟩, ⟨8, 6, 0⟩, ⟨6, 1, 0⟩, ⟨0, 6, 2⟩], fun w => .rel (.ofNat 6 (fld w 14 6)) (flag w 7)⟩,
  ⟨[⟨26, 6, 26⟩, ⟨20, 6, 0⟩, ⟨0, 6, 3⟩], fun w => .handover (.ofNat 6 (fld w 14 6)) (.ofNat 6 (fld w 8 6)) (flag w 7) (flag w 6)⟩,
  ⟨[⟨26, 6, 26⟩, ⟨20, 6, 0⟩, ⟨0, 6, 4⟩], fun w => .hgbind (.ofNat 6 (fld w 14 6)) (.ofNat 6 (fld w 8 6)) (flag w 7) (flag w 6)⟩,
  ⟨[⟨26, 6, 26⟩, ⟨20, 6, 0⟩, ⟨14, 6, 0⟩, ⟨8, 6, 0⟩, ⟨7, 1, 0⟩, ⟨6, 1, 0⟩, ⟨0, 6, 8⟩], fun _ => .fenceCtx⟩,
  ⟨[⟨26, 6, 26⟩, ⟨20, 6, 0⟩, ⟨14, 6, 0⟩, ⟨8, 6, 0⟩, ⟨7, 1, 0⟩, ⟨6, 1, 0⟩, ⟨0, 6, 9⟩], fun _ => .fencePlot⟩,
  ⟨[⟨26, 6, 26⟩, ⟨20, 6, 0⟩, ⟨14, 6, 0⟩, ⟨8, 6, 0⟩, ⟨7, 1, 0⟩, ⟨6, 1, 0⟩, ⟨0, 6, 10⟩], fun _ => .fenceField⟩,
  ⟨[⟨26, 6, 26⟩, ⟨20, 6, 0⟩, ⟨14, 6, 0⟩, ⟨8, 6, 0⟩, ⟨7, 1, 0⟩, ⟨6, 1, 0⟩, ⟨0, 6, 11⟩], fun _ => .fencePkg⟩,
  ⟨[⟨26, 6, 26⟩, ⟨20, 6, 0⟩, ⟨14, 6, 0⟩, ⟨8, 6, 0⟩, ⟨7, 1, 0⟩, ⟨6, 1, 0⟩, ⟨0, 6, 12⟩], fun _ => .fenceSys⟩,
  ⟨[⟨26, 6, 26⟩, ⟨8, 6, 0⟩, ⟨6, 1, 0⟩, ⟨0, 6, 16⟩], fun w => .bar (.ofNat 6 (fld w 20 6)) (.ofNat 6 (fld w 14 6)) (flag w 7)⟩,
  ⟨[⟨26, 6, 27⟩, ⟨0, 6, 0⟩], fun w => .pput (.ofNat 6 (fld w 20 6)) (.ofNat 6 (fld w 14 6)) (.ofNat 6 (fld w 8 6)) (flag w 7) (flag w 6)⟩,
  ⟨[⟨26, 6, 27⟩, ⟨8, 6, 0⟩, ⟨6, 1, 0⟩, ⟨0, 6, 1⟩], fun w => .ptake (.ofNat 6 (fld w 20 6)) (.ofNat 6 (fld w 14 6)) (flag w 7)⟩,
  ⟨[⟨26, 6, 27⟩, ⟨8, 6, 0⟩, ⟨6, 1, 0⟩, ⟨0, 6, 2⟩], fun w => .ptaken (.ofNat 6 (fld w 20 6)) (.ofNat 6 (fld w 14 6)) (flag w 7)⟩,
  ⟨[⟨26, 6, 27⟩, ⟨8, 6, 0⟩, ⟨6, 1, 0⟩, ⟨0, 6, 3⟩], fun w => .ppeek (.ofNat 6 (fld w 20 6)) (.ofNat 6 (fld w 14 6)) (flag w 7)⟩,
  ⟨[⟨26, 6, 27⟩, ⟨8, 6, 0⟩, ⟨6, 1, 0⟩, ⟨0, 6, 4⟩], fun w => .pstat (.ofNat 6 (fld w 20 6)) (.ofNat 6 (fld w 14 6)) (flag w 7)⟩,
  ⟨[⟨26, 6, 27⟩, ⟨20, 6, 0⟩, ⟨0, 6, 8⟩], fun w => .pcfg (.ofNat 6 (fld w 14 6)) (.ofNat 6 (fld w 8 6)) (flag w 7) (flag w 6)⟩ ]

/-- R210, R222, R278, R285, R289: invocations, handles, copies, collectives (majors 0x1C to 0x1F). -/
def rowsHandle : List Row := [
  ⟨[⟨26, 6, 28⟩, ⟨6, 1, 0⟩], fun w => .invoke (.ofNat 6 (fld w 20 6)) (.ofNat 6 (fld w 14 6)) (.ofNat 6 (fld w 8 6)) (flag w 7) (.ofNat 6 (fld w 0 6))⟩,
  ⟨[⟨26, 6, 29⟩, ⟨8, 6, 0⟩, ⟨6, 1, 0⟩, ⟨0, 6, 0⟩], fun w => .await (.ofNat 6 (fld w 20 6)) (.ofNat 6 (fld w 14 6)) (flag w 7)⟩,
  ⟨[⟨26, 6, 29⟩, ⟨6, 1, 0⟩, ⟨0, 6, 1⟩], fun w => .awaitb (.ofNat 6 (fld w 20 6)) (.ofNat 6 (fld w 14 6)) (.ofNat 6 (fld w 8 6)) (flag w 7)⟩,
  ⟨[⟨26, 6, 29⟩, ⟨20, 6, 0⟩, ⟨8, 6, 0⟩, ⟨6, 1, 0⟩, ⟨0, 6, 2⟩], fun w => .resolve (.ofNat 6 (fld w 14 6)) (flag w 7)⟩,
  ⟨[⟨26, 6, 29⟩, ⟨20, 6, 0⟩, ⟨8, 6, 0⟩, ⟨6, 1, 0⟩, ⟨0, 6, 3⟩], fun w => .resolveref (.ofNat 6 (fld w 14 6)) (flag w 7)⟩,
  ⟨[⟨26, 6, 29⟩, ⟨20, 6, 0⟩, ⟨8, 6, 0⟩, ⟨6, 1, 0⟩, ⟨0, 6, 4⟩], fun w => .breakP (.ofNat 6 (fld w 14 6)) (flag w 7)⟩,
  ⟨[⟨26, 6, 29⟩, ⟨8, 6, 0⟩, ⟨6, 1, 0⟩, ⟨0, 6, 5⟩], fun w => .hstat (.ofNat 6 (fld w 20 6)) (.ofNat 6 (fld w 14 6)) (flag w 7)⟩,
  ⟨[⟨26, 6, 29⟩, ⟨20, 6, 0⟩, ⟨6, 1, 0⟩, ⟨0, 6, 6⟩], fun w => .send (.ofNat 6 (fld w 14 6)) (.ofNat 6 (fld w 8 6)) (flag w 7)⟩,
  ⟨[⟨26, 6, 29⟩, ⟨8, 6, 0⟩, ⟨6, 1, 0⟩, ⟨0, 6, 7⟩], fun w => .recv (.ofNat 6 (fld w 20 6)) (.ofNat 6 (fld w 14 6)) (flag w 7)⟩,
  ⟨[⟨26, 6, 30⟩, ⟨8, 6, 0⟩, ⟨7, 1, 0⟩, ⟨6, 1, 0⟩, ⟨0, 6, 0⟩], fun w => .cpy (.ofNat 6 (fld w 20 6)) (.ofNat 6 (fld w 14 6))⟩,
  ⟨[⟨26, 6, 30⟩, ⟨7, 1, 0⟩, ⟨0, 6, 1⟩], fun w => .cpyE (.ofNat 6 (fld w 20 6)) (.ofNat 6 (fld w 14 6)) (.ofNat 6 (fld w 8 6)) (flag w 6)⟩,
  ⟨[⟨26, 6, 31⟩, ⟨8, 6, 0⟩, ⟨7, 1, 0⟩, ⟨6, 1, 0⟩, ⟨0, 6, 0⟩], fun w => .coll (.ofNat 6 (fld w 20 6)) (.ofNat 6 (fld w 14 6))⟩,
  ⟨[⟨26, 6, 31⟩, ⟨8, 6, 0⟩, ⟨6, 1, 0⟩, ⟨0, 6, 1⟩], fun w => .collw (.ofNat 6 (fld w 20 6)) (.ofNat 6 (fld w 14 6)) (flag w 7)⟩,
  ⟨[⟨26, 6, 31⟩, ⟨8, 6, 0⟩, ⟨7, 1, 0⟩, ⟨6, 1, 0⟩, ⟨0, 6, 2⟩], fun w => .puts (.ofNat 6 (fld w 20 6)) (.ofNat 6 (fld w 14 6))⟩,
  ⟨[⟨26, 6, 31⟩, ⟨8, 6, 0⟩, ⟨7, 1, 0⟩, ⟨6, 1, 0⟩, ⟨0, 6, 3⟩], fun w => .get (.ofNat 6 (fld w 20 6)) (.ofNat 6 (fld w 14 6))⟩ ]

/-- R119, R122: vector access and integer arithmetic (majors 0x20, 0x21). -/
def rowsVecMem : List Row := [
  ⟨[⟨26, 6, 32⟩, ⟨13, 1, 0⟩, ⟨11, 1, 0⟩], fun w => .vldRow (.ofNat 4 (fld w 22 4)) (.ofNat 6 (fld w 16 6)) (.ofNat 2 (fld w 14 2)) (flag w 12) (.ofNat 11 (fld w 0 11))⟩,
  ⟨[⟨26, 6, 32⟩, ⟨13, 1, 1⟩, ⟨11, 1, 0⟩], fun w => .vldCol (.ofNat 4 (fld w 22 4)) (.ofNat 6 (fld w 16 6)) (.ofNat 2 (fld w 14 2)) (flag w 12) (.ofNat 2 (fld w 9 2)) (.ofNat 9 (fld w 0 9))⟩,
  ⟨[⟨26, 6, 32⟩, ⟨13, 1, 0⟩, ⟨11, 1, 1⟩], fun w => .vstRow (.ofNat 4 (fld w 22 4)) (.ofNat 6 (fld w 16 6)) (.ofNat 2 (fld w 14 2)) (flag w 12) (.ofNat 11 (fld w 0 11))⟩,
  ⟨[⟨26, 6, 32⟩, ⟨13, 1, 1⟩, ⟨11, 1, 1⟩], fun w => .vstCol (.ofNat 4 (fld w 22 4)) (.ofNat 6 (fld w 16 6)) (.ofNat 2 (fld w 14 2)) (flag w 12) (.ofNat 2 (fld w 9 2)) (.ofNat 9 (fld w 0 9))⟩,
  ⟨[⟨26, 6, 33⟩, ⟨13, 1, 0⟩, ⟨6, 2, 0⟩, ⟨0, 6, 0⟩], fun w => .vaddInt (.ofNat 4 (fld w 22 4)) (.ofNat 4 (fld w 18 4)) (.ofNat 4 (fld w 14 4)) (.ofNat 3 (fld w 10 3)) (flag w 9) (flag w 8)⟩,
  ⟨[⟨26, 6, 33⟩, ⟨13, 1, 0⟩, ⟨6, 2, 0⟩, ⟨0, 6, 1⟩], fun w => .vsubInt (.ofNat 4 (fld w 22 4)) (.ofNat 4 (fld w 18 4)) (.ofNat 4 (fld w 14 4)) (.ofNat 3 (fld w 10 3)) (flag w 9) (flag w 8)⟩,
  ⟨[⟨26, 6, 33⟩, ⟨13, 1, 0⟩, ⟨6, 2, 0⟩, ⟨0, 6, 2⟩], fun w => .vmulInt (.ofNat 4 (fld w 22 4)) (.ofNat 4 (fld w 18 4)) (.ofNat 4 (fld w 14 4)) (.ofNat 3 (fld w 10 3)) (flag w 9) (flag w 8)⟩,
  ⟨[⟨26, 6, 33⟩, ⟨13, 1, 0⟩, ⟨6, 2, 0⟩, ⟨0, 6, 3⟩], fun w => .vmulh (.ofNat 4 (fld w 22 4)) (.ofNat 4 (fld w 18 4)) (.ofNat 4 (fld w 14 4)) (.ofNat 3 (fld w 10 3)) (flag w 9) (flag w 8)⟩,
  ⟨[⟨26, 6, 33⟩, ⟨13, 1, 0⟩, ⟨6, 2, 0⟩, ⟨0, 6, 4⟩], fun w => .vminInt (.ofNat 4 (fld w 22 4)) (.ofNat 4 (fld w 18 4)) (.ofNat 4 (fld w 14 4)) (.ofNat 3 (fld w 10 3)) (flag w 9) (flag w 8)⟩,
  ⟨[⟨26, 6, 33⟩, ⟨13, 1, 0⟩, ⟨6, 2, 0⟩, ⟨0, 6, 5⟩], fun w => .vmaxInt (.ofNat 4 (fld w 22 4)) (.ofNat 4 (fld w 18 4)) (.ofNat 4 (fld w 14 4)) (.ofNat 3 (fld w 10 3)) (flag w 9) (flag w 8)⟩,
  ⟨[⟨26, 6, 33⟩, ⟨14, 4, 0⟩, ⟨13, 1, 0⟩, ⟨8, 1, 0⟩, ⟨6, 2, 0⟩, ⟨0, 6, 6⟩], fun w => .vabsInt (.ofNat 4 (fld w 22 4)) (.ofNat 4 (fld w 18 4)) (.ofNat 3 (fld w 10 3)) (flag w 9)⟩,
  ⟨[⟨26, 6, 33⟩, ⟨14, 4, 0⟩, ⟨13, 1, 0⟩, ⟨8, 1, 0⟩, ⟨6, 2, 0⟩, ⟨0, 6, 7⟩], fun w => .vnegInt (.ofNat 4 (fld w 22 4)) (.ofNat 4 (fld w 18 4)) (.ofNat 3 (fld w 10 3)) (flag w 9)⟩,
  ⟨[⟨26, 6, 33⟩, ⟨13, 1, 0⟩, ⟨6, 2, 0⟩, ⟨0, 6, 8⟩], fun w => .vavg (.ofNat 4 (fld w 22 4)) (.ofNat 4 (fld w 18 4)) (.ofNat 4 (fld w 14 4)) (.ofNat 3 (fld w 10 3)) (flag w 9) (flag w 8)⟩,
  ⟨[⟨26, 6, 33⟩, ⟨13, 1, 0⟩, ⟨6, 2, 0⟩, ⟨0, 6, 9⟩], fun w => .vabsd (.ofNat 4 (fld w 22 4)) (.ofNat 4 (fld w 18 4)) (.ofNat 4 (fld w 14 4)) (.ofNat 3 (fld w 10 3)) (flag w 9) (flag w 8)⟩,
  ⟨[⟨26, 6, 33⟩, ⟨13, 1, 0⟩, ⟨6, 2, 0⟩, ⟨0, 6, 10⟩], fun w => .vmacc (.ofNat 4 (fld w 22 4)) (.ofNat 4 (fld w 18 4)) (.ofNat 4 (fld w 14 4)) (.ofNat 3 (fld w 10 3)) (flag w 9) (flag w 8)⟩,
  ⟨[⟨26, 6, 33⟩, ⟨13, 1, 0⟩, ⟨6, 2, 0⟩, ⟨0, 6, 11⟩], fun w => .vdivInt (.ofNat 4 (fld w 22 4)) (.ofNat 4 (fld w 18 4)) (.ofNat 4 (fld w 14 4)) (.ofNat 3 (fld w 10 3)) (flag w 9) (flag w 8)⟩,
  ⟨[⟨26, 6, 33⟩, ⟨13, 1, 0⟩, ⟨6, 2, 0⟩, ⟨0, 6, 12⟩], fun w => .vrem (.ofNat 4 (fld w 22 4)) (.ofNat 4 (fld w 18 4)) (.ofNat 4 (fld w 14 4)) (.ofNat 3 (fld w 10 3)) (flag w 9) (flag w 8)⟩,
  ⟨[⟨26, 6, 33⟩, ⟨14, 4, 0⟩, ⟨13, 1, 0⟩, ⟨8, 1, 0⟩, ⟨6, 2, 0⟩, ⟨0, 6, 13⟩], fun w => .vclz (.ofNat 4 (fld w 22 4)) (.ofNat 4 (fld w 18 4)) (.ofNat 3 (fld w 10 3)) (flag w 9)⟩,
  ⟨[⟨26, 6, 33⟩, ⟨14, 4, 0⟩, ⟨13, 1, 0⟩, ⟨8, 1, 0⟩, ⟨6, 2, 0⟩, ⟨0, 6, 14⟩], fun w => .vpopc (.ofNat 4 (fld w 22 4)) (.ofNat 4 (fld w 18 4)) (.ofNat 3 (fld w 10 3)) (flag w 9)⟩ ]

/-- R123, R124: vector float, compare, logic, shift (majors 0x22, 0x23). -/
def rowsVecFloat : List Row := [
  ⟨[⟨26, 6, 34⟩, ⟨6, 2, 0⟩, ⟨0, 6, 0⟩], fun w => .vaddFloat (.ofNat 4 (fld w 22 4)) (.ofNat 4 (fld w 18 4)) (.ofNat 4 (fld w 14 4)) (.ofNat 4 (fld w 10 4)) (flag w 9) (flag w 8)⟩,
  ⟨[⟨26, 6, 34⟩, ⟨6, 2, 0⟩, ⟨0, 6, 1⟩], fun w => .vsubFloat (.ofNat 4 (fld w 22 4)) (.ofNat 4 (fld w 18 4)) (.ofNat 4 (fld w 14 4)) (.ofNat 4 (fld w 10 4)) (flag w 9) (flag w 8)⟩,
  ⟨[⟨26, 6, 34⟩, ⟨6, 2, 0⟩, ⟨0, 6, 2⟩], fun w => .vmulFloat (.ofNat 4 (fld w 22 4)) (.ofNat 4 (fld w 18 4)) (.ofNat 4 (fld w 14 4)) (.ofNat 4 (fld w 10 4)) (flag w 9) (flag w 8)⟩,
  ⟨[⟨26, 6, 34⟩, ⟨6, 2, 0⟩, ⟨0, 6, 3⟩], fun w => .vmulz (.ofNat 4 (fld w 22 4)) (.ofNat 4 (fld w 18 4)) (.ofNat 4 (fld w 14 4)) (.ofNat 4 (fld w 10 4)) (flag w 9) (flag w 8)⟩,
  ⟨[⟨26, 6, 34⟩, ⟨6, 2, 0⟩, ⟨0, 6, 4⟩], fun w => .vdivFloat (.ofNat 4 (fld w 22 4)) (.ofNat 4 (fld w 18 4)) (.ofNat 4 (fld w 14 4)) (.ofNat 4 (fld w 10 4)) (flag w 9) (flag w 8)⟩,
  ⟨[⟨26, 6, 34⟩, ⟨6, 2, 0⟩, ⟨0, 6, 5⟩], fun w => .vminFloat (.ofNat 4 (fld w 22 4)) (.ofNat 4 (fld w 18 4)) (.ofNat 4 (fld w 14 4)) (.ofNat 4 (fld w 10 4)) (flag w 9) (flag w 8)⟩,
  ⟨[⟨26, 6, 34⟩, ⟨6, 2, 0⟩, ⟨0, 6, 6⟩], fun w => .vmaxFloat (.ofNat 4 (fld w 22 4)) (.ofNat 4 (fld w 18 4)) (.ofNat 4 (fld w 14 4)) (.ofNat 4 (fld w 10 4)) (flag w 9) (flag w 8)⟩,
  ⟨[⟨26, 6, 34⟩, ⟨14, 4, 0⟩, ⟨8, 1, 0⟩, ⟨6, 2, 0⟩, ⟨0, 6, 7⟩], fun w => .vabsFloat (.ofNat 4 (fld w 22 4)) (.ofNat 4 (fld w 18 4)) (.ofNat 4 (fld w 10 4)) (flag w 9)⟩,
  ⟨[⟨26, 6, 34⟩, ⟨14, 4, 0⟩, ⟨8, 1, 0⟩, ⟨6, 2, 0⟩, ⟨0, 6, 8⟩], fun w => .vnegFloat (.ofNat 4 (fld w 22 4)) (.ofNat 4 (fld w 18 4)) (.ofNat 4 (fld w 10 4)) (flag w 9)⟩,
  ⟨[⟨26, 6, 34⟩, ⟨6, 2, 0⟩, ⟨0, 6, 9⟩], fun w => .vfma (.ofNat 4 (fld w 22 4)) (.ofNat 4 (fld w 18 4)) (.ofNat 4 (fld w 14 4)) (.ofNat 4 (fld w 10 4)) (flag w 9) (flag w 8)⟩,
  ⟨[⟨26, 6, 34⟩, ⟨6, 2, 0⟩, ⟨0, 6, 10⟩], fun w => .vfms (.ofNat 4 (fld w 22 4)) (.ofNat 4 (fld w 18 4)) (.ofNat 4 (fld w 14 4)) (.ofNat 4 (fld w 10 4)) (flag w 9) (flag w 8)⟩,
  ⟨[⟨26, 6, 34⟩, ⟨6, 2, 0⟩, ⟨0, 6, 11⟩], fun w => .vfnma (.ofNat 4 (fld w 22 4)) (.ofNat 4 (fld w 18 4)) (.ofNat 4 (fld w 14 4)) (.ofNat 4 (fld w 10 4)) (flag w 9) (flag w 8)⟩,
  ⟨[⟨26, 6, 34⟩, ⟨14, 4, 0⟩, ⟨8, 1, 0⟩, ⟨6, 2, 0⟩, ⟨0, 6, 12⟩], fun w => .vsqrt (.ofNat 4 (fld w 22 4)) (.ofNat 4 (fld w 18 4)) (.ofNat 4 (fld w 10 4)) (flag w 9)⟩,
  ⟨[⟨26, 6, 34⟩, ⟨6, 2, 0⟩, ⟨0, 6, 13⟩], fun w => .vfmaz (.ofNat 4 (fld w 22 4)) (.ofNat 4 (fld w 18 4)) (.ofNat 4 (fld w 14 4)) (.ofNat 4 (fld w 10 4)) (flag w 9) (flag w 8)⟩,
  ⟨[⟨26, 6, 35⟩, ⟨6, 2, 0⟩, ⟨0, 6, 0⟩], fun w => .vceq (.ofNat 4 (fld w 22 4)) (.ofNat 4 (fld w 18 4)) (.ofNat 4 (fld w 14 4)) (.ofNat 4 (fld w 10 4)) (flag w 9) (flag w 8)⟩,
  ⟨[⟨26, 6, 35⟩, ⟨6, 2, 0⟩, ⟨0, 6, 1⟩], fun w => .vcne (.ofNat 4 (fld w 22 4)) (.ofNat 4 (fld w 18 4)) (.ofNat 4 (fld w 14 4)) (.ofNat 4 (fld w 10 4)) (flag w 9) (flag w 8)⟩,
  ⟨[⟨26, 6, 35⟩, ⟨6, 2, 0⟩, ⟨0, 6, 2⟩], fun w => .vclt (.ofNat 4 (fld w 22 4)) (.ofNat 4 (fld w 18 4)) (.ofNat 4 (fld w 14 4)) (.ofNat 4 (fld w 10 4)) (flag w 9) (flag w 8)⟩,
  ⟨[⟨26, 6, 35⟩, ⟨6, 2, 0⟩, ⟨0, 6, 3⟩], fun w => .vcle (.ofNat 4 (fld w 22 4)) (.ofNat 4 (fld w 18 4)) (.ofNat 4 (fld w 14 4)) (.ofNat 4 (fld w 10 4)) (flag w 9) (flag w 8)⟩,
  ⟨[⟨26, 6, 35⟩, ⟨6, 2, 0⟩, ⟨0, 6, 4⟩], fun w => .vcun (.ofNat 4 (fld w 22 4)) (.ofNat 4 (fld w 18 4)) (.ofNat 4 (fld w 14 4)) (.ofNat 4 (fld w 10 4)) (flag w 9) (flag w 8)⟩,
  ⟨[⟨26, 6, 35⟩, ⟨13, 1, 0⟩, ⟨6, 2, 0⟩, ⟨0, 6, 8⟩], fun w => .vand (.ofNat 4 (fld w 22 4)) (.ofNat 4 (fld w 18 4)) (.ofNat 4 (fld w 14 4)) (.ofNat 3 (fld w 10 3)) (flag w 9) (flag w 8)⟩,
  ⟨[⟨26, 6, 35⟩, ⟨13, 1, 0⟩, ⟨6, 2, 0⟩, ⟨0, 6, 9⟩], fun w => .vor (.ofNat 4 (fld w 22 4)) (.ofNat 4 (fld w 18 4)) (.ofNat 4 (fld w 14 4)) (.ofNat 3 (fld w 10 3)) (flag w 9) (flag w 8)⟩,
  ⟨[⟨26, 6, 35⟩, ⟨13, 1, 0⟩, ⟨6, 2, 0⟩, ⟨0, 6, 10⟩], fun w => .vxor (.ofNat 4 (fld w 22 4)) (.ofNat 4 (fld w 18 4)) (.ofNat 4 (fld w 14 4)) (.ofNat 3 (fld w 10 3)) (flag w 9) (flag w 8)⟩,
  ⟨[⟨26, 6, 35⟩, ⟨13, 1, 0⟩, ⟨6, 2, 0⟩, ⟨0, 6, 11⟩], fun w => .vandn (.ofNat 4 (fld w 22 4)) (.ofNat 4 (fld w 18 4)) (.ofNat 4 (fld w 14 4)) (.ofNat 3 (fld w 10 3)) (flag w 9) (flag w 8)⟩,
  ⟨[⟨26, 6, 35⟩, ⟨14, 4, 0⟩, ⟨13, 1, 0⟩, ⟨8, 1, 0⟩, ⟨6, 2, 0⟩, ⟨0, 6, 12⟩], fun w => .vnot (.ofNat 4 (fld w 22 4)) (.ofNat 4 (fld w 18 4)) (.ofNat 3 (fld w 10 3)) (flag w 9)⟩,
  ⟨[⟨26, 6, 35⟩, ⟨13, 1, 0⟩, ⟨6, 2, 0⟩, ⟨0, 6, 16⟩], fun w => .vsll (.ofNat 4 (fld w 22 4)) (.ofNat 4 (fld w 18 4)) (.ofNat 4 (fld w 14 4)) (.ofNat 3 (fld w 10 3)) (flag w 9) (flag w 8)⟩,
  ⟨[⟨26, 6, 35⟩, ⟨13, 1, 0⟩, ⟨6, 2, 0⟩, ⟨0, 6, 17⟩], fun w => .vsrl (.ofNat 4 (fld w 22 4)) (.ofNat 4 (fld w 18 4)) (.ofNat 4 (fld w 14 4)) (.ofNat 3 (fld w 10 3)) (flag w 9) (flag w 8)⟩,
  ⟨[⟨26, 6, 35⟩, ⟨13, 1, 0⟩, ⟨6, 2, 0⟩, ⟨0, 6, 18⟩], fun w => .vsra (.ofNat 4 (fld w 22 4)) (.ofNat 4 (fld w 18 4)) (.ofNat 4 (fld w 14 4)) (.ofNat 3 (fld w 10 3)) (flag w 9) (flag w 8)⟩ ]

/-- R125 to R131: conversion, permutes, transfers, special functions (majors 0x24 to 0x26). -/
def rowsVecMisc : List Row := [
  ⟨[⟨26, 6, 36⟩, ⟨15, 3, 0⟩, ⟨6, 3, 0⟩], fun w => .vcvt (.ofNat 4 (fld w 22 4)) (.ofNat 4 (fld w 18 4)) (.ofNat 1 (fld w 14 1)) (.ofNat 4 (fld w 10 4)) (flag w 9) (.ofNat 2 (fld w 4 2)) (.ofNat 4 (fld w 0 4))⟩,
  ⟨[⟨26, 6, 37⟩, ⟨6, 2, 0⟩, ⟨0, 6, 0⟩], fun w => .vperm (.ofNat 4 (fld w 22 4)) (.ofNat 4 (fld w 18 4)) (.ofNat 4 (fld w 14 4)) (.ofNat 4 (fld w 10 4)) (flag w 9) (flag w 8)⟩,
  ⟨[⟨26, 6, 37⟩, ⟨16, 2, 0⟩, ⟨14, 2, 0⟩, ⟨8, 1, 0⟩, ⟨6, 2, 0⟩, ⟨0, 6, 1⟩], fun w => .vrev (.ofNat 4 (fld w 22 4)) (.ofNat 4 (fld w 18 4)) (.ofNat 4 (fld w 10 4)) (flag w 9)⟩,
  ⟨[⟨26, 6, 37⟩, ⟨6, 2, 0⟩, ⟨0, 6, 2⟩], fun w => .vzipl (.ofNat 4 (fld w 22 4)) (.ofNat 4 (fld w 18 4)) (.ofNat 4 (fld w 14 4)) (.ofNat 4 (fld w 10 4)) (flag w 9) (flag w 8)⟩,
  ⟨[⟨26, 6, 37⟩, ⟨6, 2, 0⟩, ⟨0, 6, 3⟩], fun w => .vziph (.ofNat 4 (fld w 22 4)) (.ofNat 4 (fld w 18 4)) (.ofNat 4 (fld w 14 4)) (.ofNat 4 (fld w 10 4)) (flag w 9) (flag w 8)⟩,
  ⟨[⟨26, 6, 37⟩, ⟨6, 2, 0⟩, ⟨0, 6, 4⟩], fun w => .vuzpe (.ofNat 4 (fld w 22 4)) (.ofNat 4 (fld w 18 4)) (.ofNat 4 (fld w 14 4)) (.ofNat 4 (fld w 10 4)) (flag w 9) (flag w 8)⟩,
  ⟨[⟨26, 6, 37⟩, ⟨6, 2, 0⟩, ⟨0, 6, 5⟩], fun w => .vuzpo (.ofNat 4 (fld w 22 4)) (.ofNat 4 (fld w 18 4)) (.ofNat 4 (fld w 14 4)) (.ofNat 4 (fld w 10 4)) (flag w 9) (flag w 8)⟩,
  ⟨[⟨26, 6, 37⟩, ⟨16, 2, 0⟩, ⟨14, 2, 0⟩, ⟨8, 1, 0⟩, ⟨6, 2, 0⟩, ⟨0, 6, 6⟩], fun w => .vmov (.ofNat 4 (fld w 22 4)) (.ofNat 4 (fld w 18 4)) (.ofNat 4 (fld w 10 4)) (flag w 9)⟩,
  ⟨[⟨26, 6, 37⟩, ⟨18, 4, 0⟩, ⟨16, 2, 0⟩, ⟨14, 2, 0⟩, ⟨13, 1, 0⟩, ⟨9, 1, 0⟩, ⟨8, 1, 0⟩, ⟨6, 2, 0⟩, ⟨0, 6, 8⟩], fun w => .vidx (.ofNat 4 (fld w 22 4)) (.ofNat 3 (fld w 10 3))⟩,
  ⟨[⟨26, 6, 37⟩, ⟨14, 2, 0⟩, ⟨8, 1, 0⟩, ⟨6, 2, 0⟩, ⟨0, 6, 16⟩], fun w => .vbcast (.ofNat 6 (fld w 20 6)) (.ofNat 4 (fld w 16 4)) (.ofNat 4 (fld w 10 4)) (flag w 9)⟩,
  ⟨[⟨26, 6, 37⟩, ⟨14, 2, 0⟩, ⟨8, 1, 0⟩, ⟨6, 2, 0⟩, ⟨0, 6, 17⟩], fun w => .vextr (.ofNat 6 (fld w 20 6)) (.ofNat 4 (fld w 16 4)) (.ofNat 4 (fld w 10 4)) (flag w 9)⟩,
  ⟨[⟨26, 6, 37⟩, ⟨14, 2, 0⟩, ⟨8, 1, 0⟩, ⟨6, 2, 0⟩, ⟨0, 6, 18⟩], fun w => .vmskb (.ofNat 6 (fld w 20 6)) (.ofNat 4 (fld w 16 4)) (.ofNat 4 (fld w 10 4)) (flag w 9)⟩,
  ⟨[⟨26, 6, 38⟩, ⟨14, 4, 0⟩, ⟨13, 1, 1⟩, ⟨12, 1, 0⟩, ⟨11, 1, 0⟩, ⟨8, 1, 0⟩, ⟨6, 2, 0⟩, ⟨0, 6, 0⟩], fun w => .vrcp (.ofNat 4 (fld w 22 4)) (.ofNat 4 (fld w 18 4)) (.ofNat 1 (fld w 10 1)) (flag w 9)⟩,
  ⟨[⟨26, 6, 38⟩, ⟨14, 4, 0⟩, ⟨13, 1, 1⟩, ⟨12, 1, 0⟩, ⟨11, 1, 0⟩, ⟨8, 1, 0⟩, ⟨6, 2, 0⟩, ⟨0, 6, 1⟩], fun w => .vrsqrt (.ofNat 4 (fld w 22 4)) (.ofNat 4 (fld w 18 4)) (.ofNat 1 (fld w 10 1)) (flag w 9)⟩,
  ⟨[⟨26, 6, 38⟩, ⟨14, 4, 0⟩, ⟨13, 1, 1⟩, ⟨12, 1, 0⟩, ⟨11, 1, 0⟩, ⟨8, 1, 0⟩, ⟨6, 2, 0⟩, ⟨0, 6, 2⟩], fun w => .vexp2 (.ofNat 4 (fld w 22 4)) (.ofNat 4 (fld w 18 4)) (.ofNat 1 (fld w 10 1)) (flag w 9)⟩,
  ⟨[⟨26, 6, 38⟩, ⟨14, 4, 0⟩, ⟨13, 1, 1⟩, ⟨12, 1, 0⟩, ⟨11, 1, 0⟩, ⟨8, 1, 0⟩, ⟨6, 2, 0⟩, ⟨0, 6, 3⟩], fun w => .vlog2 (.ofNat 4 (fld w 22 4)) (.ofNat 4 (fld w 18 4)) (.ofNat 1 (fld w 10 1)) (flag w 9)⟩,
  ⟨[⟨26, 6, 38⟩, ⟨14, 4, 0⟩, ⟨13, 1, 1⟩, ⟨12, 1, 0⟩, ⟨11, 1, 0⟩, ⟨8, 1, 0⟩, ⟨6, 2, 0⟩, ⟨0, 6, 4⟩], fun w => .vexp (.ofNat 4 (fld w 22 4)) (.ofNat 4 (fld w 18 4)) (.ofNat 1 (fld w 10 1)) (flag w 9)⟩,
  ⟨[⟨26, 6, 38⟩, ⟨14, 4, 0⟩, ⟨13, 1, 1⟩, ⟨12, 1, 0⟩, ⟨11, 1, 0⟩, ⟨8, 1, 0⟩, ⟨6, 2, 0⟩, ⟨0, 6, 5⟩], fun w => .vtanh (.ofNat 4 (fld w 22 4)) (.ofNat 4 (fld w 18 4)) (.ofNat 1 (fld w 10 1)) (flag w 9)⟩,
  ⟨[⟨26, 6, 38⟩, ⟨14, 4, 0⟩, ⟨13, 1, 1⟩, ⟨12, 1, 0⟩, ⟨11, 1, 0⟩, ⟨8, 1, 0⟩, ⟨6, 2, 0⟩, ⟨0, 6, 6⟩], fun w => .vsigm (.ofNat 4 (fld w 22 4)) (.ofNat 4 (fld w 18 4)) (.ofNat 1 (fld w 10 1)) (flag w 9)⟩,
  ⟨[⟨26, 6, 38⟩, ⟨18, 4, 0⟩, ⟨14, 4, 0⟩, ⟨13, 1, 0⟩, ⟨12, 1, 0⟩, ⟨9, 1, 0⟩, ⟨8, 1, 0⟩, ⟨6, 2, 0⟩, ⟨0, 6, 32⟩], fun w => .vrand (.ofNat 4 (fld w 22 4)) (.ofNat 2 (fld w 10 2))⟩ ]

/-- R169: statistics (major 0x27). -/
def rowsStat : List Row := [
  ⟨[⟨26, 6, 39⟩, ⟨14, 4, 0⟩, ⟨8, 1, 0⟩, ⟨6, 2, 0⟩, ⟨3, 3, 0⟩, ⟨0, 3, 0⟩], fun w => .supd (.ofNat 4 (fld w 22 4)) (.ofNat 4 (fld w 18 4)) (.ofNat 4 (fld w 10 4)) (flag w 9)⟩,
  ⟨[⟨26, 6, 39⟩, ⟨6, 2, 0⟩, ⟨3, 3, 0⟩, ⟨0, 3, 1⟩], fun w => .supdw (.ofNat 4 (fld w 22 4)) (.ofNat 4 (fld w 18 4)) (.ofNat 4 (fld w 14 4)) (.ofNat 4 (fld w 10 4)) (flag w 9) (flag w 8)⟩,
  ⟨[⟨26, 6, 39⟩, ⟨10, 4, 0⟩, ⟨6, 2, 0⟩, ⟨3, 3, 0⟩, ⟨0, 3, 2⟩], fun w => .smrg (.ofNat 4 (fld w 22 4)) (.ofNat 4 (fld w 18 4)) (.ofNat 4 (fld w 14 4)) (flag w 9) (flag w 8)⟩,
  ⟨[⟨26, 6, 39⟩, ⟨18, 4, 0⟩, ⟨14, 4, 0⟩, ⟨10, 4, 0⟩, ⟨9, 1, 0⟩, ⟨8, 1, 0⟩, ⟨6, 2, 0⟩, ⟨3, 3, 0⟩, ⟨0, 3, 3⟩], fun w => .sclr (.ofNat 4 (fld w 22 4))⟩,
  ⟨[⟨26, 6, 39⟩, ⟨14, 4, 0⟩, ⟨10, 4, 0⟩, ⟨8, 1, 0⟩, ⟨6, 2, 0⟩, ⟨3, 3, 0⟩, ⟨0, 3, 4⟩], fun w => .sputLo (.ofNat 4 (fld w 22 4)) (.ofNat 4 (fld w 18 4)) (flag w 9)⟩,
  ⟨[⟨26, 6, 39⟩, ⟨14, 4, 0⟩, ⟨10, 4, 0⟩, ⟨8, 1, 0⟩, ⟨6, 2, 0⟩, ⟨3, 3, 0⟩, ⟨0, 3, 5⟩], fun w => .sputHi (.ofNat 4 (fld w 22 4)) (.ofNat 4 (fld w 18 4)) (flag w 9)⟩,
  ⟨[⟨26, 6, 39⟩, ⟨14, 4, 0⟩, ⟨10, 4, 0⟩, ⟨8, 1, 0⟩, ⟨6, 2, 0⟩, ⟨3, 3, 0⟩, ⟨0, 3, 6⟩], fun w => .sgetLo (.ofNat 4 (fld w 22 4)) (.ofNat 4 (fld w 18 4)) (flag w 9)⟩,
  ⟨[⟨26, 6, 39⟩, ⟨14, 4, 0⟩, ⟨10, 4, 0⟩, ⟨8, 1, 0⟩, ⟨6, 2, 0⟩, ⟨3, 3, 0⟩, ⟨0, 3, 7⟩], fun w => .sgetHi (.ofNat 4 (fld w 22 4)) (.ofNat 4 (fld w 18 4)) (flag w 9)⟩,
  ⟨[⟨26, 6, 39⟩, ⟨14, 4, 0⟩, ⟨10, 4, 9⟩, ⟨8, 1, 0⟩, ⟨6, 2, 0⟩, ⟨3, 3, 2⟩], fun w => .sdrain (.ofNat 4 (fld w 22 4)) (.ofNat 4 (fld w 18 4)) (flag w 9) (.ofNat 3 (fld w 0 3))⟩,
  ⟨[⟨26, 6, 39⟩, ⟨6, 2, 0⟩, ⟨3, 3, 3⟩, ⟨0, 3, 0⟩], fun w => .snorm (.ofNat 4 (fld w 22 4)) (.ofNat 4 (fld w 18 4)) (.ofNat 4 (fld w 14 4)) (.ofNat 4 (fld w 10 4)) (flag w 9) (flag w 8)⟩,
  ⟨[⟨26, 6, 39⟩, ⟨6, 2, 0⟩, ⟨3, 3, 3⟩, ⟨0, 3, 1⟩], fun w => .snormZ (.ofNat 4 (fld w 22 4)) (.ofNat 4 (fld w 18 4)) (.ofNat 4 (fld w 14 4)) (.ofNat 4 (fld w 10 4)) (flag w 9) (flag w 8)⟩,
  ⟨[⟨26, 6, 39⟩, ⟨8, 1, 0⟩, ⟨6, 2, 0⟩, ⟨3, 3, 4⟩, ⟨0, 3, 0⟩], fun w => .supdRow (.ofNat 4 (fld w 22 4)) (.ofNat 6 (fld w 16 6)) (.ofNat 2 (fld w 14 2)) (.ofNat 4 (fld w 10 4)) (flag w 9)⟩,
  ⟨[⟨26, 6, 39⟩, ⟨8, 1, 1⟩, ⟨6, 2, 0⟩, ⟨3, 3, 4⟩, ⟨0, 3, 0⟩], fun w => .supdCol (.ofNat 4 (fld w 22 4)) (.ofNat 6 (fld w 16 6)) (.ofNat 2 (fld w 14 2)) (.ofNat 4 (fld w 10 4)) (flag w 9)⟩ ]

/-- R144, R152: matrix engine (major 0x28). -/
def rowsMat : List Row := [
  ⟨[⟨26, 6, 40⟩, ⟨0, 2, 0⟩], fun w => .mma (.ofNat 6 (fld w 20 6)) (.ofNat 6 (fld w 14 6)) (.ofNat 6 (fld w 8 6)) (.ofNat 6 (fld w 2 6))⟩,
  ⟨[⟨26, 6, 40⟩, ⟨0, 2, 1⟩], fun w => .mmaG (.ofNat 6 (fld w 20 6)) (.ofNat 6 (fld w 14 6)) (.ofNat 6 (fld w 8 6)) (.ofNat 6 (fld w 2 6))⟩,
  ⟨[⟨26, 6, 40⟩, ⟨0, 2, 2⟩], fun w => .mmas (.ofNat 6 (fld w 20 6)) (.ofNat 6 (fld w 14 6)) (.ofNat 6 (fld w 8 6)) (.ofNat 6 (fld w 2 6))⟩,
  ⟨[⟨26, 6, 40⟩, ⟨20, 6, 0⟩, ⟨8, 6, 0⟩, ⟨2, 6, 0⟩, ⟨0, 2, 3⟩], fun w => .mcfg (.ofNat 6 (fld w 14 6))⟩,
  ⟨[⟨26, 6, 40⟩, ⟨20, 6, 0⟩, ⟨8, 6, 0⟩, ⟨2, 6, 1⟩, ⟨0, 2, 3⟩], fun w => .mcfgD (.ofNat 6 (fld w 14 6))⟩,
  ⟨[⟨26, 6, 40⟩, ⟨20, 6, 0⟩, ⟨8, 6, 0⟩, ⟨2, 6, 2⟩, ⟨0, 2, 3⟩], fun w => .mzero (.ofNat 6 (fld w 14 6))⟩,
  ⟨[⟨26, 6, 40⟩, ⟨20, 6, 0⟩, ⟨2, 6, 4⟩, ⟨0, 2, 3⟩], fun w => .mdrain (.ofNat 6 (fld w 14 6)) (.ofNat 6 (fld w 8 6))⟩,
  ⟨[⟨26, 6, 40⟩, ⟨20, 6, 0⟩, ⟨2, 6, 5⟩, ⟨0, 2, 3⟩], fun w => .mdrainZ (.ofNat 6 (fld w 14 6)) (.ofNat 6 (fld w 8 6))⟩,
  ⟨[⟨26, 6, 40⟩, ⟨24, 2, 0⟩, ⟨8, 6, 0⟩, ⟨2, 6, 6⟩, ⟨0, 2, 3⟩], fun w => .mdrainV (.ofNat 4 (fld w 20 4)) (.ofNat 6 (fld w 14 6))⟩,
  ⟨[⟨26, 6, 40⟩, ⟨2, 6, 8⟩, ⟨0, 2, 3⟩], fun w => .mscale (.ofNat 6 (fld w 20 6)) (.ofNat 6 (fld w 14 6)) (.ofNat 6 (fld w 8 6))⟩,
  ⟨[⟨26, 6, 40⟩, ⟨2, 6, 9⟩, ⟨0, 2, 3⟩], fun w => .mscaleZ (.ofNat 6 (fld w 20 6)) (.ofNat 6 (fld w 14 6)) (.ofNat 6 (fld w 8 6))⟩,
  ⟨[⟨26, 6, 40⟩, ⟨2, 6, 12⟩, ⟨0, 2, 3⟩], fun w => .mcomp (.ofNat 6 (fld w 20 6)) (.ofNat 6 (fld w 14 6)) (.ofNat 6 (fld w 8 6))⟩ ]

/-- R307: system (major 0x3D). -/
def rowsSys : List Row := [
  ⟨[⟨26, 6, 61⟩, ⟨14, 6, 0⟩, ⟨13, 1, 0⟩, ⟨8, 5, 0⟩], fun w => .csrr (.ofNat 6 (fld w 20 6)) (.ofNat 8 (fld w 0 8))⟩,
  ⟨[⟨26, 6, 61⟩, ⟨8, 5, 1⟩], fun w => .csrw (.ofNat 6 (fld w 20 6)) (.ofNat 6 (fld w 14 6)) (flag w 13) (.ofNat 8 (fld w 0 8))⟩,
  ⟨[⟨26, 6, 61⟩, ⟨8, 5, 2⟩], fun w => .csrs (.ofNat 6 (fld w 20 6)) (.ofNat 6 (fld w 14 6)) (flag w 13) (.ofNat 8 (fld w 0 8))⟩,
  ⟨[⟨26, 6, 61⟩, ⟨8, 5, 3⟩], fun w => .csrc (.ofNat 6 (fld w 20 6)) (.ofNat 6 (fld w 14 6)) (flag w 13) (.ofNat 8 (fld w 0 8))⟩,
  ⟨[⟨26, 6, 61⟩, ⟨20, 6, 0⟩, ⟨14, 6, 0⟩, ⟨13, 1, 0⟩, ⟨8, 5, 4⟩, ⟨0, 8, 0⟩], fun _ => .tret⟩,
  ⟨[⟨26, 6, 61⟩, ⟨20, 6, 0⟩, ⟨8, 5, 5⟩, ⟨0, 8, 0⟩], fun w => .trap (.ofNat 6 (fld w 14 6)) (flag w 13)⟩,
  ⟨[⟨26, 6, 61⟩, ⟨20, 6, 0⟩, ⟨14, 6, 0⟩, ⟨13, 1, 0⟩, ⟨8, 5, 6⟩], fun w => .brk (.ofNat 8 (fld w 0 8))⟩,
  ⟨[⟨26, 6, 61⟩, ⟨20, 6, 0⟩, ⟨14, 6, 0⟩, ⟨13, 1, 0⟩, ⟨8, 5, 7⟩, ⟨0, 8, 0⟩], fun _ => .tfault⟩,
  ⟨[⟨26, 6, 61⟩, ⟨20, 6, 0⟩, ⟨8, 5, 8⟩, ⟨0, 8, 0⟩], fun w => .iswr (.ofNat 6 (fld w 14 6)) (flag w 13)⟩,
  ⟨[⟨26, 6, 61⟩, ⟨20, 6, 0⟩, ⟨8, 5, 9⟩, ⟨0, 8, 0⟩], fun w => .tlbinv (.ofNat 6 (fld w 14 6)) (flag w 13)⟩,
  ⟨[⟨26, 6, 61⟩, ⟨20, 6, 0⟩, ⟨14, 6, 0⟩, ⟨13, 1, 0⟩, ⟨8, 5, 10⟩, ⟨0, 8, 0⟩], fun _ => .tlbinvAll⟩,
  ⟨[⟨26, 6, 61⟩, ⟨20, 6, 0⟩, ⟨8, 5, 11⟩, ⟨0, 8, 0⟩], fun w => .objhome (.ofNat 6 (fld w 14 6)) (flag w 13)⟩ ]

/-- R64: modifier words (major 0x3E). -/
def rowsMod : List Row := [
  ⟨[⟨26, 6, 62⟩, ⟨24, 2, 0⟩], fun w => .modImm (.ofNat 24 (fld w 0 24))⟩,
  ⟨[⟨26, 6, 62⟩, ⟨24, 2, 1⟩], fun w => .modVf (.ofNat 24 (fld w 0 24))⟩,
  ⟨[⟨26, 6, 62⟩, ⟨24, 2, 2⟩], fun w => .modInv (.ofNat 24 (fld w 0 24))⟩,
  ⟨[⟨26, 6, 62⟩, ⟨24, 2, 3⟩], fun w => .modHint (.ofNat 24 (fld w 0 24))⟩ ]

/-- The rows of the opcode table that have an encoding. -/
def rows : List Row :=
  rowsAlu ++ rowsImm ++ rowsFlow ++ rowsMem ++ rowsAmo ++ rowsGate ++ rowsHandle ++ rowsVecMem ++ rowsVecFloat ++ rowsVecMisc ++ rowsStat ++ rowsMat ++ rowsSys ++ rowsMod

/-- Why a word or a list of bytes is not an instruction. -/
inductive Reject where
  /-- fewer than four bytes -/
  | short
  /-- no row of the opcode table fits: a reserved major or minor code, or a field that must be zero -/
  | noRow (w : W32)
  /-- a row fits, but the chapter calls this use ILLEGAL -/
  | illFormed (i : Instr)
  deriving DecidableEq, Repr

/-- R70: the instruction a word stands for, or why it is ILLEGAL. -/
def decode (w : W32) : Except Reject Instr :=
  match rows.find? fun r => r.fits w.toNat with
  | none => .error (.noRow w)
  | some r => if (r.build w.toNat).wf then .ok (r.build w.toNat) else .error (.illFormed (r.build w.toNat))

/-- R2, R53: four bytes, lowest address first, as a word. -/
def wordOfBytes (b0 b1 b2 b3 : Byte) : W32 := b3 ++ b2 ++ b1 ++ b0

/-- The bytes of a word as the instruction store holds them. -/
def bytesOfWord (w : W32) : List Byte :=
  [w.extractLsb' 0 8, w.extractLsb' 8 8, w.extractLsb' 16 8, w.extractLsb' 24 8]

/-- The instruction at the head of a list of bytes, and the bytes after it. -/
def decodeBytes : List Byte → Except Reject (Instr × List Byte)
  | b0 :: b1 :: b2 :: b3 :: rest =>
    match decode (wordOfBytes b0 b1 b2 b3) with
    | .ok i => .ok (i, rest)
    | .error e => .error e
  | _ => .error .short

/-- The instruction the decoder reads from an instruction whose bits are `w`, numbered as
spec/opcode_table.json numbers them; bits at and above `nbits` are zero. -/
def decodeTableWord (nbits w : Nat) : Option Instr :=
  match decodeBytes (bytesOfWord (BitVec.ofNat 32 (w % 2 ^ nbits))) with
  | .ok (i, _) => some i
  | .error _ => none

/-- A flag as a bit. -/
def bit (b : Bool) : Nat := if b then 1 else 0

/-- A word as a number: the fixed fields' value and each operand field at its place. -/
def pack (base : Nat) (fs : List (Nat × Nat)) : Option Nat :=
  some (fs.foldl (fun a f => a + f.1 * 2 ^ f.2) base)

/-- The word of an instruction as a number: its row's fixed fields and its operand fields (value and
lowest bit), each at its place; `none` for a step that is no instruction word. -/
def encodeNat : Instr → Option Nat
  | .add d a b t u => pack 0x4000000 [(d.toNat, 20), (a.toNat, 14), (b.toNat, 8), (bit t, 7), (bit u, 6)]
  | .sub d a b t u => pack 0x4000001 [(d.toNat, 20), (a.toNat, 14), (b.toNat, 8), (bit t, 7), (bit u, 6)]
  | .and d a b t u => pack 0x4000002 [(d.toNat, 20), (a.toNat, 14), (b.toNat, 8), (bit t, 7), (bit u, 6)]
  | .or d a b t u => pack 0x4000003 [(d.toNat, 20), (a.toNat, 14), (b.toNat, 8), (bit t, 7), (bit u, 6)]
  | .xor d a b t u => pack 0x4000004 [(d.toNat, 20), (a.toNat, 14), (b.toNat, 8), (bit t, 7), (bit u, 6)]
  | .andn d a b t u => pack 0x4000005 [(d.toNat, 20), (a.toNat, 14), (b.toNat, 8), (bit t, 7), (bit u, 6)]
  | .orn d a b t u => pack 0x4000006 [(d.toNat, 20), (a.toNat, 14), (b.toNat, 8), (bit t, 7), (bit u, 6)]
  | .xnor d a b t u => pack 0x4000007 [(d.toNat, 20), (a.toNat, 14), (b.toNat, 8), (bit t, 7), (bit u, 6)]
  | .sll d a b t u => pack 0x4000008 [(d.toNat, 20), (a.toNat, 14), (b.toNat, 8), (bit t, 7), (bit u, 6)]
  | .srl d a b t u => pack 0x4000009 [(d.toNat, 20), (a.toNat, 14), (b.toNat, 8), (bit t, 7), (bit u, 6)]
  | .sra d a b t u => pack 0x400000A [(d.toNat, 20), (a.toNat, 14), (b.toNat, 8), (bit t, 7), (bit u, 6)]
  | .rol d a b t u => pack 0x400000B [(d.toNat, 20), (a.toNat, 14), (b.toNat, 8), (bit t, 7), (bit u, 6)]
  | .ror d a b t u => pack 0x400000C [(d.toNat, 20), (a.toNat, 14), (b.toNat, 8), (bit t, 7), (bit u, 6)]
  | .slt d a b t u => pack 0x4000010 [(d.toNat, 20), (a.toNat, 14), (b.toNat, 8), (bit t, 7), (bit u, 6)]
  | .sltn d a b t u => pack 0x4000011 [(d.toNat, 20), (a.toNat, 14), (b.toNat, 8), (bit t, 7), (bit u, 6)]
  | .seq d a b t u => pack 0x4000012 [(d.toNat, 20), (a.toNat, 14), (b.toNat, 8), (bit t, 7), (bit u, 6)]
  | .sne d a b t u => pack 0x4000013 [(d.toNat, 20), (a.toNat, 14), (b.toNat, 8), (bit t, 7), (bit u, 6)]
  | .min d a b t u => pack 0x4000014 [(d.toNat, 20), (a.toNat, 14), (b.toNat, 8), (bit t, 7), (bit u, 6)]
  | .max d a b t u => pack 0x4000015 [(d.toNat, 20), (a.toNat, 14), (b.toNat, 8), (bit t, 7), (bit u, 6)]
  | .minn d a b t u => pack 0x4000016 [(d.toNat, 20), (a.toNat, 14), (b.toNat, 8), (bit t, 7), (bit u, 6)]
  | .maxn d a b t u => pack 0x4000017 [(d.toNat, 20), (a.toNat, 14), (b.toNat, 8), (bit t, 7), (bit u, 6)]
  | .mul d a b t u => pack 0x4000018 [(d.toNat, 20), (a.toNat, 14), (b.toNat, 8), (bit t, 7), (bit u, 6)]
  | .mulh d a b t u => pack 0x4000019 [(d.toNat, 20), (a.toNat, 14), (b.toNat, 8), (bit t, 7), (bit u, 6)]
  | .mulhn d a b t u => pack 0x400001A [(d.toNat, 20), (a.toNat, 14), (b.toNat, 8), (bit t, 7), (bit u, 6)]
  | .mulhsn d a b t u => pack 0x400001B [(d.toNat, 20), (a.toNat, 14), (b.toNat, 8), (bit t, 7), (bit u, 6)]
  | .div d a b t u => pack 0x400001C [(d.toNat, 20), (a.toNat, 14), (b.toNat, 8), (bit t, 7), (bit u, 6)]
  | .divn d a b t u => pack 0x400001D [(d.toNat, 20), (a.toNat, 14), (b.toNat, 8), (bit t, 7), (bit u, 6)]
  | .rem d a b t u => pack 0x400001E [(d.toNat, 20), (a.toNat, 14), (b.toNat, 8), (bit t, 7), (bit u, 6)]
  | .remn d a b t u => pack 0x400001F [(d.toNat, 20), (a.toNat, 14), (b.toNat, 8), (bit t, 7), (bit u, 6)]
  | .clz d a t w => pack 0x4000020 [(d.toNat, 20), (a.toNat, 14), (bit t, 7), (w.toNat, 0)]
  | .ctz d a t w => pack 0x4000024 [(d.toNat, 20), (a.toNat, 14), (bit t, 7), (w.toNat, 0)]
  | .ffs d a t w => pack 0x4000028 [(d.toNat, 20), (a.toNat, 14), (bit t, 7), (w.toNat, 0)]
  | .popc d a t w => pack 0x400002C [(d.toNat, 20), (a.toNat, 14), (bit t, 7), (w.toNat, 0)]
  | .csel d a b t u => pack 0x4000030 [(d.toNat, 20), (a.toNat, 14), (b.toNat, 8), (bit t, 7), (bit u, 6)]
  | .brev d a t => pack 0x4000031 [(d.toNat, 20), (a.toNat, 14), (bit t, 7)]
  | .bswap d a t => pack 0x4000032 [(d.toNat, 20), (a.toNat, 14), (bit t, 7)]
  | .padd d a b t u w => pack 0x4000034 [(d.toNat, 20), (a.toNat, 14), (b.toNat, 8), (bit t, 7), (bit u, 6), (w.toNat, 0)]
  | .psub d a b t u w => pack 0x4000038 [(d.toNat, 20), (a.toNat, 14), (b.toNat, 8), (bit t, 7), (bit u, 6), (w.toNat, 0)]
  | .addi d a t i => pack 0x8000000 [(d.toNat, 20), (a.toNat, 14), (bit t, 13), (i.toNat, 0)]
  | .andi d a t i => pack 0xC000000 [(d.toNat, 20), (a.toNat, 14), (bit t, 13), (i.toNat, 0)]
  | .ori d a t i => pack 0x10000000 [(d.toNat, 20), (a.toNat, 14), (bit t, 13), (i.toNat, 0)]
  | .xori d a t i => pack 0x14000000 [(d.toNat, 20), (a.toNat, 14), (bit t, 13), (i.toNat, 0)]
  | .slti d a t i => pack 0x18000000 [(d.toNat, 20), (a.toNat, 14), (bit t, 13), (i.toNat, 0)]
  | .sltni d a t i => pack 0x18001000 [(d.toNat, 20), (a.toNat, 14), (bit t, 13), (i.toNat, 0)]
  | .slli d a t s => pack 0x1C000000 [(d.toNat, 20), (a.toNat, 14), (bit t, 13), (s.toNat, 0)]
  | .srli d a t s => pack 0x1C000400 [(d.toNat, 20), (a.toNat, 14), (bit t, 13), (s.toNat, 0)]
  | .srai d a t s => pack 0x1C000800 [(d.toNat, 20), (a.toNat, 14), (bit t, 13), (s.toNat, 0)]
  | .rori d a t s => pack 0x1C000C00 [(d.toNat, 20), (a.toNat, 14), (bit t, 13), (s.toNat, 0)]
  | .exti d a t p l => pack 0x20000000 [(d.toNat, 20), (a.toNat, 14), (bit t, 13), (p.toNat, 6), (l.toNat, 0)]
  | .insi d a t p l => pack 0x20001000 [(d.toNat, 20), (a.toNat, 14), (bit t, 13), (p.toNat, 6), (l.toNat, 0)]
  | .lea d a b t u s => pack 0x24000000 [(d.toNat, 20), (a.toNat, 14), (b.toNat, 8), (bit t, 7), (bit u, 6), (s.toNat, 0)]
  | .leaA d a b t u => pack 0x24000008 [(d.toNat, 20), (a.toNat, 14), (b.toNat, 8), (bit t, 7), (bit u, 6)]
  | .leaW d a b t u => pack 0x24000009 [(d.toNat, 20), (a.toNat, 14), (b.toNat, 8), (bit t, 7), (bit u, 6)]
  | .leaC d a b t u => pack 0x2400000A [(d.toNat, 20), (a.toNat, 14), (b.toNat, 8), (bit t, 7), (bit u, 6)]
  | .beq a b t u i => pack 0x28000000 [(a.toNat, 20), (b.toNat, 14), (bit t, 13), (bit u, 12), (i.toNat, 0)]
  | .bne a b t u i => pack 0x2C000000 [(a.toNat, 20), (b.toNat, 14), (bit t, 13), (bit u, 12), (i.toNat, 0)]
  | .blt a b t u i => pack 0x30000000 [(a.toNat, 20), (b.toNat, 14), (bit t, 13), (bit u, 12), (i.toNat, 0)]
  | .bge a b t u i => pack 0x34000000 [(a.toNat, 20), (b.toNat, 14), (bit t, 13), (bit u, 12), (i.toNat, 0)]
  | .bltn a b t u i => pack 0x38000000 [(a.toNat, 20), (b.toNat, 14), (bit t, 13), (bit u, 12), (i.toNat, 0)]
  | .bgen a b t u i => pack 0x3C000000 [(a.toNat, 20), (b.toNat, 14), (bit t, 13), (bit u, 12), (i.toNat, 0)]
  | .jal l i => pack 0x40000000 [(l.toNat, 20), (i.toNat, 0)]
  | .jalr d a t i => pack 0x44000000 [(d.toNat, 20), (a.toNat, 14), (bit t, 13), (i.toNat, 0)]
  | .follow a t => pack 0x48000000 [(a.toNat, 14), (bit t, 7)]
  | .lead => pack 0x48000001 []
  | .split => pack 0x48000002 []
  | .tend => pack 0x48000003 []
  | .yield => pack 0x48000004 []
  | .sleep a t => pack 0x48000005 [(a.toNat, 14), (bit t, 7)]
  | .sleepuntil a t => pack 0x48000006 [(a.toNat, 14), (bit t, 7)]
  | .tself d => pack 0x48000008 [(d.toNat, 20)]
  | .tselfF d => pack 0x48000009 [(d.toNat, 20)]
  | .chblk a b t u => pack 0x4800000A [(a.toNat, 14), (b.toNat, 8), (bit t, 7), (bit u, 6)]
  | .chunb a b t u => pack 0x4800000B [(a.toNat, 14), (b.toNat, 8), (bit t, 7), (bit u, 6)]
  | .ldl d b t x w o => pack 0x4C000000 [(d.toNat, 20), (b.toNat, 14), (bit t, 13), (x.toNat, 11), (w.toNat, 8), (o.toNat, 0)]
  | .stl s b t x w o => pack 0x50000000 [(s.toNat, 20), (b.toNat, 14), (bit t, 13), (x.toNat, 11), (w.toNat, 8), (o.toNat, 0)]
  | .ldg d b t w o => pack 0x54000000 [(d.toNat, 20), (b.toNat, 14), (bit t, 13), (w.toNat, 8), (o.toNat, 0)]
  | .stg s b t w o => pack 0x58000000 [(s.toNat, 20), (b.toNat, 14), (bit t, 13), (w.toNat, 8), (o.toNat, 0)]
  | .ldx d a b t u w => pack 0x5C000000 [(d.toNat, 20), (a.toNat, 14), (b.toNat, 8), (bit t, 7), (bit u, 6), (w.toNat, 0)]
  | .stx s a b t u w => pack 0x5C000008 [(s.toNat, 20), (a.toNat, 14), (b.toNat, 8), (bit t, 7), (bit u, 6), (w.toNat, 0)]
  | .ldsync d b t x o => pack 0x60000000 [(d.toNat, 20), (b.toNat, 14), (bit t, 13), (x.toNat, 11), (o.toNat, 0)]
  | .ldfe d b t x o => pack 0x60000100 [(d.toNat, 20), (b.toNat, 14), (bit t, 13), (x.toNat, 11), (o.toNat, 0)]
  | .stfull s b t x o => pack 0x60000200 [(s.toNat, 20), (b.toNat, 14), (bit t, 13), (x.toNat, 11), (o.toNat, 0)]
  | .clrfe b t x o => pack 0x60000300 [(b.toNat, 14), (bit t, 13), (x.toNat, 11), (o.toNat, 0)]
  | .amoAdd d a b t u o => pack 0x64000000 [(d.toNat, 20), (a.toNat, 14), (b.toNat, 8), (bit t, 7), (bit u, 6), (o.toNat, 0)]
  | .amoSwap d a b t u o => pack 0x64000004 [(d.toNat, 20), (a.toNat, 14), (b.toNat, 8), (bit t, 7), (bit u, 6), (o.toNat, 0)]
  | .amoCas d a b t u o => pack 0x64000008 [(d.toNat, 20), (a.toNat, 14), (b.toNat, 8), (bit t, 7), (bit u, 6), (o.toNat, 0)]
  | .amoMin d a b t u o => pack 0x6400000C [(d.toNat, 20), (a.toNat, 14), (b.toNat, 8), (bit t, 7), (bit u, 6), (o.toNat, 0)]
  | .amoMax d a b t u o => pack 0x64000010 [(d.toNat, 20), (a.toNat, 14), (b.toNat, 8), (bit t, 7), (bit u, 6), (o.toNat, 0)]
  | .amoMinn d a b t u o => pack 0x64000014 [(d.toNat, 20), (a.toNat, 14), (b.toNat, 8), (bit t, 7), (bit u, 6), (o.toNat, 0)]
  | .amoMaxn d a b t u o => pack 0x64000018 [(d.toNat, 20), (a.toNat, 14), (b.toNat, 8), (bit t, 7), (bit u, 6), (o.toNat, 0)]
  | .amoAnd d a b t u o => pack 0x6400001C [(d.toNat, 20), (a.toNat, 14), (b.toNat, 8), (bit t, 7), (bit u, 6), (o.toNat, 0)]
  | .amoOr d a b t u o => pack 0x64000020 [(d.toNat, 20), (a.toNat, 14), (b.toNat, 8), (bit t, 7), (bit u, 6), (o.toNat, 0)]
  | .amoXor d a b t u o => pack 0x64000024 [(d.toNat, 20), (a.toNat, 14), (b.toNat, 8), (bit t, 7), (bit u, 6), (o.toNat, 0)]
  | .amoFaddF d a b t u o => pack 0x64000028 [(d.toNat, 20), (a.toNat, 14), (b.toNat, 8), (bit t, 7), (bit u, 6), (o.toNat, 0)]
  | .amoFaddD d a b t u o => pack 0x6400002C [(d.toNat, 20), (a.toNat, 14), (b.toNat, 8), (bit t, 7), (bit u, 6), (o.toNat, 0)]
  | .amoAmerge d a b t u o => pack 0x64000030 [(d.toNat, 20), (a.toNat, 14), (b.toNat, 8), (bit t, 7), (bit u, 6), (o.toNat, 0)]
  | .acqS a t => pack 0x68000000 [(a.toNat, 14), (bit t, 7)]
  | .acqX a t => pack 0x68000001 [(a.toNat, 14), (bit t, 7)]
  | .rel a t => pack 0x68000002 [(a.toNat, 14), (bit t, 7)]
  | .handover a b t u => pack 0x68000003 [(a.toNat, 14), (b.toNat, 8), (bit t, 7), (bit u, 6)]
  | .hgbind a b t u => pack 0x68000004 [(a.toNat, 14), (b.toNat, 8), (bit t, 7), (bit u, 6)]
  | .fenceCtx => pack 0x68000008 []
  | .fencePlot => pack 0x68000009 []
  | .fenceField => pack 0x6800000A []
  | .fencePkg => pack 0x6800000B []
  | .fenceSys => pack 0x6800000C []
  | .bar d a t => pack 0x68000010 [(d.toNat, 20), (a.toNat, 14), (bit t, 7)]
  | .pput d a b t u => pack 0x6C000000 [(d.toNat, 20), (a.toNat, 14), (b.toNat, 8), (bit t, 7), (bit u, 6)]
  | .ptake d a t => pack 0x6C000001 [(d.toNat, 20), (a.toNat, 14), (bit t, 7)]
  | .ptaken d a t => pack 0x6C000002 [(d.toNat, 20), (a.toNat, 14), (bit t, 7)]
  | .ppeek d a t => pack 0x6C000003 [(d.toNat, 20), (a.toNat, 14), (bit t, 7)]
  | .pstat d a t => pack 0x6C000004 [(d.toNat, 20), (a.toNat, 14), (bit t, 7)]
  | .pcfg a b t u => pack 0x6C000008 [(a.toNat, 14), (b.toNat, 8), (bit t, 7), (bit u, 6)]
  | .invoke d a n t m => pack 0x70000000 [(d.toNat, 20), (a.toNat, 14), (n.toNat, 8), (bit t, 7), (m.toNat, 0)]
  | .await d a t => pack 0x74000000 [(d.toNat, 20), (a.toNat, 14), (bit t, 7)]
  | .awaitb d a b t => pack 0x74000001 [(d.toNat, 20), (a.toNat, 14), (b.toNat, 8), (bit t, 7)]
  | .resolve a t => pack 0x74000002 [(a.toNat, 14), (bit t, 7)]
  | .resolveref a t => pack 0x74000003 [(a.toNat, 14), (bit t, 7)]
  | .breakP a t => pack 0x74000004 [(a.toNat, 14), (bit t, 7)]
  | .hstat d a t => pack 0x74000005 [(d.toNat, 20), (a.toNat, 14), (bit t, 7)]
  | .send a n t => pack 0x74000006 [(a.toNat, 14), (n.toNat, 8), (bit t, 7)]
  | .recv d a t => pack 0x74000007 [(d.toNat, 20), (a.toNat, 14), (bit t, 7)]
  | .cpy d a => pack 0x78000000 [(d.toNat, 20), (a.toNat, 14)]
  | .cpyE d a b u => pack 0x78000001 [(d.toNat, 20), (a.toNat, 14), (b.toNat, 8), (bit u, 6)]
  | .coll d a => pack 0x7C000000 [(d.toNat, 20), (a.toNat, 14)]
  | .collw d a t => pack 0x7C000001 [(d.toNat, 20), (a.toNat, 14), (bit t, 7)]
  | .puts d a => pack 0x7C000002 [(d.toNat, 20), (a.toNat, 14)]
  | .get d a => pack 0x7C000003 [(d.toNat, 20), (a.toNat, 14)]
  | .vldRow v b s t o => pack 0x80000000 [(v.toNat, 22), (b.toNat, 16), (s.toNat, 14), (bit t, 12), (o.toNat, 0)]
  | .vldCol v b s t e o => pack 0x80002000 [(v.toNat, 22), (b.toNat, 16), (s.toNat, 14), (bit t, 12), (e.toNat, 9), (o.toNat, 0)]
  | .vstRow v b s t o => pack 0x80000800 [(v.toNat, 22), (b.toNat, 16), (s.toNat, 14), (bit t, 12), (o.toNat, 0)]
  | .vstCol v b s t e o => pack 0x80002800 [(v.toNat, 22), (b.toNat, 16), (s.toNat, 14), (bit t, 12), (e.toNat, 9), (o.toNat, 0)]
  | .vaddInt d a b y t u => pack 0x84000000 [(d.toNat, 22), (a.toNat, 18), (b.toNat, 14), (y.toNat, 10), (bit t, 9), (bit u, 8)]
  | .vsubInt d a b y t u => pack 0x84000001 [(d.toNat, 22), (a.toNat, 18), (b.toNat, 14), (y.toNat, 10), (bit t, 9), (bit u, 8)]
  | .vmulInt d a b y t u => pack 0x84000002 [(d.toNat, 22), (a.toNat, 18), (b.toNat, 14), (y.toNat, 10), (bit t, 9), (bit u, 8)]
  | .vmulh d a b y t u => pack 0x84000003 [(d.toNat, 22), (a.toNat, 18), (b.toNat, 14), (y.toNat, 10), (bit t, 9), (bit u, 8)]
  | .vminInt d a b y t u => pack 0x84000004 [(d.toNat, 22), (a.toNat, 18), (b.toNat, 14), (y.toNat, 10), (bit t, 9), (bit u, 8)]
  | .vmaxInt d a b y t u => pack 0x84000005 [(d.toNat, 22), (a.toNat, 18), (b.toNat, 14), (y.toNat, 10), (bit t, 9), (bit u, 8)]
  | .vabsInt d a y t => pack 0x84000006 [(d.toNat, 22), (a.toNat, 18), (y.toNat, 10), (bit t, 9)]
  | .vnegInt d a y t => pack 0x84000007 [(d.toNat, 22), (a.toNat, 18), (y.toNat, 10), (bit t, 9)]
  | .vavg d a b y t u => pack 0x84000008 [(d.toNat, 22), (a.toNat, 18), (b.toNat, 14), (y.toNat, 10), (bit t, 9), (bit u, 8)]
  | .vabsd d a b y t u => pack 0x84000009 [(d.toNat, 22), (a.toNat, 18), (b.toNat, 14), (y.toNat, 10), (bit t, 9), (bit u, 8)]
  | .vmacc d a b y t u => pack 0x8400000A [(d.toNat, 22), (a.toNat, 18), (b.toNat, 14), (y.toNat, 10), (bit t, 9), (bit u, 8)]
  | .vdivInt d a b y t u => pack 0x8400000B [(d.toNat, 22), (a.toNat, 18), (b.toNat, 14), (y.toNat, 10), (bit t, 9), (bit u, 8)]
  | .vrem d a b y t u => pack 0x8400000C [(d.toNat, 22), (a.toNat, 18), (b.toNat, 14), (y.toNat, 10), (bit t, 9), (bit u, 8)]
  | .vclz d a y t => pack 0x8400000D [(d.toNat, 22), (a.toNat, 18), (y.toNat, 10), (bit t, 9)]
  | .vpopc d a y t => pack 0x8400000E [(d.toNat, 22), (a.toNat, 18), (y.toNat, 10), (bit t, 9)]
  | .vaddFloat d a b y t u => pack 0x88000000 [(d.toNat, 22), (a.toNat, 18), (b.toNat, 14), (y.toNat, 10), (bit t, 9), (bit u, 8)]
  | .vsubFloat d a b y t u => pack 0x88000001 [(d.toNat, 22), (a.toNat, 18), (b.toNat, 14), (y.toNat, 10), (bit t, 9), (bit u, 8)]
  | .vmulFloat d a b y t u => pack 0x88000002 [(d.toNat, 22), (a.toNat, 18), (b.toNat, 14), (y.toNat, 10), (bit t, 9), (bit u, 8)]
  | .vmulz d a b y t u => pack 0x88000003 [(d.toNat, 22), (a.toNat, 18), (b.toNat, 14), (y.toNat, 10), (bit t, 9), (bit u, 8)]
  | .vdivFloat d a b y t u => pack 0x88000004 [(d.toNat, 22), (a.toNat, 18), (b.toNat, 14), (y.toNat, 10), (bit t, 9), (bit u, 8)]
  | .vminFloat d a b y t u => pack 0x88000005 [(d.toNat, 22), (a.toNat, 18), (b.toNat, 14), (y.toNat, 10), (bit t, 9), (bit u, 8)]
  | .vmaxFloat d a b y t u => pack 0x88000006 [(d.toNat, 22), (a.toNat, 18), (b.toNat, 14), (y.toNat, 10), (bit t, 9), (bit u, 8)]
  | .vabsFloat d a y t => pack 0x88000007 [(d.toNat, 22), (a.toNat, 18), (y.toNat, 10), (bit t, 9)]
  | .vnegFloat d a y t => pack 0x88000008 [(d.toNat, 22), (a.toNat, 18), (y.toNat, 10), (bit t, 9)]
  | .vfma d a b y t u => pack 0x88000009 [(d.toNat, 22), (a.toNat, 18), (b.toNat, 14), (y.toNat, 10), (bit t, 9), (bit u, 8)]
  | .vfms d a b y t u => pack 0x8800000A [(d.toNat, 22), (a.toNat, 18), (b.toNat, 14), (y.toNat, 10), (bit t, 9), (bit u, 8)]
  | .vfnma d a b y t u => pack 0x8800000B [(d.toNat, 22), (a.toNat, 18), (b.toNat, 14), (y.toNat, 10), (bit t, 9), (bit u, 8)]
  | .vsqrt d a y t => pack 0x8800000C [(d.toNat, 22), (a.toNat, 18), (y.toNat, 10), (bit t, 9)]
  | .vfmaz d a b y t u => pack 0x8800000D [(d.toNat, 22), (a.toNat, 18), (b.toNat, 14), (y.toNat, 10), (bit t, 9), (bit u, 8)]
  | .vceq d a b y t u => pack 0x8C000000 [(d.toNat, 22), (a.toNat, 18), (b.toNat, 14), (y.toNat, 10), (bit t, 9), (bit u, 8)]
  | .vcne d a b y t u => pack 0x8C000001 [(d.toNat, 22), (a.toNat, 18), (b.toNat, 14), (y.toNat, 10), (bit t, 9), (bit u, 8)]
  | .vclt d a b y t u => pack 0x8C000002 [(d.toNat, 22), (a.toNat, 18), (b.toNat, 14), (y.toNat, 10), (bit t, 9), (bit u, 8)]
  | .vcle d a b y t u => pack 0x8C000003 [(d.toNat, 22), (a.toNat, 18), (b.toNat, 14), (y.toNat, 10), (bit t, 9), (bit u, 8)]
  | .vcun d a b y t u => pack 0x8C000004 [(d.toNat, 22), (a.toNat, 18), (b.toNat, 14), (y.toNat, 10), (bit t, 9), (bit u, 8)]
  | .vand d a b y t u => pack 0x8C000008 [(d.toNat, 22), (a.toNat, 18), (b.toNat, 14), (y.toNat, 10), (bit t, 9), (bit u, 8)]
  | .vor d a b y t u => pack 0x8C000009 [(d.toNat, 22), (a.toNat, 18), (b.toNat, 14), (y.toNat, 10), (bit t, 9), (bit u, 8)]
  | .vxor d a b y t u => pack 0x8C00000A [(d.toNat, 22), (a.toNat, 18), (b.toNat, 14), (y.toNat, 10), (bit t, 9), (bit u, 8)]
  | .vandn d a b y t u => pack 0x8C00000B [(d.toNat, 22), (a.toNat, 18), (b.toNat, 14), (y.toNat, 10), (bit t, 9), (bit u, 8)]
  | .vnot d a y t => pack 0x8C00000C [(d.toNat, 22), (a.toNat, 18), (y.toNat, 10), (bit t, 9)]
  | .vsll d a b y t u => pack 0x8C000010 [(d.toNat, 22), (a.toNat, 18), (b.toNat, 14), (y.toNat, 10), (bit t, 9), (bit u, 8)]
  | .vsrl d a b y t u => pack 0x8C000011 [(d.toNat, 22), (a.toNat, 18), (b.toNat, 14), (y.toNat, 10), (bit t, 9), (bit u, 8)]
  | .vsra d a b y t u => pack 0x8C000012 [(d.toNat, 22), (a.toNat, 18), (b.toNat, 14), (y.toNat, 10), (bit t, 9), (bit u, 8)]
  | .vcvt d a p y t q s => pack 0x90000000 [(d.toNat, 22), (a.toNat, 18), (p.toNat, 14), (y.toNat, 10), (bit t, 9), (q.toNat, 4), (s.toNat, 0)]
  | .vperm d a b y t u => pack 0x94000000 [(d.toNat, 22), (a.toNat, 18), (b.toNat, 14), (y.toNat, 10), (bit t, 9), (bit u, 8)]
  | .vrev d a y t => pack 0x94000001 [(d.toNat, 22), (a.toNat, 18), (y.toNat, 10), (bit t, 9)]
  | .vzipl d a b y t u => pack 0x94000002 [(d.toNat, 22), (a.toNat, 18), (b.toNat, 14), (y.toNat, 10), (bit t, 9), (bit u, 8)]
  | .vziph d a b y t u => pack 0x94000003 [(d.toNat, 22), (a.toNat, 18), (b.toNat, 14), (y.toNat, 10), (bit t, 9), (bit u, 8)]
  | .vuzpe d a b y t u => pack 0x94000004 [(d.toNat, 22), (a.toNat, 18), (b.toNat, 14), (y.toNat, 10), (bit t, 9), (bit u, 8)]
  | .vuzpo d a b y t u => pack 0x94000005 [(d.toNat, 22), (a.toNat, 18), (b.toNat, 14), (y.toNat, 10), (bit t, 9), (bit u, 8)]
  | .vmov d a y t => pack 0x94000006 [(d.toNat, 22), (a.toNat, 18), (y.toNat, 10), (bit t, 9)]
  | .vidx d y => pack 0x94000008 [(d.toNat, 22), (y.toNat, 10)]
  | .vbcast g v y t => pack 0x94000010 [(g.toNat, 20), (v.toNat, 16), (y.toNat, 10), (bit t, 9)]
  | .vextr g v y t => pack 0x94000011 [(g.toNat, 20), (v.toNat, 16), (y.toNat, 10), (bit t, 9)]
  | .vmskb g v y t => pack 0x94000012 [(g.toNat, 20), (v.toNat, 16), (y.toNat, 10), (bit t, 9)]
  | .vrcp d a y t => pack 0x98002000 [(d.toNat, 22), (a.toNat, 18), (y.toNat, 10), (bit t, 9)]
  | .vrsqrt d a y t => pack 0x98002001 [(d.toNat, 22), (a.toNat, 18), (y.toNat, 10), (bit t, 9)]
  | .vexp2 d a y t => pack 0x98002002 [(d.toNat, 22), (a.toNat, 18), (y.toNat, 10), (bit t, 9)]
  | .vlog2 d a y t => pack 0x98002003 [(d.toNat, 22), (a.toNat, 18), (y.toNat, 10), (bit t, 9)]
  | .vexp d a y t => pack 0x98002004 [(d.toNat, 22), (a.toNat, 18), (y.toNat, 10), (bit t, 9)]
  | .vtanh d a y t => pack 0x98002005 [(d.toNat, 22), (a.toNat, 18), (y.toNat, 10), (bit t, 9)]
  | .vsigm d a y t => pack 0x98002006 [(d.toNat, 22), (a.toNat, 18), (y.toNat, 10), (bit t, 9)]
  | .vrand d y => pack 0x98000020 [(d.toNat, 22), (y.toNat, 10)]
  | .supd d a y t => pack 0x9C000000 [(d.toNat, 22), (a.toNat, 18), (y.toNat, 10), (bit t, 9)]
  | .supdw d a b y t u => pack 0x9C000001 [(d.toNat, 22), (a.toNat, 18), (b.toNat, 14), (y.toNat, 10), (bit t, 9), (bit u, 8)]
  | .smrg d a b t u => pack 0x9C000002 [(d.toNat, 22), (a.toNat, 18), (b.toNat, 14), (bit t, 9), (bit u, 8)]
  | .sclr d => pack 0x9C000003 [(d.toNat, 22)]
  | .sputLo d a t => pack 0x9C000004 [(d.toNat, 22), (a.toNat, 18), (bit t, 9)]
  | .sputHi d a t => pack 0x9C000005 [(d.toNat, 22), (a.toNat, 18), (bit t, 9)]
  | .sgetLo d a t => pack 0x9C000006 [(d.toNat, 22), (a.toNat, 18), (bit t, 9)]
  | .sgetHi d a t => pack 0x9C000007 [(d.toNat, 22), (a.toNat, 18), (bit t, 9)]
  | .sdrain d a t o => pack 0x9C002410 [(d.toNat, 22), (a.toNat, 18), (bit t, 9), (o.toNat, 0)]
  | .snorm d a b y t u => pack 0x9C000018 [(d.toNat, 22), (a.toNat, 18), (b.toNat, 14), (y.toNat, 10), (bit t, 9), (bit u, 8)]
  | .snormZ d a b y t u => pack 0x9C000019 [(d.toNat, 22), (a.toNat, 18), (b.toNat, 14), (y.toNat, 10), (bit t, 9), (bit u, 8)]
  | .supdRow d b s y t => pack 0x9C000020 [(d.toNat, 22), (b.toNat, 16), (s.toNat, 14), (y.toNat, 10), (bit t, 9)]
  | .supdCol d b s y t => pack 0x9C000120 [(d.toNat, 22), (b.toNat, 16), (s.toNat, 14), (y.toNat, 10), (bit t, 9)]
  | .mma a b k c => pack 0xA0000000 [(a.toNat, 20), (b.toNat, 14), (k.toNat, 8), (c.toNat, 2)]
  | .mmaG a b k c => pack 0xA0000001 [(a.toNat, 20), (b.toNat, 14), (k.toNat, 8), (c.toNat, 2)]
  | .mmas a b k c => pack 0xA0000002 [(a.toNat, 20), (b.toNat, 14), (k.toNat, 8), (c.toNat, 2)]
  | .mcfg a => pack 0xA0000003 [(a.toNat, 14)]
  | .mcfgD a => pack 0xA0000007 [(a.toNat, 14)]
  | .mzero a => pack 0xA000000B [(a.toNat, 14)]
  | .mdrain a b => pack 0xA0000013 [(a.toNat, 14), (b.toNat, 8)]
  | .mdrainZ a b => pack 0xA0000017 [(a.toNat, 14), (b.toNat, 8)]
  | .mdrainV d a => pack 0xA000001B [(d.toNat, 20), (a.toNat, 14)]
  | .mscale d a b => pack 0xA0000023 [(d.toNat, 20), (a.toNat, 14), (b.toNat, 8)]
  | .mscaleZ d a b => pack 0xA0000027 [(d.toNat, 20), (a.toNat, 14), (b.toNat, 8)]
  | .mcomp d a b => pack 0xA0000033 [(d.toNat, 20), (a.toNat, 14), (b.toNat, 8)]
  | .csrr d c => pack 0xF4000000 [(d.toNat, 20), (c.toNat, 0)]
  | .csrw d a t c => pack 0xF4000100 [(d.toNat, 20), (a.toNat, 14), (bit t, 13), (c.toNat, 0)]
  | .csrs d a t c => pack 0xF4000200 [(d.toNat, 20), (a.toNat, 14), (bit t, 13), (c.toNat, 0)]
  | .csrc d a t c => pack 0xF4000300 [(d.toNat, 20), (a.toNat, 14), (bit t, 13), (c.toNat, 0)]
  | .tret => pack 0xF4000400 []
  | .trap a t => pack 0xF4000500 [(a.toNat, 14), (bit t, 13)]
  | .brk n => pack 0xF4000600 [(n.toNat, 0)]
  | .tfault => pack 0xF4000700 []
  | .iswr a t => pack 0xF4000800 [(a.toNat, 14), (bit t, 13)]
  | .tlbinv a t => pack 0xF4000900 [(a.toNat, 14), (bit t, 13)]
  | .tlbinvAll => pack 0xF4000A00 []
  | .objhome a t => pack 0xF4000B00 [(a.toNat, 14), (bit t, 13)]
  | .modImm p => pack 0xF8000000 [(p.toNat, 0)]
  | .modVf p => pack 0xF9000000 [(p.toNat, 0)]
  | .modInv p => pack 0xFA000000 [(p.toNat, 0)]
  | .modHint p => pack 0xFB000000 [(p.toNat, 0)]
  | .multicycleResult _ _ _ => none
  | .longLatencyResponse _ => none
  | .heldAccessResponse _ => none
  | .portWordTransfer _ _ => none
  | .translationComplete _ _ => none
  | .engineGrant _ => none
  | .invocationArrival _ => none
  | .rawMessageArrival _ => none
  | .agentListAppend _ => none
  | .agentReturn _ _ => none
  | .directoryForward _ => none
  | .taskStart _ => none
  | .contextFree _ _ => none
  | .spill _ => none
  | .spillComplete _ => none
  | .restore _ => none
  | .floorTick _ => none
  | .sleepWake _ _ => none
  | .quantumEnd _ => none
  | .quantumApply _ => none
  | .followJoin _ => none
  | .furrowTimeoutSplit _ _ => none
  | .settlementArrival _ => none
  | .recordQueueEntry _ _ => none
  | .acceptanceNotice _ => none
  | .chainRegistration _ => none
  | .chainCollapse _ => none
  | .awaitRequest _ => none
  | .awaitAnswer _ => none
  | .hstatRequest _ => none
  | .recordFree _ _ => none
  | .remotePortAccess _ => none
  | .parkedRequestServe _ => none
  | .requestResend _ => none
  | .baseDieAccess _ => none
  | .amoServe _ => none
  | .headgateRequest _ => none
  | .headgateGrant _ => none
  | .headgateRelease _ => none
  | .handoverGrant _ => none
  | .hgbindChange _ => none
  | .barrierArrival _ => none
  | .barrierRelease _ _ => none
  | .weirPut _ => none
  | .putRedirect _ => none
  | .announcement _ => none
  | .announcementAck _ => none
  | .weirTake _ => none
  | .weirPeek _ => none
  | .weirStat _ => none
  | .weirCfg _ => none
  | .weirSummary _ _ => none
  | .summaryArrival _ => none
  | .moveArrival _ => none
  | .pull _ => none
  | .pullAnswer _ => none
  | .emptinessCollect _ => none
  | .collectAnswer _ => none
  | .elementOverdue _ _ => none
  | .flumeAccept _ => none
  | .copyPiece _ _ => none
  | .copyComplete _ => none
  | .copyLate _ _ _ => none
  | .copyFailed _ => none
  | .putsSignal _ => none
  | .collRequest _ => none
  | .collAccept _ => none
  | .collwRequest _ => none
  | .chunkArrival _ => none
  | .chunkTakeup _ => none
  | .commBreakNotice _ => none
  | .lintilData _ => none
  | .lintilAck _ => none
  | .lintilNack _ => none
  | .lintilOpen _ => none
  | .lintilOpenAck _ => none
  | .lintilClose _ => none
  | .pauseFrameReceive _ => none
  | .ackTimer _ => none
  | .retransmitTimeout _ => none
  | .connectionStateFetch _ => none
  | .thresholdWindowReset _ _ => none
  | .watchdog _ _ => none
  | .scrub _ => none
  | .squareRebuildComplete _ _ => none
  | .ptrootWrite _ _ => none
  | .objentWrite _ _ _ => none
  | .chentWrite _ _ _ => none
  | .cisternWrite _ _ => none
  | .sqstatWrite _ _ => none
  | .debugHalt _ => none
  | .debugResume _ => none
  | .debugDeliver _ => none
  | .debugStep _ => none
  | .debugRegRead _ => none
  | .debugRegWrite _ => none
  | .debugCsrRead _ => none
  | .debugCsrWrite _ => none
  | .debugBufferRead _ => none
  | .debugBufferWrite _ => none
  | .debugSnapshot _ => none
  | .debugIstoreWrite _ => none
  | .debugTemplateWrite _ => none
  | .hostWindowRead _ => none
  | .hostWindowWrite _ => none
  | .hostInvoke _ => none
  | .release _ => none
  | .partCreate => none
  | .partDestroy => none
  | .partDestroyTimeout => none
  | .partSetdet => none
  | .partSetcont => none
  | .commSet => none
  | .windowMap => none
  | .imageLoad => none
  | .resync => none
  | .portCfg => none
  | .powerCap => none
  | .evqSet => none
  | .pkgId => none
  | .getVersion _ => none
  | .getCapabilities _ => none
  | .negotiateAlgorithms _ => none
  | .getDigests _ => none
  | .getCertificate _ => none
  | .challenge _ => none
  | .getMeasurements _ => none
  | .powerOn => none
  | .startupStageComplete => none
  | .cxlLinkUp => none
  | .retentionEnter _ => none
  | .paritySweepComplete _ => none
  | .throttleChange _ => none
  | .ill _ => none
  | .hostRequest _ => none
  | .cxlCompletion _ => none
  | .channelBlockRequest _ => none
  | .tlbInvalidate _ => none
  | .directoryMapUpdate _ => none
  | .lintilUnknownKind _ => none

/-- The word of an instruction (R55). -/
def encode (i : Instr) : Option W32 := (encodeNat i).map (BitVec.ofNat 32)

end Sys2Proof
end

