-- ==== Sys2Proof/Machine/Sparse.lean ====
section
/-!
DEFINITION. Sparse tables: lists of (key, value) pairs in one canonical form (keys strictly rising, no entry
equal to what an unlisted key reads as). Register files, buffers, memories and tables of the machine are
all held so.
-/

namespace Sys2Proof.Sparse

variable {α : Type}

/-- The value at a key; an unlisted key reads as `d`. -/
def get (d : α) : List (Nat × α) → Nat → α
  | [], _ => d
  | (k, v) :: t, i => if k < i then get d t i else if k = i then v else d

/-- The entries with a key above `i`. -/
def above (i : Nat) : List (Nat × α) → List (Nat × α)
  | [] => []
  | (k, v) :: t => if k ≤ i then above i t else (k, v) :: t

/-- Writes a key. Writing `d` removes the entry. -/
def set [DecidableEq α] (d : α) : List (Nat × α) → Nat → α → List (Nat × α)
  | [], i, v => if v = d then [] else [(i, v)]
  | (k, w) :: t, i, v =>
    if k < i then (k, w) :: set d t i v
    else if v = d then above i ((k, w) :: t)
    else (i, v) :: above i ((k, w) :: t)

/-- Every key is above `lo`, keys rise strictly, and no value is `d`. -/
def wfAbove [DecidableEq α] (d : α) : Option Nat → List (Nat × α) → Bool
  | _, [] => true
  | lo, (k, v) :: t => (match lo with | none => true | some l => decide (l < k)) && decide (v ≠ d) && wfAbove d (some k) t

/-- The canonical form. -/
def wf [DecidableEq α] (d : α) (m : List (Nat × α)) : Bool := wfAbove d none m

/-- Changes the value at a key. -/
def modify [DecidableEq α] (d : α) (m : List (Nat × α)) (i : Nat) (f : α → α) : List (Nat × α) :=
  set d m i (f (get d m i))

/-- The `n` values from key `i` on. -/
def getN (d : α) (m : List (Nat × α)) (i n : Nat) : List α := (List.range n).map fun k => get d m (i + k)

/-- Writes a list of values from key `i` on. -/
def setN [DecidableEq α] (d : α) (m : List (Nat × α)) (i : Nat) : List α → List (Nat × α)
  | [] => m
  | v :: vs => setN d (set d m i v) (i + 1) vs

end Sys2Proof.Sparse
end

