-- ==== Sys2Proof/Config.lean ====
section
/-!
DEFINITION. The figures the spec fixes for every package, and the values it leaves open (each a constant
without a body, so that no proof can see it).
-/

namespace Sys2Proof.Config

/-- R109: HBM target addresses run from 0 to 576 GiB - 1. -/
def hbmBytes : Nat := 576 * 2 ^ 30

/-- R12: the stacks of HBM. -/
def numStacks : Nat := 12

/-- R91: the bytes of the A, W and C buffers, by buffer code. -/
def bufSize : Nat → Nat
  | 0 => 0x4000
  | 1 => 0x8000
  | 2 => 0x2000
  | _ => 0

/-- R53: the bytes of an instruction store. -/
def storeBytes : Nat := 0x2000

/-- R205: the promise records of a plot. -/
def records : Nat := 128

/-- R207: the invocations a turnout stores. -/
def turnoutStore : Nat := 256

/-- R23: the entries of a weir. -/
def weirEntries : Nat := 16384

/-- R103: requests a base die parks, and requests a remote port parks. -/
def baseParks : Nat := 4096

/-- R103: see `baseParks`. -/
def portParks : Nat := 8

/-- R239: requests a headgate unit parks. -/
def gateParks : Nat := 8192

/-- R245: the regions of a package's bound-region table. -/
def regionTable : Nat := 1024

/-- R249: tries of an arrival that found no room, in cycles (R103, R239). -/
def resendAfter : Nat := 256

/-- R128: which of the binary32 values within the bound of a special function (by its code: 0 vrcp,
1 vrsqrt, 2 vexp2, 3 vlog2, 4 vexp, 5 vtanh, 6 vsigm) is delivered for an operand word: the offset, in
units in the last place, from the correctly rounded value, under FPCSR.FTZ or not. Free value: the spec gives only a bound. -/
opaque specialUlp (fn : Nat) (x : Nat) (ftz : Bool) : Int

/-- R39: with P = 1 a trailing significand has no bits, so that the spec does not say which neighbour a tie of RNE goes to. Free value: the
larger of k × 2^q and (k+1) × 2^q, for an unsigned format or not and a sign. -/
opaque tieP1 (unsigned neg : Bool) (k : Nat) (q : Int) : Bool

/-- R185: a byte of the context image that a spill writes to HBM, by plot, TASKID, cycle and place in the image. The spec names what the image
holds and gives no layout: a free value. -/
opaque imageByte (plot task cycle i : Nat) : Byte

/-- R301: a byte of a connection state that spills to the host area, by peer, tenant, cycle and place in the state. The spec gives its size and
no layout: a free value. -/
opaque connByte (peer tenant cycle i : Nat) : Byte

/-- R375: a word of the package's configuration space, by its number, after the writes given, the latest first. The spec names the space and
gives no register of it: a free value. -/
opaque configWord (n : Nat) (writes : List (Nat × BitVec 32)) : BitVec 32

/-- R200: NFOL of a leader with more followers than its six bits can count, by their number. Free value. -/
opaque manyFollowers (n : Nat) : BitVec 6

/-- R196: the value that lead reports when the task that leads its plot is spilled, by plot and TASKID: the rule names the CTXID of a
context, and the task is in none. Free value. -/
opaque spilledLeader (plot task : Nat) : Word

/-- R385: the signature Damkar makes over a message. The spec gives no key: a free function. -/
opaque sign (bytes : List Byte) : BitVec 768

/-- R385: the certificate of the package's one slot. The spec gives no contents: a free value. -/
opaque certificate : List Byte

/-- R384: the firmware that Damkar measures, by index (1 Damkar, 2 headworks, 3 base dies, 4 field service blocks). The spec
gives no contents: a free value. -/
opaque firmware (k : Nat) : List Byte

/-- R385: what Damkar's CAPABILITIES says of its timing exponent, its data transfer size and its largest message. The spec gives none: free
values. -/
opaque spdmTiming : Nat
/-- R385: see `spdmTiming`. -/
opaque spdmTransfer : Nat
/-- R385: see `spdmTiming`. -/
opaque spdmLargest : Nat

/-- R385: a byte of the nonce that Damkar puts into an answer, by the answer's number and its place. A free value. -/
opaque nonceByte (n i : Nat) : Byte

/-- R386: the bytes of a summary, from the fields of its entries by section. The spec gives no layout: a free function. -/
opaque summary (sections : List (List (List Nat))) : List Byte

/-- R300: how many frames out of order a channel of a connection keeps. The spec gives no number: a free value. -/
opaque keptFrames : Nat

/-- R387: the phase of the event queue's first pass. The spec does not give it: a free value. -/
opaque firstPhase : Bool

end Sys2Proof.Config
end

