-- ==== Sys2Proof/Machine/Types.lean ====
section
/-!
DEFINITION. The parts of the state: contexts, plots, packets, and the units outside the plots. Plain data.
-/

namespace Sys2Proof.Machine

open Sys2Proof

/-- R314: the causes of a trap. -/
inductive Cause where
  | illegal | privilege | fetchMisalign | fetchFault | loadFault | storeFault | bufferBounds | empty
  | capability | broken | late | tileLive | tileShape | numeric | rngWrap | collMismatch | collOverrun
  | deadWait | spillFull | breakpoint | watchpoint | step | eccUncorrected | software | staleRef | followInvalid
  deriving DecidableEq, Repr

/-- R314: the code of a cause. -/
def Cause.code : Cause → Nat
  | .illegal => 0x01 | .privilege => 0x02 | .fetchMisalign => 0x03 | .fetchFault => 0x04
  | .loadFault => 0x05 | .storeFault => 0x06 | .bufferBounds => 0x07 | .empty => 0x08 | .capability => 0x09
  | .broken => 0x0A | .late => 0x0B | .tileLive => 0x0C | .tileShape => 0x0D | .numeric => 0x0E
  | .rngWrap => 0x0F | .collMismatch => 0x10 | .collOverrun => 0x11 | .deadWait => 0x12 | .spillFull => 0x13
  | .breakpoint => 0x14 | .watchpoint => 0x15 | .step => 0x16 | .eccUncorrected => 0x17 | .software => 0x18
  | .staleRef => 0x19 | .followInvalid => 0x1A

/-- The units that send and receive packets: a plot (PLOTID), a base die, a field service block, a
headworks, Damkar, and another package as a whole (for PEER requests). -/
inductive Endpoint where
  | plot (id : Nat)
  | base (stack : Nat)
  | service (field : Nat)
  | head (n : Nat)
  | peer (pkg : Nat)
  | damkar
  deriving DecidableEq, Repr

/-- R17: the virtual-channel classes. -/
inductive Cls where
  | req | rsp | inv | chi | clo | sys
  deriving DecidableEq, Repr

/-- Who waits for an answer: a task of a plot (its TASKID), and the serial number of the access. -/
structure Who where
  plot : Nat
  task : Nat
  id : Nat
  deriving DecidableEq, Repr

/-- An entry of a held-gate table (R240): the record's virtual address, its HBM target, and the mode; and the package whose HBM it is, where
that is another (R243). -/
structure Gate where
  va : Word
  target : Nat
  excl : Bool
  home : Option Nat
  deriving DecidableEq, Repr

/-- An entry is of a record of this package. -/
def Gate.names (g : Gate) (target : Nat) : Bool := g.target == target && g.home.isNone

/-- A cached translation (R111): the page's first virtual address and its bytes, the target's first address,
the memory type (0 HBM, 1 PEER, 2 HOST), the peer package, the permissions, and the index of the bound
region it overlaps (R245). -/
structure Tlb where
  va : Nat
  bytes : Nat
  target : Nat
  ty : Nat
  pkg : Nat
  rd : Bool
  wr : Bool
  region : Option Nat
  tenant : Nat
  /-- R324: the bytes of the page that it is of -/
  page : Nat
  deriving DecidableEq, Repr

/-- Where a range of bytes lies: translated pages, or another plot's buffer. -/
inductive Loc where
  | pages (va : Nat) (ps : List Tlb)
  | scratch (plot buf off : Nat)
  deriving DecidableEq, Repr

/-- What a memory access does at the place that serves it. Store bytes carry their offset from the address. -/
inductive MemOp where
  | load (n : Nat)
  /-- a vector row: 32 bytes, of which those with the numbers given are read (R116) -/
  | lanes (act : List Nat)
  | store (bytes : List (Nat × Byte))
  | sync (op : Nat) (w : Word)
  | amo (op : Nat) (a b : Word)
  deriving DecidableEq, Repr

/-- A memory access under way: the buffer code for a plot's remote port, and the (target) address. -/
structure Acc where
  who : Who
  buf : Nat
  addr : Nat
  op : MemOp
  deriving DecidableEq, Repr

/-- An answer in RSP, SYS or CLO. -/
inductive Rsp where
  /-- R106, R344: the far end has accepted a store -/
  | accept
  | data (bytes : List Byte) (flags : Nat) (poison : Bool)
  | words (ws : List Word) (flags : Nat)
  | reject
  | trap (c : Cause) (v : Word)
  deriving DecidableEq, Repr

/-- What a response does to the waiting task's registers. -/
inductive RspAct where
  | ack
  /-- a load: `ws` of R56 -/
  | load (d ws : Nat)
  /-- words to consecutive g registers -/
  | words (ds : List Nat)
  /-- bytes to a v register; a byte is written where `act` holds, and is zero (`zm`) or kept elsewhere -/
  | vec (d : Nat) (act : List Bool) (zm : Bool)
  /-- AWAITB: result to the first register, 0 or 1 to the second (R224) -/
  | awaitb (d b : Nat)
  /-- words to a g register, and the flags into FPCSR -/
  | take (d : Nat)
  /-- bytes of a streamed operand (R147), from a virtual address on -/
  | stream (va : Nat)
  deriving DecidableEq, Repr

/-- The memory type of an outstanding access, as the fences of R248 tell them apart. -/
inductive Space where
  | hbm | peer | host | scratchOwn | scratch | other
  deriving DecidableEq, Repr

/-- An access without its response (R248). -/
structure Outst where
  id : Nat
  space : Space
  store : Bool
  act : RspAct
  addr : Word
  deriving DecidableEq, Repr

/-- What holds a context until an answer arrives. -/
inductive HoldKind where
  | access (f : Cause)  -- R106: a rejection raises this fault
  | await
  | acquire (va : Word) (target : Nat) (excl : Bool)
  | gate (va : Word)
  | handover
  | bind
  | pool
  /-- a pput, which deterministic mode defers (R275) -/
  | put
  | take
  | flume (lt puts : Bool) (len : Nat)
  | coll
  | collw
  | barrier
  | sleep (wake : Nat)
  | follow
  | tlbinv
  | objhome
  | pcfg
  deriving DecidableEq, Repr

/-- R182: what keeps a context from issuing after its instruction has issued; the registers marked empty with
the FE they had before; the value a rejection reports as TVAL; the answers still to come. -/
structure Hold where
  kind : HoldKind
  id : Nat
  since : Nat
  dsts : List (Nat × Bool)
  tval : Word
  left : Nat
  /-- the words that the instruction took from ports, by port (R315) -/
  popped : List (Nat × Word)
  deriving DecidableEq, Repr

/-- Why an instruction did not issue at its last attempt. -/
inductive Wait where
  | source (reg : Nat) | word (buf i : Nat) | multi (reg : Nat) | dest (reg : Nat) | port (dir : Nat)
  | divider | engine | heldGroup (tile : Nat) | translation (va : Nat) | record | credit | copyRecord
  /-- a fence of a scope (R248) -/
  | fence (scope : Nat)
  /-- rel and handover: earlier accesses as fence.pkg has them, and copies (R241) -/
  | release (copies : List Nat)
  /-- a write of the task to its own plot, through the remote port, is not performed (R113) -/
  | ownStore
  /-- a leader whose followers have no room (R198) -/
  | followQueue
  /-- a follower without an entry (R198) -/
  | follow
  /-- a multiply that has the engine and runs: it stands between two of its k steps -/
  | steps
  | boundary | barrier | stream
  deriving DecidableEq, Repr

/-- A context that did not issue: why, and since which cycle. -/
structure Blocked where
  why : Wait
  since : Nat
  deriving DecidableEq, Repr

/-- A multi-cycle result not yet written (R79): the destination (register numbering of R60) or a port slot,
and the value. -/
structure Multi where
  reg : Nat
  slot : Nat
  val : V256
  div : Bool
  deriving DecidableEq, Repr

/-- R283: an outstanding-copy record. -/
structure CopyRec where
  id : Nat
  /-- its number, 0 to 7 -/
  no : Nat
  lt : Bool
  promise : Nat
  failed : Bool
  late : Bool
  /-- the destination range, as virtual addresses (R241) -/
  dstLo : Nat
  dstHi : Nat
  deriving DecidableEq, Repr

/-- R64, R65: a modifier word that applies to the next instruction. -/
inductive Modifier where
  | imm (payload : BitVec 24)
  | vf (payload : BitVec 24)
  | inv (payload : BitVec 24)
  | hint (payload : BitVec 24)
  deriving DecidableEq, Repr

/-- The register files of a context with their full/empty bits; registers are numbered as in R60 for `empt`,
`poison` (the load's address, R338) and `badPar` (a parity error, R338). -/
structure Regs where
  g : Sparse Word
  v : Sparse V256
  r : Sparse S128
  empt : Sparse Bool
  poison : Sparse (Option Word)
  badPar : Sparse Bool
  deriving DecidableEq, Repr

/-- The CSRs of a context (R306). -/
structure Csrs where
  taskid : Nat
  taskpri : Nat
  epc : Word
  tcause : Word
  tval : Word
  tstat : Word
  tscratch : Word
  fpcsr : Word
  vfmt : Word
  mrp : Word
  mtcfg : Word
  rngkeylo : Word
  rngkeyhi : Word
  rngctr : Word
  bka : Sparse Word
  wpa : Sparse Word
  wpm : Sparse Word
  dbgctl : Word
  thsel : Word
  chsel : Word
  objsel : Word
  deriving DecidableEq, Repr

/-- The task of a context (R181, R211, R215). A promise or parent of 0 is none. -/
structure Task where
  chan : Nat
  promise : Word
  parent : Word
  sender : Word
  deriving DecidableEq, Repr

/-- What a follower receives for one instruction or pair of its leader (R198). -/
structure FurrowEntry where
  pc : Word
  words : List W32
  next : Word
  deriving DecidableEq, Repr

/-- The furrow state of a context (R196 to R200). -/
structure Furrow where
  lead : Bool
  /-- the followers: plot and context -/
  followers : List (Nat × Nat)
  /-- the leader: plot and TASKID -/
  leader : Option (Nat × Nat)
  ofs : Int
  queue : List FurrowEntry
  lcause : Nat
  /-- the cycle since which the leader stalls its followers -/
  stall : Option Nat
  /-- the entry that was under way when the leader split, with the address at which fetch resumes after it (R199) -/
  resume : Option FurrowEntry
  deriving DecidableEq, Repr

/-- R313: traps due at the next boundary of the context. -/
structure Due where
  step : Option Word
  /-- one for each class that fired (R333) -/
  numeric : List Word
  spillFull : Option Word
  deriving DecidableEq, Repr

/-- Where a multiply stands that has the engine (R146): its tile group and PCW, the row end, the block from `kb` on, and the next step, `ks`
of tile `ti`. `fresh` says that the block was started at its first step (R147); `stepped` that the point is the k-step boundary after a
step that this grant has run. -/
structure MulPoint where
  base : Nat
  pcw : Nat
  end_ : Nat
  kb : Nat
  ti : Nat
  ks : Nat
  fresh : Bool
  stepped : Bool
  deriving DecidableEq, Repr

/-- A matrix instruction that waits or runs in a context (R138, R146, R147): the flags that a multiply has raised, the streamed bytes that have
arrived, the elements that failed, where it stands, and the tiles whose groups the instruction names; of a multiply that has issued, its
control word, and the port word that this was, with its port (R61). -/
structure MulWork where
  flags : Nat
  bytes : List (Nat × Byte)
  failed : List (Nat × Cause)
  point : Option MulPoint
  names : List Nat
  ctl : Option Word
  popped : List (Nat × Word)
  deriving DecidableEq, Repr

/-- No matrix instruction. -/
def MulWork.none : MulWork := ⟨0, [], [], .none, [], .none, []⟩

/-- A context, or the image of a spilled task (R185). -/
structure Ctx where
  live : Bool
  ended : Bool
  sup : Bool
  pc : Word
  regs : Regs
  csr : Csrs
  task : Task
  pair : Option Modifier
  /-- the second word of the pair under way, as it was fetched with the first (R67) -/
  second : W32
  multi : List Multi
  outst : List Outst
  hold : Option Hold
  block : Option Blocked
  due : Due
  gates : List Gate
  copies : List CopyRec
  mul : MulWork
  furrow : Furrow
  halted : Bool
  haltReq : Bool
  dbgStep : Bool
  /-- the cause and value of a trap that HOT turned into a halt (R311, R330) -/
  hotTrap : Option (Cause × Word × Word × Bool)
  /-- R198: the trap handlers that the task has entered and not returned from -/
  handlers : Nat
  /-- R312: a return has asked for no breakpoint or watchpoint checks on the next instruction or pair -/
  bsup : Bool
  /-- R332 class 11: the start of a block, and the periods of it that have been counted -/
  watched : Nat × Nat
  /-- instructions left in a floor-tick quantum (R189) -/
  quantum : Option Nat
  readySince : Nat
  issued : Bool
  lastIssue : Nat
  /-- the page whose translation failed for this context (R110) -/
  xfault : Option Nat
  /-- a fault of the far end that reached the task while it was spilled -/
  pendTrap : Option (Cause × Word)
  deriving DecidableEq, Repr

/-- R61: a slot of a mesh port queue: the number of the instruction that took it, and its word. -/
structure Slot where
  id : Nat
  word : Option Word
  deriving DecidableEq, Repr

/-- The storage of a plot's buffers: bytes, words marked empty, and per byte the symbols that read wrong (R334)
and the squares (buffer × 64 + square) with their corrections (R335). -/
structure Bufs where
  a : Sparse Byte
  w : Sparse Byte
  c : Sparse Byte
  ea : Sparse Bool
  ew : Sparse Bool
  ec : Sparse Bool
  /-- wrong symbols: buffer × 2^16 + position × 64 + square, and the error pattern -/
  errs : Sparse Byte
  corrections : Sparse Nat
  rebuilding : List Nat
  deriving DecidableEq, Repr

/-- A tile's group (R133): base, row and column counts less one (ROWS, COLS), i32 accumulator, live, held by
the context given. -/
structure Group where
  rows : Nat
  cols : Nat
  i32 : Bool
  live : Bool
  held : Option Nat
  deriving DecidableEq, Repr

/-- R138, R139: the engine: the context it is granted to, and the tasks whose matrix instruction has been attempted, pre-empted multiplies first
and then in the order of their first attempt: contexts, and spilled tasks as 4 + TASKID. -/
structure Engine where
  running : Option Nat
  waiting : List Nat
  deriving DecidableEq, Repr

/-- R178: a channel entry's fields. -/
structure Chan where
  ov : Bool
  en : Bool
  blk : Bool
  pri : Nat
  objv : Bool
  slot : Nat
  cen : Bool
  cact : Nat
  epc : Nat
  /-- the cycle of the last unblocking (R187) -/
  unblocked : Nat
  /-- a recv has taken the header of the head message; words still to deliver -/
  reading : Option (List Word)
  /-- recvs that wait: the destination register of a task -/
  recvs : List (Who × Nat)
  deriving DecidableEq, Repr

/-- R321: an object slot. -/
structure Obj where
  v : Bool
  res : Bool
  cen : Bool
  cact : Nat
  gen : Nat
  deriving DecidableEq, Repr

/-- An invocation under way (R211). `hmask` and `smask` mark handle and strict arguments still to be visited;
`path` are the records that forwarded it, the latest first, with their sequence numbers (R218). `member`: one of a multicast's
invocations; the multicast itself is one until it goes to its target (R211 to R213). -/
structure Inv where
  target : Word
  mc : Bool
  member : Bool
  method : Nat
  args : List Word
  hmask : Nat
  smask : Nat
  pri : Option Nat
  caps : List Gate
  promise : Word
  parent : Word
  sender : Word
  hops : Nat
  path : List (Word × Nat)
  tenant : Nat
  /-- the place in the retirement order of its sender (R203) -/
  order : Nat
  deriving DecidableEq, Repr

/-- A message in a channel queue: an invocation, or a raw message. -/
inductive Queued where
  | inv (i : Inv)
  | raw (words : List Word) (sender : Word)
  deriving DecidableEq, Repr

/-- R205: how a record stands. -/
inductive PState where
  | free | unresolved | value (w : Word) | oref (w : Word) | chained (h : Word) | broken (r : Word)
  deriving DecidableEq, Repr

/-- R206: who owns a record. -/
inductive Owner where
  | task (id : Nat) | host (res : Nat)
  /-- the host has given the record up; its result area is still to be written (R378, R379) -/
  | gone (res : Nat)
  | none
  deriving DecidableEq, Repr

/-- An invocation queued on a record, with its place in the record's arrival order. -/
structure QEnt where
  seq : Nat
  inv : Inv
  deriving DecidableEq, Repr

/-- Who asked a record for its result: an awaiting task, or a chained record (R219, R225). -/
inductive Asker where
  | task (w : Who) | record (h : Word)
  deriving DecidableEq, Repr

/-- R205: a promise record. -/
structure Record where
  gen : Nat
  st : PState
  owner : Owner
  queue : List QEnt
  /-- invocations held by the memory-side agent, or on their way there, by arrival number, and whether a strict argument is awaited (R207) -/
  away : List (Nat × Bool)
  /-- invocations forwarded and not accepted, by arrival number -/
  out : List Nat
  /-- unanswered requests, with their arrival number -/
  asks : List (Nat × Asker)
  seq : Nat
  /-- multicast: members in all, members still to settle -/
  members : Nat
  left : Nat
  /-- of these, the ones forwarded through the next handle (R220) -/
  through : List Nat
  /-- the next handle of a collapsed record while forwardings through it are out (R220) -/
  via : Word
  /-- the arrival number at which it collapsed -/
  viaAt : Nat
  /-- the registration at the next handle has been sent -/
  registered : Bool
  deriving DecidableEq, Repr

/-- R402: an event of a promise record. Invocations are told by their arrival number at the record and their own promise. -/
inductive RecEvent where
  | created (pc target : Word) (chan : Nat)
  /-- queued or held, for the target or for a strict argument -/
  | queued (n : Nat) (h : Word) (chan : Nat) (strict : Option Nat)
  | await (w : Who)
  | settled (st : PState) (src : Endpoint)
  | collapsed (st : PState)
  | forwarded (n : Nat) (h to_ : Word) (chan : Nat)
  /-- an entry broke, with its break record -/
  | broke (n : Nat) (h : Word) (r : Word)
  | accepted (n : Nat) (h : Word)
  /-- passed to the memory-side agent, the turnout's store being full (R207) -/
  | handed (n : Nat) (h : Word) (chan : Nat)
  | answered (w : Who) (st : PState)
  /-- an await or a registration was passed on to the next handle -/
  | passed (a : Asker) (to_ : Word)
  /-- a chained record registered here, or was told the result -/
  | registration (h : Word)
  | told (h : Word) (st : PState)
  /-- this record registered at the next handle -/
  | registers (to_ : Word)
  | hstat (w : Who)
  /-- a settlement that came too late -/
  | late (st : PState) (src : Endpoint)
  deriving DecidableEq, Repr

/-- R402: a record's last 16 events, with their cycles counted from its creation. -/
structure RecLog where
  created : Nat
  events : List (Nat × RecEvent)
  deriving DecidableEq, Repr

/-- R402: a task that has started: TASKID, channel and promise. -/
structure Started where
  task : Nat
  chan : Nat
  promise : Word
  deriving DecidableEq, Repr

/-- R333: a threshold class. -/
structure Thr where
  win : Nat
  cnt : Nat
  lim : Word
  fired : Bool
  deriving DecidableEq, Repr

/-- R331: the debug port's template and channel mask. -/
structure Template where
  bka : Sparse Word
  wpa : Sparse Word
  wpm : Sparse Word
  dbgctl : Word
  mask : Word
  deriving DecidableEq, Repr

/-- The CSRs of a plot (R306). -/
structure PlotCsrs where
  tvec : Word
  detctl : Word
  detq : Word
  ptroot : Word
  seedlo : Word
  seedhi : Word
  cistern : Word
  pcont : Word
  sqstat : Word
  deriving DecidableEq, Repr

/-- The scheduling hardware of a plot. -/
structure Sched where
  serial : Nat
  /-- the context that issued last, by priority (R182) -/
  last : Sparse Nat
  /-- spilled images in cistern slots, and when each became ready (R186, R187) -/
  images : List (Ctx × Option Nat)
  /-- the slots of the stored images, as (TASKID, slot) (R185) -/
  places : List (Nat × Nat)
  /-- the context whose spill is under way (R185) -/
  spilling : Option Nat
  /-- R188: the TVAL of the last SPILL-FULL -/
  lastSpillFull : Option Nat
  retired : Nat
  ended : Bool
  /-- the task that the floor tick chose and that has no context (R189): 2 × channel, or 2 × TASKID + 1 of an image -/
  floorWaiter : Option Nat
  asleep : Bool
  sweep : Bool
  idleSince : Nat
  deriving DecidableEq, Repr

/-- R245: a bound region of a partition: the record's target, the first address and the bytes. -/
structure Region where
  tenant : Nat
  target : Nat
  base : Nat
  bytes : Nat
  deriving DecidableEq, Repr

/-- A request to a headgate unit (R238 to R245). -/
inductive GateOp where
  | acq (excl : Bool) | rel | handover (w : Word) | bind (w : Word)
  deriving DecidableEq, Repr

/-- A request to a headgate unit, with the sender's context for the order of R239. -/
structure GateReq where
  who : Who
  ctx : Nat
  va : Word
  target : Nat
  op : GateOp
  tenant : Nat
  deriving DecidableEq, Repr

/-- R257, R258: an element of a pool. -/
structure Elem where
  key : Nat
  val : Word
  time : Nat
  field : Nat
  seq : Nat
  ovd : Bool
  moved : Bool
  /-- the enabling of its pool to which it belongs (`PoolCfg.inc`) -/
  inc : Nat
  deriving DecidableEq, Repr

/-- A POOL request (R260). -/
inductive PoolOp where
  | put (key : Nat) (val : Word) | take (n : Bool) | peek | stat | cfg (w : Word)
  deriving DecidableEq, Repr

/-- R267: a summary of a pool at a weir: `period` is the cycle at which the period of its round begins, and `seq` the weir's next sequence
number then. -/
structure Summary where
  field : Nat
  period : Nat
  seq : Nat
  count : Nat
  firsts : List (Elem × Nat)
  free : Nat
  served : Nat
  parked : Nat
  oldest : Option Elem
  /-- the PPBOUND of the weir -/
  bound : Nat
  deriving DecidableEq, Repr

/-- Messages among the weirs (SYS). -/
inductive WeirMsg where
  | redirect (pool key : Nat) (val : Word) (who : Who) (origin : Nat) (next : List Nat)
  | announce (pool : Nat) (e : Elem) (from_ : Nat) (id : Nat)
  | announceAck (pool : Nat) (id : Nat)
  | summary (pool : Nat) (s : Summary)
  | move (pool : Nat) (es : List Elem) (from_ : Nat)
  /-- the first n elements of a move, of an enabling of the pool, have been received -/
  | moveAck (pool : Nat) (n inc : Nat)
  | pull (pool : Nat) (from_ : Nat) (who : Who) (ovd : Bool)
  | pullAns (pool : Nat) (who : Who) (e : Option Elem) (holder : Nat) (ovd : Bool)
  | collect (pool : Nat) (from_ : Nat) (who : Who)
  | collectAns (pool : Nat) (field : Nat) (who : Who) (puts takes flying : Nat)
  | cfg (pool : Nat) (w : Word) (who : Who) (tenant : Nat)
  deriving DecidableEq, Repr

/-- A command to a flume (R279, R285). -/
structure CopyCmd where
  who : Who
  kind : Nat          -- 0 cpy, 1 puts, 2 get
  src : Loc
  dst : Loc
  len : Nat
  ce : Bool
  lt : Bool
  guard : Option Loc
  unit : Nat
  signal : Option (Nat × Loc × Word)
  tenant : Nat
  peer : Option Nat
  deriving DecidableEq, Repr

/-- A copy under way. -/
structure CopyRun where
  cmd : CopyCmd
  len : Nat
  /-- bytes written, or sent to a peer -/
  pos : Nat
  /-- source bytes read and not yet written, from `pos` on -/
  buf : List Byte
  /-- the peers that the next piece has been asked of, and what they have answered, by place in the copy (GET) -/
  asked : List Nat
  got : List (Nat × Byte)
  /-- packets that a peer has not acknowledged (PUTS) -/
  acks : Nat
  signalled : Bool
  deriving DecidableEq, Repr

/-- A flume (R277): commands waiting for room, then copies in order; the first four run. `turn` is the copy whose turn of 4 KiB it is, and
the bytes that it has moved in it. -/
structure Flume where
  waiting : List CopyCmd
  copies : List CopyRun
  turn : Option (Who × Nat)
  deriving DecidableEq, Repr

/-- A COLL request at a sluice (R289). -/
structure CollReq where
  who : Who
  ctl : Word
  tval : Word
  src : Loc
  dst : Loc
  len : Nat
  tenant : Nat
  deriving DecidableEq, Repr

/-- A chunk of a collective between packages (R294). `kind` 0: a partial result to be merged, 1: a finished block
on its way round the ring, 2: a barrier token. -/
structure Chunk where
  vch : Nat
  tenant : Nat
  seq : Nat
  op : Nat
  len : Nat
  root : Nat
  b : Bool
  kind : Nat
  block : Nat
  off : Nat
  bytes : List Byte
  flags : Nat
  hops : Nat
  /-- the cycle at which it reached this package -/
  arrived : Nat
  deriving DecidableEq, Repr

/-- R400: what the sluice's log says of a chunk that it has taken up: while it is in progress, neither record 0 nor what is done with it. -/
structure ChunkLog where
  arrived : Nat
  taken : Nat
  done : Option Nat
  comm : Nat
  ch : Nat
  seq : Nat
  block : Option Nat
  step : Option Nat
  record0 : List Byte
  /-- the rank that the chunk was sent to, and the addresses that it was written at -/
  sent : Option Nat
  written : List Word
  deriving DecidableEq, Repr

/-- R295: the chunk that a sluice has taken up and not completed: the step of an instance that it serves, and its bytes and flags after the
merge. -/
structure Taken where
  comm : Nat
  seq : Nat
  step : Nat × Nat × Nat
  bytes : List Byte
  flags : Nat
  /-- the flags of the chunk that arrived -/
  inFlags : Nat
  deriving DecidableEq, Repr

/-- R295, R400: a port's sluice: the communicators of its bulk and its urgent register set, those that took up a chunk last; the last 16 chunks
taken up; and the one in progress. -/
structure Sluice where
  bulk : Option Nat
  urgent : Option Nat
  log : List ChunkLog
  taken : Option Taken
  deriving DecidableEq, Repr

/-- A sluice that has taken up nothing. -/
def Sluice.reset : Sluice := ⟨none, none, [], none⟩

/-- R288: a communicator. -/
structure Comm where
  en : Bool
  urg : Bool
  brk : Bool
  bcause : Nat
  npk : Nat
  vch : Nat
  seq : Nat
  rank : Nat
  members : List Nat
  locals : List Nat
  tenant : Nat
  /-- chunks sent for which no credit has come back (R295) -/
  out : Nat
  /-- chunks in the receive buffer of the channel -/
  staged : List Chunk
  /-- local COLL requests that wait for acceptance -/
  reqs : List CollReq
  deriving DecidableEq, Repr

/-- An instance of a collective at this package (R291 to R293). `todo` are the local steps still to be taken. -/
structure Inst where
  comm : Nat
  seq : Nat
  ctl : Word
  reqs : List CollReq
  /-- (kind, block, offset) of the chunks this package has still to send or to write -/
  todo : List (Nat × Nat × Nat)
  flags : Nat
  /-- 0 running, 1 complete, 2 broken -/
  status : Nat
  cause : Nat
  waiters : List Who
  /-- the cycle at which the sluice accepted it -/
  since : Nat
  /-- R98: source bytes read with the rest of their word before the chunk that they belong to: the member's place in `reqs`, the offset, the byte -/
  ahead : List (Nat × Nat × Byte)
  /-- R98: destination bytes, by offset, that a member writes with the rest of their word -/
  held : List (Nat × Byte)
  deriving DecidableEq, Repr

/-- Messages (R17). -/
inductive Msg where
  | acc (a : Acc)
  | rsp (w : Who) (r : Rsp)
  | inv (i : Inv)
  | raw (words : List Word) (sender : Word) (chan : Nat)
  | register (h : Word) (from_ : Word)
  | awaitReq (h : Word) (w : Who)
  | hstatReq (h : Word) (w : Who)
  | settle (h : Word) (st : PState) (member : Bool)
  /-- R218: an invocation has been accepted; the promise is the invocation's own -/
  | accept (path : List (Word × Nat)) (promise : Word)
  | collapse (h : Word) (st : PState)
  | gate (r : GateReq)
  | gateAns (w : Who) (r : Rsp)
  | handGrant (va : Word) (target : Nat) (plot task : Nat)
  | handAns (target : Nat) (ok : Bool) (plot task : Nat)
  | bindChange (r : Region) (add : Bool) (field : Nat) (w : Who)
  | bindAck (w : Who)
  | barArrive (w : Who) (rect : Word)
  | pool (w : Who) (pool : Nat) (op : PoolOp) (tval : Word)
  | weir (m : WeirMsg)
  | unput (pool : Nat) (e : Elem)
  | poolAns (w : Who) (r : Rsp) (pool : Nat) (e : Elem)
  | copy (c : CopyCmd) (flume : Nat)
  | copyDone (w : Who) (failed : Bool)
  /-- a piece of a PUTS at the peer, with the sectors it completes -/
  | copyOut (flume : Nat) (w : Who) (bytes : List (Nat × Byte)) (full : List Nat)
  | copyAck (flume : Nat) (w : Who) (ok : Bool)
  /-- a piece asked of the peer by a GET: its place in the copy and its target addresses -/
  | copyAsk (flume : Nat) (w : Who) (pos : Nat) (addrs : List Nat)
  | copyIn (flume : Nat) (w : Who) (pos : Nat) (bytes : Option (List Byte))
  | putsSignal (flume : Nat) (w : Who) (op addr : Nat) (operand : Word)
  | coll (r : CollReq)
  | collw (w : Who) (token : Word)
  | chunk (c : Chunk)
  | breakNotice (vch cause : Nat)
  | toAgent (i : Inv)
  | overflow (plot chan : Nat) (q : Queued)
  | recOverflow (h : Word) (i : Inv) (n : Nat)
  | dirForward (i : Inv)
  | chanBlock (plot chan : Nat) (blk : Bool)
  | tlbInv (va : Option Nat) (w : Who) (field : Nat) (tenant : Nat)
  | sysAck (w : Who)
  | dirMap (old new : Word) (w : Who)
  | join (who : Who) (ctx : Nat) (leader : Nat) (tval : Word)
  /-- R203: every plot of a package that is the partition's has ended the quantum -/
  | quantumEnd
  deriving DecidableEq, Repr

/-- A packet: its class, sender, receiver, tenant (R21) and body. -/
structure Packet where
  cls : Cls
  src : Endpoint
  dst : Endpoint
  tenant : Nat
  body : Msg
  deriving DecidableEq, Repr

/-- What leaves a plot once the accesses before it are performed (R348 to R350). -/
inductive Leaving where
  | packet (k : Packet)
  | invocation (i : Inv)
  deriving DecidableEq, Repr

/-- Something that waits to leave: the task, and the accesses and copies still to be performed. -/
structure Held where
  task : Nat
  waits : List Nat
  what : Leaving
  deriving DecidableEq, Repr

/-- A plot. -/
structure Plot where
  tenant : Nat
  ctxs : Sparse Ctx
  istore : Sparse W32
  istoreBad : Sparse Bool
  bufs : Bufs
  inq : Sparse (List Word)
  outq : Sparse (List Slot)
  chans : Sparse Chan
  queues : Sparse (List (Nat × Queued))
  outbox : List Held
  objs : Sparse Obj
  records : Sparse Record
  /-- a tile's distance from its group's base, and the groups by base (R133) -/
  tiles : Sparse Nat
  groups : Sparse Group
  engine : Engine
  divBusy : Option Nat
  utlb : List Tlb
  /-- translations asked for: the task, and the page -/
  xreq : List (Nat × Nat)
  csr : PlotCsrs
  sched : Sched
  thr : Sparse Thr
  tmpl : Template
  mismatch : Nat
  deriving DecidableEq, Repr

/-- An entry of the memory-side agent's lists (R22, R179, R207, R230). -/
inductive AgentEnt where
  | chan (plot chan : Nat) (q : Queued)
  | record (h : Word) (i : Inv) (n : Nat)
  | object (oref : Word) (i : Inv)
  deriving DecidableEq, Repr

/-- R253: an active barrier. -/
structure Barrier where
  rect : Word
  count : Nat
  gen : Nat
  waiters : List Who
  deriving DecidableEq, Repr

/-- A take at a weir. -/
structure Take where
  who : Who
  pool : Nat
  n : Bool
  /-- a pull is outstanding -/
  pulling : Bool
  /-- it waits for one of the 16 pulls (R269) -/
  queued : Bool
  /-- its pull was refused: it waits for the next summary or announcement (R269) -/
  refused : Bool
  /-- parked after emptiness agreement -/
  parked : Bool
  /-- the quantum in which it was requested (R275) -/
  since : Nat
  /-- answers of the collects under way: (field, puts, takes, flying) -/
  first : List (Nat × Nat × Nat × Nat)
  second : List (Nat × Nat × Nat × Nat)
  collecting : Nat
  deriving DecidableEq, Repr

/-- A put that waits for the acknowledgements of its announcement (R262). -/
structure PendingPut where
  id : Nat
  pool : Nat
  /-- the task of the put; none for an element that is put back (R274) -/
  who : Option Who
  elem : Elem
  origin : Nat
  left : Nat
  deriving DecidableEq, Repr

/-- A pool's shard at one weir. -/
structure Shard where
  elems : List Elem
  /-- summaries received and not in a complete round -/
  incoming : List Summary
  /-- the last complete round -/
  round : List Summary
  /-- announced elements with the weir that holds each and the sequence number of its announcement -/
  announced : List (Elem × Nat × Nat)
  puts : Nat
  takes : Nat
  served : Nat
  /-- elements sent to another weir and not acknowledged -/
  moving : List Elem
  nextCfg : Option Word
  deriving DecidableEq, Repr

/-- R256: what all sixteen weirs hold about a pool. -/
structure PoolCfg where
  en : Bool
  owner : Nat
  bound : Nat
  age : Nat
  per : Nat
  /-- how often the pool has been disabled (R266) -/
  inc : Nat
  deriving DecidableEq, Repr

/-- The weir of a field. -/
structure Weir where
  cfgs : Sparse PoolCfg
  shards : Sparse Shard
  seq : Nat
  takes : List Take
  pending : List PendingPut
  redirects : Nat
  deriving DecidableEq, Repr

/-- A field service block (R22). -/
structure Field where
  tlb : List Tlb
  regions : List Region
  agent : List AgentEnt
  dir : List (Word × Word)
  barriers : List Barrier
  gens : List (Word × Nat)
  weir : Weir
  deriving DecidableEq, Repr

/-- R299 to R302: one channel of a connection. -/
structure Channel where
  sendSeq : Nat
  ackSeq : Nat
  recvSeq : Nat
  /-- chunk credits to be returned (CRED) -/
  cred : Nat
  kept : List (Nat × Packet)
  unacked : List (Nat × Packet × Nat)
  deriving DecidableEq, Repr

/-- A Lintil connection. `state`: 0 opening, 1 open, 2 closed, 3 failed. -/
structure Conn where
  peer : Nat
  tenant : Nat
  port : Nat
  state : Nat
  local_ : Nat
  remote : Nat
  chans : Sparse Channel
  queue : List Packet
  /-- R299: the channel whose packet left the queue last, of those that take turns -/
  turn : Nat
  /-- R300: accesses sent and not answered -/
  asked : List Packet
  window : Nat
  srtt : Nat
  cutLeft : Nat
  timeouts : Nat
  lastTse : Nat
  spilled : Bool
  used : Nat
  /-- R301: the place of the host area that a spilled state has -/
  place : Nat
  /-- R300: the cycle at which the open frame was sent last -/
  asking : Nat
  deriving DecidableEq, Repr

/-- R298: a frame; `kind` as the header gives it. -/
structure Frame where
  kind : Nat
  spkg : Nat
  dpkg : Nat
  ten : Nat
  conn : Nat
  ch : Nat
  seq : Nat
  ack : Nat
  ach : Nat
  ts : Nat
  tse : Nat
  cred : Nat
  len : Nat
  body : Option Packet
  pause : Bool
  deriving DecidableEq, Repr

/-- R297, R302: what PORT.CFG sets for a port. -/
structure PortCfg where
  mac : Nat
  rtt : Nat
  deriving DecidableEq, Repr

/-- The Lintil side of the headworks. -/
structure Link where
  ports : Sparse PortCfg
  ethertype : Nat
  routes : List (Nat × Nat)
  configured : Bool
  spillArea : Option (Nat × Nat)
  conns : List Conn
  rx : List Frame
  tx : List Frame
  dropped : Nat
  /-- R303: the tenant-mismatch counter of each port -/
  mismatch : Sparse Nat
  /-- R301, R375: connection states on their way to the host area over CXL.cache: the host address and the bytes -/
  spills : List (Nat × List Byte)
  deriving DecidableEq, Repr

/-- R380: a partition of this package. -/
structure Part where
  index : Nat
  tenant : Nat
  packages : List Nat
  rects : List (Nat × Nat × Nat × Nat × Nat)
  granules : List Nat
  cisternSlots : Nat
  cisternBase : Nat
  proxy : Nat
  pcont : Word
  detctl : Word
  detq : Word
  dying : Option Nat
  /-- the plots that have ended the quantum -/
  endedPlots : List Nat
  quantum : Nat
  /-- R203: this package's end of the quantum has been told to the partition's other packages -/
  told : Bool
  /-- R367: the DATA segments that images have been loaded into -/
  segments : List (Nat × List Byte)
  deriving DecidableEq, Repr

/-- R370: the target of a launch: an OREF, or the plots of a rectangle word (R211). -/
inductive LaunchTo where
  | object (oref : Word)
  | plots (rect : Word)
  deriving DecidableEq, Repr

/-- R367: a LAUNCH record: target, channel, arguments. -/
structure Launch where
  to_ : LaunchTo
  chan : Nat
  args : List Word
  deriving DecidableEq, Repr

/-- R367: an image, its records in order. The spec gives no byte layout of the file: the records are given, and the bytes that
the digest of R384 is taken over. -/
structure Image where
  bytes : List Byte
  text : List W32
  abuf : List Byte
  wbuf : List Byte
  /-- slot, generation, containment -/
  objs : List (Nat × Nat × Option Nat)
  /-- channel number and entry bits [31:0] -/
  chans : List (Nat × W32)
  /-- base and bytes of the data segment -/
  data : Nat × List Byte
  /-- in source order -/
  launches : List Launch
  /-- labels, .equ symbols, .func extents and source lines, by name, for stalan -/
  syms : List (String × Nat × Nat)
  deriving DecidableEq, Repr

/-- R380: a management command's payload. -/
inductive Payload where
  | none
  | create (tenant : Nat) (packages : List Nat) (rects : List (Nat × Nat × Nat × Nat × Nat)) (granules : List Nat)
      (slots base : Nat) (proxy : Nat) (pcont : Word)
  | destroy (tenant : Nat)
  | setDet (tenant : Nat) (detctl detq : Word)
  | setCont (tenant : Nat) (pcont : Word)
  | commSet (tenant id : Nat) (entry : Word) (members locals : List Nat)
  | windowMap (granule hbm tenant : Nat)
  | imageLoad (tenant : Nat) (image : Image) (plots : List Nat)
  | resync (addr len : Nat)
  | portCfg (port : Nat) (mac : Nat) (ethertype rtt : Nat) (routes : List (Nat × Nat)) (spill : Option (Nat × Nat))
  | powerCap (watts : Nat)
  | evqSet (addr vector : Nat)
  | pkgId (id : Nat)
  deriving DecidableEq, Repr

/-- R380: the management mailbox. -/
structure Mailbox where
  go : Bool
  code : Nat
  done : Bool
  status : Nat
  payload : Payload
  reply : List Word
  deriving DecidableEq, Repr

/-- R387: the event queue. -/
structure Evq where
  addr : Option Nat
  vector : Nat
  pos : Nat
  phase : Bool
  unread : Nat
  lost : Word
  deriving DecidableEq, Repr

/-- What the host does at the package's link. -/
inductive HostOp where
  | windowRead (addr n : Nat)
  | windowWrite (addr : Nat) (bytes : List Byte)
  /-- an 8-byte read of BAR0, and a posted 8-byte write -/
  | barRead (off : Nat)
  | barWrite (off : Nat) (w : Word)
  /-- posted writes to a partition page (R377), as their decoded addresses -/
  | slotWrite (part slot word : Nat) (w : Word)
  | release (part : Nat) (h : Word)
  /-- posted writes of a command's payload at BAR0 offset 0x1000; the spec gives its fields and no layout (R380) -/
  | payload (p : Payload)
  /-- an SPDM request over DOE, its bytes (R385) -/
  | spdm (msg : List Byte)
  /-- a read and a write of a word of configuration space (R375) -/
  | configRead (n : Nat)
  | configWrite (n : Nat) (w : W32)
  /-- R367: the runtime's launches of an image through a partition's page, once IMAGE.LOAD has succeeded; and its wait until a slot is free -/
  | launch (part : Nat) (ls : List Launch)
  | await (part slot : Nat)
  /-- R367, R380: the runtime's wait until the mailbox runs no command; and what it knows of another package: the image's plots are loaded -/
  | awaitCmd
  | loadedAt (pkg : Nat)
  /-- the host marks event records read (R387); the spec does not say how it does so -/
  | eventsRead (n : Nat)
  deriving DecidableEq, Repr

/-- What a snapshot shows (R330, R396, R400, R402): of a plot the store, the tasks, the turnout and the held-gate tables; of its field the
barriers; the weirs; communicators and a port's sluice; the connections (R302); bytes of global memory. -/
inductive Snap where
  | store | tasks | turnout | gates | barriers | weirs | links
  | comm (id : Nat)
  | sluice (port : Nat)
  | memory (va n : Nat)
  deriving DecidableEq, Repr

/-- R400: a register set of a sluice. -/
structure SluiceSet where
  comm : Nat
  seq : Nat
  running : Bool
  ch : Nat
  credits : Nat
  staged : Nat
  deriving DecidableEq, Repr

/-- R302: what is shown of a connection: the peer, the port, the state, the window and the smoothed RTT. -/
structure ConnView where
  peer : Nat
  port : Nat
  state : Nat
  window : Nat
  srtt : Nat
  deriving DecidableEq, Repr

/-- R396: what a weir shows of a pool: its configuration, the entries in order, and the element of Tround. -/
structure WeirView where
  field : Nat
  pool : Nat
  en : Bool
  bound : Nat
  age : Nat
  per : Nat
  entries : List (BitVec 128)
  round : Option (BitVec 128)
  deriving DecidableEq, Repr

/-- What the debugger asks of a plot's debug port (R330, R331). A context number of 4 or more is a spilled task: the image of that number
less 4. -/
inductive DbgOp where
  | halt (plot ctx : Nat) | resume (plot ctx : Nat) | deliver (plot ctx : Nat) | stepOne (plot ctx : Nat)
  | regRead (plot ctx reg : Nat) | regWrite (plot ctx reg : Nat) (val : V256) (fe : Option Bool)
  | csrRead (plot ctx csr : Nat) | csrWrite (plot ctx csr : Nat) (val : Word)
  | bufRead (plot buf off n : Nat) | bufWrite (plot buf off : Nat) (bytes : List Byte) (fe : Option Bool)
  | snapshot (plot : Nat) (kind : Snap) | istoreWrite (plot addr : Nat) (w : W32)
  | template (plot : Nat) (t : Template)
  deriving DecidableEq, Repr

/-- A debug operation of a session authorised for a tenant. -/
structure DbgReq where
  tenant : Nat
  op : DbgOp
  deriving DecidableEq, Repr

/-- What the debug port answers. A snapshot is of one cycle (R330). -/
inductive DbgReply where
  | done
  | refused
  | register (val : V256) (full : Bool)
  | csr (w : Word)
  | bytes (bs : List Byte) (full : List Bool)
  | store (cycle : Nat) (words : Sparse W32)
  /-- the channel entries and their queues (R14, R178), the contexts that hold a task, the images, and the tasks that have started (R402) -/
  | tasks (cycle : Nat) (chans : Sparse Chan) (queues : Sparse (List (Nat × Queued))) (ctxs : List (Nat × Ctx)) (images : List Ctx) (started : List Started)
  | turnout (cycle : Nat) (records : Sparse Record) (logs : Sparse RecLog)
  | gates (cycle : Nat) (tables : List (Nat × List Gate))
  | barriers (cycle : Nat) (bs : List Barrier)
  | weirs (cycle : Nat) (ws : List WeirView)
  | comm (cycle : Nat) (entry : Nat) (members locals : List Nat)
  | sluice (cycle : Nat) (bulk urgent : Option SluiceSet) (log : List ChunkLog)
  | links (cycle : Nat) (conns : List ConnView)
  /-- bytes, and whether the sector of each is full -/
  | memory (cycle : Nat) (bytes : List (Byte × Bool))
  deriving DecidableEq, Repr

/-- R385: the SPDM session: what has been agreed, and the messages that signatures are made over: those of the negotiation, those about
digests and certificates since, and those about measurements since the last signature. -/
structure Spdm where
  version : Bool
  caps : Bool
  algs : Bool
  agreed : List Byte
  identity : List Byte
  measured : List Byte
  deriving DecidableEq, Repr

/-- HBM and host memory. `fe`: the empty sectors; `bad`: 8-byte words that read uncorrectable; `gate`: the sectors
that hold an active headgate record (R236). -/
structure Memory where
  hbm : Sparse Byte
  fe : Sparse Bool
  bad : Sparse Bool
  gate : Sparse Bool
  host : Sparse Byte
  deriving DecidableEq, Repr

/-- R203, R275: what waits for the end of a quantum: the requesting plot and its retirement number. -/
structure Deferred where
  plot : Nat
  order : Nat
  packet : Packet
  deriving DecidableEq, Repr

/-- The host side: partitions, windows, mailbox, events, start-up. -/
structure HostIf where
  parts : List Part
  /-- partition pages: (index × 63 + slot) × 16 + word -/
  slots : Sparse Word
  /-- R378: the words of a slot as they were when the host wrote CTL with GO = 1 -/
  taken : Sparse Word
  mailbox : Mailbox
  windows : Sparse (Option (Nat × Nat))
  granules : Sparse Nat
  evq : Evq
  /-- R387: the MSI-X vectors signalled, in order -/
  msix : List Nat
  meas : Sparse (BitVec 384)
  powerCap : Nat
  throttle : Nat
  spdm : Spdm
  /-- R383: the CXL link has trained -/
  cxlUp : Bool
  ops : List HostOp
  replies : List (List Byte)
  /-- result status words that wait for the write before them: (address, word) (R379) -/
  results : List (Nat × Word)
  /-- host accesses not yet complete on CXL, with the sender and its tenant (R347, R21) -/
  cxl : List (Acc × Endpoint × Nat)
  mismatch : Nat
  /-- R375: the writes of configuration space, the latest first -/
  config : List (Nat × W32)
  deriving DecidableEq, Repr

/-- The model's own: which step comes next. -/
inductive Move where
  | event (i : Instr)
  | plot (p : Nat)
  | wait (n : Nat)
  deriving DecidableEq, Repr

end Sys2Proof.Machine
end

