-- ==== Sys2Proof/Machine/State.lean ====
section
/-!
DEFINITION. The state of one package, its accessors, the outcomes of a step, and the state after reset.
-/

namespace Sys2Proof.Machine

open Sys2Proof

/-- R47: the empty statistic record: E set, mean 0x7FE0_0000. -/
def emptyRecord : S128 := (1#128 <<< 96) ||| (0x7FE00000#128 <<< 32)

/-- R181: the register files at task start: zero and the empty record, every register full. -/
def Regs.reset : Regs := { g := [], v := [], r := [], empt := [], poison := [], badPar := [] }

/-- R50: the reset value of VFMT, P = 4. -/
def vfmtReset : Word := 4

/-- R181, R306: the CSRs of a context at reset and at task start; where the map gives no reset value, 0
(DESIGN CHOICE, log entry 3). -/
def Csrs.reset : Csrs :=
  { taskid := 0, taskpri := 0, epc := 0, tcause := 0, tval := 0, tstat := 0, tscratch := 0, fpcsr := 0,
    vfmt := vfmtReset, mrp := 0, mtcfg := 0, rngkeylo := 0, rngkeyhi := 0, rngctr := 0, bka := [], wpa := [],
    wpm := [], dbgctl := 0, thsel := 0, chsel := 0, objsel := 0 }

/-- No furrow. -/
def Furrow.none : Furrow :=
  { lead := false, followers := [], leader := .none, ofs := 0, queue := [], lcause := 0, stall := .none, resume := .none }

/-- An empty context (R382). -/
def Ctx.empty : Ctx :=
  { live := false, ended := false, sup := false, pc := 0, regs := Regs.reset, csr := Csrs.reset,
    task := ⟨0, 0, 0, 0⟩, pair := .none, second := 0, multi := [], outst := [], hold := .none, block := .none,
    due := ⟨.none, [], .none⟩, gates := [], copies := [], mul := MulWork.none, furrow := Furrow.none, halted := false,
    haltReq := false, dbgStep := false, hotTrap := .none, handlers := 0, bsup := false, watched := (0, 0), quantum := .none, readySince := 0, issued := false,
    lastIssue := 0, xfault := .none, pendTrap := .none }

/-- R97, R382: buffers zero, every word full. -/
def Bufs.reset : Bufs :=
  { a := [], w := [], c := [], ea := [], ew := [], ec := [], errs := [], corrections := [], rebuilding := [] }

/-- R133: a 4 × 8 group of type f, not live. -/
def Group.reset : Group := ⟨0, 0, false, false, .none⟩

/-- R178: a channel entry after reset. -/
def Chan.reset : Chan :=
  { ov := false, en := false, blk := false, pri := 0, objv := false, slot := 0, cen := false, cact := 0, epc := 0,
    unblocked := 0, reading := .none, recvs := [] }

/-- R321: an object slot after reset. -/
def Obj.reset : Obj := ⟨false, false, false, 0, 0⟩

/-- R205: a free record of generation 0. -/
def Record.reset : Record :=
  { gen := 0, st := .free, owner := .none, queue := [], away := [], out := [], asks := [], seq := 0, members := 0, left := 0, through := [],
    via := 0, registered := false, viaAt := 0 }

/-- R333: a threshold class after reset. -/
def Thr.reset : Thr := ⟨0, 0, 0, false⟩

/-- R331: the template; no reset value given: 0 (DESIGN CHOICE, log entry 3). -/
def Template.reset : Template := ⟨[], [], [], 0, 0⟩

/-- R306, R201: the CSRs of a plot after reset. -/
def PlotCsrs.reset : PlotCsrs := ⟨0, 0, 4096, 0, 0, 0, 0, 0, 0⟩

/-- The scheduling hardware after reset; the first TASKID is 1 (DEDUCED, log entry 5). -/
def Sched.reset : Sched :=
  { serial := 1, last := [], images := [], places := [], spilling := .none, lastSpillFull := .none,
    retired := 0, ended := false, floorWaiter := .none, asleep := false, sweep := false, idleSince := 0 }

/-- R382, R383: a plot after reset. -/
def Plot.reset : Plot :=
  { tenant := 0, ctxs := [], istore := [], istoreBad := [], bufs := Bufs.reset, inq := [], outq := [], chans := [],
    queues := [], outbox := [], objs := [], records := [], tiles := [], groups := [], engine := ⟨.none, []⟩, divBusy := .none,
    utlb := [], xreq := [], csr := PlotCsrs.reset, sched := Sched.reset, thr := [], tmpl := Template.reset,
    mismatch := 0 }

/-- R256: a disabled pool, owned by no partition; PPBOUND 64, PER 4. -/
def PoolCfg.reset : PoolCfg := ⟨false, 0, 64, 0, 4, 0⟩

/-- A pool's empty shard. -/
def Shard.reset : Shard :=
  { elems := [], incoming := [], round := [], announced := [], puts := 0, takes := 0, served := 0, moving := [],
    nextCfg := .none }

/-- An empty weir. -/
def Weir.reset : Weir :=
  { cfgs := [], shards := [], seq := 0, takes := [], pending := [], redirects := 0 }

/-- A field service block after reset. -/
def Field.reset : Field :=
  { tlb := [], regions := [], agent := [], dir := [], barriers := [], gens := [], weir := Weir.reset }

/-- R288, R382: a communicator entry with EN = 0. -/
def Comm.reset : Comm :=
  { en := false, urg := false, brk := false, bcause := 0, npk := 0, vch := 0, seq := 0, rank := 0, members := [],
    locals := [], tenant := 0, out := 0, staged := [], reqs := [] }

/-- R297, R302: a port before PORT.CFG: target RTT 15,000; MAC address 0 (DESIGN CHOICE, log entry 3). -/
def PortCfg.reset : PortCfg := ⟨0, 15000⟩

/-- The Lintil side after reset: EtherType 0x88B5, no route (R297, R299). -/
def Link.reset : Link :=
  { ports := [], ethertype := 0x88B5, routes := [], configured := false, spillArea := .none, conns := [], rx := [],
    tx := [], dropped := 0, mismatch := [], spills := [] }

/-- The host side after reset (17). The throttle level has no reset value in the spec: 0 (DESIGN CHOICE, log
entry 3); the measurements: 0 (DESIGN CHOICE, log entry 4). -/
def HostIf.reset : HostIf :=
  { parts := [], slots := [], taken := [], mailbox := ⟨false, 0, false, 0, .none, []⟩, windows := [], granules := [],
    evq := ⟨.none, 0, 0, false, 0, 0⟩, msix := [], meas := [], powerCap := 6800, throttle := 0,
    spdm := ⟨false, false, false, [], [], []⟩, cxlUp := false, ops := [], replies := [], results := [], cxl := [], mismatch := 0, config := [] }

/-- Memories after reset: zero, every sector full (R99, R382). Host memory is outside the device; a byte
that nothing has written reads 0 (DESIGN CHOICE, log entry 2). -/
def Memory.reset : Memory := ⟨[], [], [], [], []⟩

/-- The state of the package. -/
structure State where
  /-- R306: CYCLE, equal on every plot -/
  cycle : Word
  /-- R381: the package id -/
  pkg : Nat
  /-- R383: STATE -/
  stage : Nat
  /-- the model's own: plot (PLOTID[19:0]) and context of the instruction under execution -/
  cur : Nat × Nat
  /-- the model's own: which step comes next (log entry 7) -/
  agenda : List Move
  /-- the model's own: the serial number of the next access -/
  serial : Nat
  /-- the model's own: k steps a multiply runs before it looks at R139 again (log entry 8) -/
  budget : List Nat
  plots : Sparse Plot
  /-- packets under way, in the order they were sent (R18) -/
  net : List Packet
  mem : Memory
  /-- R106, R344: writes of `net` whose senders have the acceptance, in the order in which they reached the place that serves them -/
  checked : List (Who × Endpoint)
  /-- requests at headgate units, in the order of R239 -/
  gateQ : List GateReq
  /-- synchronising loads parked at base dies (R103), with their tenant -/
  parked : List (Acc × Nat)
  /-- synchronising loads parked at remote ports (R103), with the plot and tenant -/
  parkedPort : List (Acc × Nat × Nat)
  /-- packets to be sent again after 256 cc, with the cycle (R103, R239) -/
  resend : List (Nat × Packet)
  flumes : Sparse Flume
  comms : Sparse Comm
  insts : List Inst
  /-- the model's own (log entry 68): the squares, as plot, buffer and number, that fail the self-test of stage 2 (R383) -/
  selfTest : List (Nat × Nat × Nat)
  /-- R402: the logs of promise records, by plot and slot -/
  recLogs : Sparse RecLog
  /-- R402: the tasks that have started, by plot, in start order -/
  started : Sparse (List Started)
  /-- the sluices by port (R295, R400) -/
  sluices : Sparse Sluice
  link : Link
  fields : Sparse Field
  host : HostIf
  deferred : List Deferred
  dbgOps : List DbgReq
  dbgReplies : List DbgReply
  /-- tenant mismatches counted at receivers other than plots, ports and the host (R21) -/
  mismatch : Nat
  deriving DecidableEq, Repr

/-- Why the machine stops. -/
inductive Fault where
  /-- Raised by `step` when the state names, as the plot to issue on, a number that is no plot (R3). No run
  reaches such a state. Safe: the machine stops. -/
  | noSuchPlot (p : Nat)
  deriving DecidableEq, Repr

/-- Why an instruction has no meaning. -/
inductive Refusal where
  /-- Raised by `exec` for an instruction the model does not model. Safe: the machine stops. -/
  | notModelled (mnemonic : String)
  deriving DecidableEq, Repr

/-- The outcome of a step. -/
abbrev Res := Host.Outcome State Fault Refusal

/-- The machine right after reset: R383 stage 3 has ended, CYCLE = 0 (log entry 1). -/
def State.reset : State :=
  { cycle := 0, pkg := 0, stage := 3, cur := (0, 0), agenda := [], serial := 0, budget := [], plots := [],
    net := [], mem := Memory.reset, checked := [], gateQ := [], parked := [], parkedPort := [], resend := [], flumes := [],
    comms := [], insts := [], selfTest := [], recLogs := [], started := [], sluices := [], link := Link.reset, fields := [],
    host := HostIf.reset, deferred := [], dbgOps := [], dbgReplies := [], mismatch := 0 }

end Sys2Proof.Machine
end

