-- ==== Sys2Proof/Machine/Flags.lean ====
section
/-!
DEFINITION. Number formats, exact values, Round with its flags, and the arithmetic rules of 02. Operands are
taken to exact values, computed exactly, and rounded once.
-/

namespace Sys2Proof.Machine

open Sys2Proof

/-- R41, R49: the sticky flags as FPCSR bits. -/
def flNV : Nat := 1
/-- divide-by-zero -/
def flDZ : Nat := 2
/-- overflow -/
def flOF : Nat := 4
/-- underflow -/
def flUF : Nat := 8
/-- inexact -/
def flNX : Nat := 16
/-- saturated -/
def flSAT : Nat := 32

/-- The element formats (R26, R30, R34, R35). -/
inductive Fmt where
  | int (w : Nat) (signed : Bool)
  /-- exponent bits and trailing bits -/
  | ieee (eb tb : Nat)
  /-- signed f8 of precision `p`, with infinities if `x` -/
  | f8p (p : Nat) (x : Bool)
  /-- unsigned f8 -/
  | f8z (p : Nat) (x : Bool)
  deriving DecidableEq, Repr

/-- binary16, binary32, binary64 -/
def fmtH : Fmt := .ieee 5 10
/-- binary32 -/
def fmtF : Fmt := .ieee 8 23
/-- binary64 -/
def fmtD : Fmt := .ieee 11 52

/-- R26, R30, R34, R35: the format of a type code, with the f8 precision and infinity option in force. -/
def fmtOf (ty p : Nat) (x : Bool) : Fmt :=
  match ty with
  | 0 => .int 8 true | 1 => .int 16 true | 2 => .int 32 true | 3 => .int 64 true
  | 4 => .int 8 false | 5 => .int 16 false | 6 => .int 32 false | 7 => .int 64 false
  | 8 => fmtH | 9 => fmtF | 10 => fmtD
  | 11 => .f8p p x
  | _ => .f8z p x

/-- The bits of an element. -/
def Fmt.width : Fmt → Nat
  | .int w _ => w
  | .ieee eb tb => 1 + eb + tb
  | _ => 8

/-- The trailing significand bits. -/
def Fmt.tb : Fmt → Nat
  | .ieee _ tb => tb
  | .f8p p _ => p - 1
  | .f8z p _ => p - 1
  | .int _ _ => 0

/-- The exponent bits. -/
def Fmt.eb : Fmt → Nat
  | .ieee eb _ => eb
  | .f8p p _ => 8 - p
  | .f8z p _ => 9 - p
  | .int _ _ => 0

/-- R30, R34, R35: the exponent bias. -/
def Fmt.bias : Fmt → Nat
  | .ieee eb _ => 2 ^ (eb - 1) - 1
  | f => 2 ^ (f.eb - 1)

/-- A float format has infinities. -/
def Fmt.hasInf (neg : Bool) : Fmt → Bool
  | .ieee _ _ => true
  | .f8p _ x => x
  | .f8z _ x => x && !neg
  | .int _ _ => false

/-- The format's values are never negative. -/
def Fmt.unsigned : Fmt → Bool
  | .int _ s => !s
  | .f8z _ _ => true
  | _ => false

/-- R31: the canonical NaN. -/
def Fmt.nan : Fmt → Nat
  | .ieee eb tb => (2 ^ (eb + 1) - 1) * 2 ^ (tb - 1)
  | .f8p _ _ => 0x80
  | .f8z _ _ => 0xFF
  | .int _ _ => 0

/-- The bit of a sign. -/
def Fmt.signBit (f : Fmt) (neg : Bool) : Nat :=
  match f with
  | .ieee eb tb => if neg then 2 ^ (eb + tb) else 0
  | .f8p _ _ => if neg then 0x80 else 0
  | _ => 0

/-- The code of the largest finite value of a sign. -/
def Fmt.maxCode (f : Fmt) (neg : Bool) : Nat :=
  match f with
  | .ieee eb tb => f.signBit neg + (2 ^ eb - 1) * 2 ^ tb - 1
  | .f8p _ x => f.signBit neg + (if x then 0x7E else 0x7F)
  | .f8z _ x => if x then 0xFD else 0xFE
  | .int w s => if s then (if neg then 2 ^ (w - 1) else 2 ^ (w - 1) - 1) else (if neg then 0 else 2 ^ w - 1)

/-- The code of an infinity. -/
def Fmt.infCode (f : Fmt) (neg : Bool) : Nat :=
  match f with
  | .ieee eb tb => f.signBit neg + (2 ^ eb - 1) * 2 ^ tb
  | .f8p _ _ => f.signBit neg + 0x7F
  | _ => 0xFE

/-- An exact value: NaN (signalling or not), infinity, or ±m × 2^e; a zero keeps its sign. -/
inductive Num where
  | nan (sig : Bool)
  | inf (neg : Bool)
  | fin (neg : Bool) (m : Nat) (e : Int)
  deriving DecidableEq, Repr

/-- The number of bits of `m`. -/
def bitLen (m : Nat) : Nat := if m = 0 then 0 else Nat.log2 m + 1

/-- A body of exponent and trailing field as a value (R30, R34, R35). -/
def Fmt.body (f : Fmt) (neg : Bool) (b : Nat) : Num :=
  let ex := b / 2 ^ f.tb
  let fr := b % 2 ^ f.tb
  if ex = 0 then .fin neg fr (1 - f.bias - f.tb) else .fin neg (2 ^ f.tb + fr) (ex - f.bias - f.tb)

/-- The value of a code. -/
def Fmt.value (f : Fmt) (code : Nat) : Num :=
  match f with
  | .int w s =>
    let c := code % 2 ^ w
    if s && decide (2 ^ (w - 1) ≤ c) then .fin true (2 ^ w - c) 0 else .fin false c 0
  | .ieee eb tb =>
    let neg := code / 2 ^ (eb + tb) % 2 == 1
    let b := code % 2 ^ (eb + tb)
    if b / 2 ^ tb = 2 ^ eb - 1 then
      if b % 2 ^ tb = 0 then .inf neg else .nan (decide (b % 2 ^ tb < 2 ^ (tb - 1)))
    else f.body neg b
  | .f8p _ x =>
    let neg := code / 128 % 2 == 1
    let b := code % 128
    if neg && b == 0 then .nan false else if x && b == 0x7F then .inf neg else f.body neg b
  | .f8z _ x =>
    let b := code % 256
    if b = 0xFF then .nan false else if x && b == 0xFE then .inf false else f.body false b

/-- R32: a subnormal operand of h, f or d reads as a zero of its sign under FTZ. -/
def Fmt.valueFtz (f : Fmt) (ftz : Bool) (code : Nat) : Num :=
  match f, f.value code with
  | .ieee _ tb, .fin neg m e => if ftz && decide (m < 2 ^ tb) then .fin neg 0 e else .fin neg m e
  | _, n => n

/-- The magnitude m × 2^e rounded in the direction of a mode (R39) to a multiple of 2^q: the multiple, and whether
it differs. -/
def roundAt (mode : Nat) (neg : Bool) (m : Nat) (e q : Int) : Nat × Bool :=
  if q ≤ e then (m * 2 ^ (e - q).toNat, false)
  else
    let sh := (q - e).toNat
    let k := m / 2 ^ sh
    let rem := m % 2 ^ sh
    let half := 2 ^ (sh - 1)
    if rem = 0 then (k, false)
    else
      let up : Bool := match mode with
        | 0 => decide (half < rem) || (decide (rem = half) && decide (k % 2 = 1))
        | 1 => false
        | 2 => !neg
        | 3 => neg
        | _ => decide (half ≤ rem)
      (if up then k + 1 else k, true)

/-- `roundAt` to the grid of a float format. With P = 1 (R34, R35) a significand has no trailing bits, so that R39 does not say
which of two neighbours a tie of RNE goes to: a free value (log entry 23). -/
def roundTo (f : Fmt) (mode : Nat) (neg : Bool) (m : Nat) (e q : Int) : Nat × Bool :=
  if f.tb == 0 && mode == 0 && decide (e < q) && m % 2 ^ (q - e).toNat == 2 ^ ((q - e).toNat - 1) then
    let k := m / 2 ^ (q - e).toNat
    (if Config.tieP1 f.unsigned neg k q then k + 1 else k, true)
  else roundAt mode neg m e q

/-- k × 2^q > l × 2^r. -/
def above (k : Nat) (q : Int) (l : Nat) (r : Int) : Bool :=
  if r ≤ q then decide (l < k * 2 ^ (q - r).toNat) else decide (l * 2 ^ (r - q).toNat < k)

/-- The code of k × 2^q, which lies on the grid of a float format and is not zero. -/
def Fmt.encode (f : Fmt) (neg : Bool) (k : Nat) (q : Int) : Nat :=
  let top := (bitLen k : Int) - 1 + q
  let emin := 1 - (f.bias : Int)
  let lsb := max top emin - f.tb
  let sig := (roundAt 1 neg k q lsb).1
  f.signBit neg + (if emin ≤ top then (top + f.bias).toNat * 2 ^ f.tb + (sig - 2 ^ f.tb) else sig)

/-- The code of a zero with a sign; only h, f and d have a negative zero. -/
def Fmt.zero (f : Fmt) (neg : Bool) : Nat :=
  match f with
  | .ieee _ _ => f.signBit neg
  | _ => 0

/-- R40 for an integer format, steps 3 to 6. -/
def roundInt (w : Nat) (signed : Bool) (mode : Nat) (sat : Bool) (neg : Bool) (m : Nat) (e : Int) : Nat × Nat :=
  let (k, nx) := roundAt mode neg m e 0
  let fl := if nx then flNX else 0
  let lim := if signed then (if neg then 2 ^ (w - 1) else 2 ^ (w - 1) - 1) else (if neg then 0 else 2 ^ w - 1)
  if lim < k then (if neg && signed then 2 ^ (w - 1) else lim, if sat then flSAT ||| fl else flNV)
  else (if neg && decide (0 < k) then 2 ^ w - k else k, fl)

/-- R40: Round(fmt, x, mode): the code and the flags. `sat` is the saturate option, `ftz` FPCSR.FTZ where R32
applies. -/
def round (f : Fmt) (mode : Nat) (sat ftz : Bool) (x : Num) : Nat × Nat :=
  match x with
  | .nan sig => match f with
    | .int _ _ => (0, flNV)
    | _ => (f.nan, if sig then flNV else 0)
  | .inf neg =>
    if sat then (if neg && f.unsigned then (0, flSAT) else (f.maxCode neg, flSAT))
    else if f.hasInf neg then (f.infCode neg, 0)
    else match f with
      | .int _ _ => (f.maxCode neg, flNV)
      | _ => (f.nan, flNV)
  | .fin neg m e =>
    match f with
    | .int w s => roundInt w s mode sat neg m e
    | _ =>
      if m = 0 then (f.zero neg, 0) else
      let top := (bitLen m : Int) - 1 + e
      let emin := 1 - (f.bias : Int)
      let q := max top emin - f.tb
      let (k, nx) := roundTo f mode neg m e q
      let fl := if nx then flNX else 0
      if f.unsigned && neg && decide (0 < k) then (if sat then (0, flSAT ||| fl) else (f.nan, flNV))
      else
        let passes := match f.value (f.maxCode neg) with
          | .fin _ l r => above k q l r
          | _ => false
        if passes then
          if sat then (f.maxCode neg, flSAT ||| fl)
          else if mode = 1 || (mode = 3 && !neg) || (mode = 2 && neg) then (f.maxCode neg, fl ||| flOF ||| flNX)
          else (if f.hasInf neg then f.infCode neg else f.nan, fl ||| flOF ||| flNX)
        else
          let (kt, _) := roundTo f mode neg m e (top - f.tb)
          let tiny := nx && decide ((bitLen kt : Int) - 1 + (top - f.tb) < emin)
          let fl := if tiny then fl ||| flUF else fl
          if k = 0 then (f.zero neg, fl)
          else match f with
            | .ieee _ _ =>
              if ftz && decide ((bitLen k : Int) - 1 + q < emin) then (f.zero neg, fl ||| flUF ||| flNX)
              else (f.encode neg k q, fl)
            | _ => (f.encode neg k q, fl)

/-- A value is a NaN, and a signalling one. -/
def Num.isNan : Num → Bool
  | .nan _ => true
  | _ => false

/-- see `isNan` -/
def Num.isSig : Num → Bool
  | .nan s => s
  | _ => false

/-- A value is a zero. -/
def Num.isZero : Num → Bool
  | .fin _ m _ => m == 0
  | _ => false

/-- The sign; a NaN counts as positive (R42). -/
def Num.neg : Num → Bool
  | .nan _ => false
  | .inf n => n
  | .fin n _ _ => n

/-- The value with its sign turned. -/
def Num.negate : Num → Num
  | .nan s => .nan s
  | .inf n => .inf !n
  | .fin n m e => .fin (!n) m e

/-- The exact sum; an exact zero sum of operands of opposite sign is +0, or -0 under RDN (R33). -/
def Num.add (mode : Nat) (a b : Num) : Num :=
  match a, b with
  | .nan s, y => .nan (s || y.isSig)
  | _, .nan t => .nan t
  | .inf n, .inf n' => if n = n' then .inf n else .nan true
  | .inf n, _ => .inf n
  | _, .inf n => .inf n
  | .fin n m e, .fin n' m' e' =>
    let q := min e e'
    let x := m * 2 ^ (e - q).toNat
    let y := m' * 2 ^ (e' - q).toNat
    if n = n' then .fin n (x + y) q
    else if x = y then .fin (mode == 3) 0 q
    else if y < x then .fin n (x - y) q
    else .fin n' (y - x) q

/-- The exact IEEE product. -/
def Num.mul (a b : Num) : Num :=
  match a, b with
  | .nan s, y => .nan (s || y.isSig)
  | _, .nan t => .nan t
  | .inf n, y => if y.isZero then .nan true else .inf (n != y.neg)
  | x, .inf n => if x.isZero then .nan true else .inf (n != x.neg)
  | .fin n m e, .fin n' m' e' => .fin (n != n') (m * m') (e + e')

/-- R42: the zero-times-anything product. -/
def Num.mulz (a b : Num) : Num := if a.isZero || b.isZero then .fin (a.neg != b.neg) 0 0 else a.mul b

/-- R33: a × b + c with one rounding to come; 0 × ∞ is invalid also beside a quiet NaN. -/
def Num.fma (mode : Nat) (a b c : Num) : Num := Num.add mode (a.mul b) c

/-- The quotient, and DZ if a finite non-zero value is divided by zero. A quotient that does not end is given by a
value strictly between its neighbours at 2^-70 of its magnitude, which rounds as the exact quotient does in every
format. -/
def Num.div (a b : Num) : Num × Nat :=
  match a, b with
  | .nan s, y => (.nan (s || y.isSig), 0)
  | _, .nan t => (.nan t, 0)
  | .inf n, y => (match y with | .inf _ => .nan true | _ => .inf (n != y.neg), 0)
  | .fin n _ _, .inf n' => (.fin (n != n') 0 0, 0)
  | .fin n m e, .fin n' m' e' =>
    if m' = 0 then (if m = 0 then (.nan true, 0) else (.inf (n != n'), flDZ))
    else
      let k := bitLen m' + 70
      let quo := m * 2 ^ k / m'
      let rem := m * 2 ^ k % m'
      (.fin (n != n') (2 * quo + (if rem = 0 then 0 else 1)) (e - e' - k - 1), 0)

/-- The integer square root of `n`, bit by bit from bit `k` of the root downwards. -/
def isqrt (n : Nat) : Nat → Nat → Nat
  | 0, r => if (r + 1) * (r + 1) ≤ n then r + 1 else r
  | k + 1, r =>
    let r' := r + 2 ^ (k + 1)
    isqrt n k (if r' * r' ≤ n then r' else r)

/-- The square root; a root that does not end is given as `Num.div` gives a quotient. -/
def Num.sqrt : Num → Num
  | .nan s => .nan s
  | .inf neg => if neg then .nan true else .inf false
  | .fin neg m e =>
    if m = 0 then .fin neg 0 0
    else if neg then .nan true
    else
      let odd := e % 2
      let m' := m * 2 ^ (odd.toNat + 140)
      let r := isqrt m' (bitLen m' / 2 + 1) 0
      .fin false (2 * r + (if r * r = m' then 0 else 1)) ((e - odd - 140) / 2 - 1)

/-- a < b, for values that are no NaN; zeros are equal. -/
def Num.lt (a b : Num) : Bool :=
  match a, b with
  | .inf true, .inf n => !n
  | .inf true, _ => true
  | _, .inf false => match a with | .inf false => false | _ => true
  | .inf false, _ => false
  | _, .inf true => false
  | x, y =>
    match Num.add 0 x y.negate with
    | .fin neg m _ => neg && decide (0 < m)
    | _ => false

/-- a = b, for values that are no NaN; zeros are equal. -/
def Num.eqv (a b : Num) : Bool := !a.lt b && !b.lt a && !a.isNan && !b.isNan

/-- R33: minimum and maximum: a NaN operand gives NaN, and -0 is smaller than +0. -/
def Num.minOf (a b : Num) : Num :=
  if a.isNan || b.isNan then .nan (a.isSig || b.isSig)
  else if a.lt b then a else if b.lt a then b else if a.neg then a else b

/-- see `minOf` -/
def Num.maxOf (a b : Num) : Num :=
  if a.isNan || b.isNan then .nan (a.isSig || b.isSig)
  else if a.lt b then b else if b.lt a then a else if a.neg then b else a

/-- An integer clamped to the range of an integer format, or wrapped: the code and the flags (R27). -/
def fitInt (w : Nat) (sat uns : Bool) (x : Int) : Nat × Nat :=
  if sat then
    let lo : Int := if uns then 0 else -(2 ^ (w - 1))
    let hi : Int := if uns then 2 ^ w - 1 else 2 ^ (w - 1) - 1
    if x < lo then ((lo % 2 ^ w).toNat, flSAT) else if hi < x then ((hi % 2 ^ w).toNat, flSAT) else ((x % 2 ^ w).toNat, 0)
  else ((x % 2 ^ w).toNat, 0)

/-- A code of width `w` as an integer. -/
def toInt (w : Nat) (signed : Bool) (c : Nat) : Int :=
  if signed && decide (2 ^ (w - 1) ≤ c) then (c : Int) - 2 ^ w else c

/-- R28: quotient and remainder of two codes of width `w`. -/
def divCode (w : Nat) (signed : Bool) (a b : Nat) : Nat × Nat :=
  if b = 0 then (2 ^ w - 1, a)
  else if signed then
    let x := toInt w true a
    let y := toInt w true b
    let q := x.tdiv y
    ((q % 2 ^ w).toNat, ((x - q * y) % 2 ^ w).toNat)
  else (a / b, a % b)

/-- R29: leading zero bits of a code of `w` bits. -/
def clz (w x : Nat) : Nat := w - bitLen x

/-- R29: the index of the lowest set bit below `w`, or `w`. -/
def ctz (w x : Nat) : Nat := ((List.range w).find? fun i => x / 2 ^ i % 2 == 1).getD w

/-- R29: FFS. -/
def ffs (w x : Nat) : Nat := if x % 2 ^ w = 0 then 0 else ctz w x + 1

/-- R29: POPC. -/
def popc (w x : Nat) : Nat := ((List.range w).filter fun i => x / 2 ^ i % 2 == 1).length

end Sys2Proof.Machine
end

