-- ==== Sys2Proof/Machine/Net.lean ====
section
/-!
DEFINITION. Sending packets: on the package (R17, R18), and to another package over Lintil (R298 to R303).
-/

namespace Sys2Proof.Machine

open Sys2Proof

/-- Lists of numbers in dictionary order. -/
def lexLt : List Nat → List Nat → Bool
  | a :: as, b :: bs => decide (a < b) || (a == b && lexLt as bs)
  | _, _ => false

/-- The first element that is smallest by a key. -/
def firstBy {α : Type} (key : α → List Nat) : List α → Option α
  | [] => none
  | a :: t => match firstBy key t with
    | some b => if lexLt (key b) (key a) then some b else some a
    | none => some a

/-- R18: the stream within which packets keep their order. -/
def Packet.stream (k : Packet) : Cls × Endpoint × Endpoint := (k.cls, k.src, k.dst)

/-- R345: an access at a base die: it may be served before earlier ones of its stream. What it waits for is said where it is served
(`State.dieTurn`). -/
def Packet.loose (k : Packet) : Bool :=
  match k.body, k.dst with
  | .acc _, .base _ => true
  | _, _ => false

/-- The packet with an index, if no earlier packet of its stream is under way that keeps its place (R18). -/
def State.first (s : State) (k : Nat) : Option Packet :=
  match s.net[k]? with
  | none => none
  | some m => if !m.loose && (s.net.take k).any fun e => decide (e.stream = m.stream) && !e.loose then none else some m

/-- Takes the packet with an index. -/
def State.takeMsg (s : State) (k : Nat) : State := { s with net := s.net.eraseIdx k }

/-- Sends a packet to a unit of the package. -/
def State.pushLocal (s : State) (k : Packet) : State := { s with net := s.net ++ [k] }

/-- The other package a packet goes to, if it does. -/
def State.remote (s : State) (k : Packet) : Option Nat :=
  match k.dst with
  | .plot id => if id / 2 ^ 20 = s.pkg then none else some (id / 2 ^ 20)
  | .peer pkg => if pkg = s.pkg then none else some pkg
  | _ => none

/-- R298: the channel of a packet: its class, or its communicator's channel. -/
def Packet.channel (k : Packet) : Nat :=
  match k.body with
  | .chunk c => c.vch
  | .breakNotice vch _ => vch
  | _ => match k.cls with
    | .req => 0 | .rsp => 1 | .inv => 2 | .chi => 3 | .clo => 4 | .sys => 5

/-- The payload bytes counted for a packet. The spec gives no payload layout: data bytes, and one flit of 32 bytes with
one more for each four words (DEDUCED from R234, log entry 10). -/
def Packet.bytes (k : Packet) : Nat :=
  match k.body with
  | .chunk c => c.bytes.length
  | .acc a => match a.op with
    | .store bs => 32 + bs.length
    | _ => 32
  | .rsp _ (.data bs _ _) => 32 + bs.length
  | .copyOut _ _ bs _ => 32 + bs.length
  | .copyIn _ _ _ (some bs) => 32 + bs.length
  | .inv i => 32 * (1 + (i.args.length + 3) / 4)
  | .raw ws _ _ => 32 * (1 + (ws.length + 3) / 4)
  | _ => 32

/-- A connection's channel. -/
def Conn.chan (x : Conn) (ch : Nat) : Channel := Sparse.get ⟨0, 0, 0, 0, [], []⟩ x.chans ch

/-- Replaces a connection's channel. -/
def Conn.setChan (x : Conn) (ch : Nat) (y : Channel) : Conn := { x with chans := Sparse.set ⟨0, 0, 0, 0, [], []⟩ x.chans ch y }

/-- The bytes sent and not acknowledged. -/
def Conn.inFlight (x : Conn) : Nat := (x.chans.map fun c => (c.2.unacked.map fun u => u.2.1.bytes).sum).sum

/-- A frame of a connection (R298). -/
def State.frame (s : State) (x : Conn) (kind ch seq : Nat) (body : Option Packet) : Frame :=
  { kind := kind, spkg := s.pkg, dpkg := x.peer, ten := x.tenant, conn := x.remote, ch := ch, seq := seq,
    ack := (x.chan ch).recvSeq, ach := ch, ts := s.cycle.toNat % 2 ^ 32, tse := x.lastTse, cred := (x.chan ch).cred,
    len := match body with | some k => k.bytes | none => 0, body := body, pause := false }

/-- R298: the header of a frame; VER is 1. A frame's payload is at most 4,096 bytes: no packet has more (`Packet.bytes`). -/
def Frame.header (f : Frame) : BitVec 256 :=
  1#4 ++ BitVec.ofNat 4 f.kind ++ BitVec.ofNat 16 f.spkg ++ BitVec.ofNat 16 f.dpkg ++ BitVec.ofNat 16 f.ten ++ BitVec.ofNat 13 f.conn ++ 0#3 ++
    BitVec.ofNat 8 f.ch ++ BitVec.ofNat 32 f.seq ++ BitVec.ofNat 32 f.ack ++ BitVec.ofNat 8 f.ach ++ BitVec.ofNat 32 f.ts ++
    BitVec.ofNat 32 f.tse ++ BitVec.ofNat 16 f.len ++ BitVec.ofNat 8 f.cred ++ 0#16

/-- R298: the bytes of the header, as they are sent: most significant first. -/
def Frame.headerBytes (f : Frame) : List Byte := (List.range 32).map fun i => f.header.extractLsb' (8 * (31 - i)) 8

/-- The channel of a connection in which a frame's acknowledgement is given: acknowledged, its credits returned. -/
def Conn.acked (x : Conn) (ch : Nat) : Conn := x.setChan ch { x.chan ch with ackSeq := (x.chan ch).recvSeq, cred := 0 }

/-- Sends a frame. -/
def State.transmit (s : State) (f : Frame) : State := { s with link := { s.link with tx := s.link.tx ++ [f] } }

/-- Replaces a connection. -/
def State.setConn (s : State) (i : Nat) (x : Conn) : State := { s with link := { s.link with conns := s.link.conns.set i x } }

/-- A communicator. -/
def State.comm (s : State) (k : Nat) : Comm := Sparse.get Comm.reset s.comms k

/-- R299: a packet that goes first at a frame boundary: on the SYS channel or an urgent communicator's. -/
def State.goesFirst (s : State) (tenant : Nat) (k : Packet) : Bool :=
  match k.body with
  -- R294: a break notice leaves ahead of every bulk chunk
  | .breakNotice _ _ => true
  | .chunk c => (List.range 256).any fun i => (s.comm i).en && (s.comm i).urg && (s.comm i).tenant == tenant && (s.comm i).vch == c.vch
  | _ => k.channel == 5

/-- R299: the packet of a connection that leaves next, and its place in the queue: one that goes first, or the first of the next channel
in turn. -/
def State.nextOut (s : State) (x : Conn) : Option (Packet × Nat) :=
  let q := x.queue.zipIdx
  match q.find? fun e => s.goesFirst x.tenant e.1 with
  | some e => some e
  | none => firstBy (fun e => [(e.1.channel + 255 - x.turn) % 256]) q

/-- R299, R300: an open connection after it has sent a packet that waited at a place of its queue. -/
def Conn.sent (x : Conn) (k : Packet) (j now : Nat) (first : Bool) : Conn :=
  let ch := k.channel
  let c := x.chan ch
  { x with
    queue := x.queue.eraseIdx j, turn := if first then x.turn else ch,
    asked := match k.body with
      | .acc _ => x.asked ++ [k]
      | _ => x.asked }.setChan ch { c with
    ackSeq := c.recvSeq, cred := 0, sendSeq := (c.sendSeq + 1) % 2 ^ 32, unacked := c.unacked ++ [(c.sendSeq, k, now)] }

/-- R302: packets that wait in an open connection leave as the window allows; the first argument bounds them. -/
def drainConn : Nat → State → Nat → State
  | 0, s, _ => s
  | n + 1, s, i =>
    match s.link.conns[i]? with
    | none => s
    | some x =>
      match s.nextOut x with
      | none => s
      | some (k, j) =>
        if x.state = 1 && !x.spilled && decide (x.inFlight + k.bytes ≤ x.window) then
          drainConn n ((s.setConn i (x.sent k j s.cycle.toNat (s.goesFirst x.tenant k))).transmit
            (s.frame x 0 k.channel (x.chan k.channel).sendSeq (some k))) i
        else s

/-- The queue of a connection is looked at. -/
def State.drain (s : State) (i : Nat) : State :=
  match s.link.conns[i]? with
  | some x => drainConn x.queue.length s i
  | none => s

/-- R299, R302: sends a packet on a connection: it joins the queue, which is looked at. -/
def State.sendOn (s : State) (i : Nat) (x : Conn) (k : Packet) : State :=
  (s.setConn i { x with used := s.cycle.toNat, queue := x.queue ++ [k] }).drain i

/-- R239, R243: where the headgate unit of an entry is: at a base die of this package, or of another. -/
def Gate.unit (g : Gate) : Endpoint := match g.home with
  | none => .base (g.target / 4096 % Config.numStacks)
  | some q => .peer q

/-- R243: the entries of an invocation as another package has them. -/
def Packet.leaving (k : Packet) (pkg : Nat) : Packet := match k.body with
  | .inv i => { k with body := .inv { i with caps := i.caps.map fun g => { g with home := some (g.home.getD pkg) } } }
  | _ => k

/-- R243: the entries of an invocation that comes from another package. -/
def Packet.entering (k : Packet) (pkg : Nat) : Packet := match k.body with
  | .inv i => { k with body := .inv { i with caps := i.caps.map fun g => { g with home := if g.home = some pkg then none else g.home } } }
  | _ => k

/-- R300, R21: what the failure of a connection does to a packet: the packets that result. -/
def Packet.failed (k : Packet) : List Packet :=
  match k.body with
  | .acc a => [⟨.rsp, k.dst, k.src, 0, .rsp a.who .reject⟩]
  | .inv i =>
    let h := i.promise
    let r := (h.toNat / 2 ^ 21 % 128) * 2 ^ 57 + (h.toNat / 2 ^ 13 % 32) * 2 ^ 52 + h.toNat / 2 ^ 28 * 2 ^ 16 + 0x2200
    ⟨.clo, k.src, .plot (h.toNat / 2 ^ 28), k.tenant, .settle h (.broken (.ofNat 64 r)) i.member⟩ ::
    -- R243: an invocation that breaks gives up the capabilities it carries
    (i.caps.map fun g => ⟨.req, k.src, g.unit, k.tenant,
      .gate ⟨⟨h.toNat / 2 ^ 28, 0, 0⟩, 0, g.va, g.target, .rel, k.tenant⟩⟩) ++
    -- R214, R218: breaking is acceptance
    match i.path with
    | [] => []
    | (g, _) :: _ => [⟨.clo, k.src, .plot (g.toNat / 2 ^ 28), k.tenant, .accept i.path i.promise⟩]
  | .copyOut f w _ _ | .putsSignal f w _ _ _ => [⟨.rsp, k.dst, k.src, k.tenant, .copyAck f w false⟩]
  -- R300: a communicator on the connection breaks with BCAUSE 0x06
  | .chunk c => [⟨.sys, k.src, k.src, k.tenant, .breakNotice c.vch 0x06⟩]
  | .copyAsk f w pos _ => [⟨.rsp, k.dst, k.src, k.tenant, .copyIn f w pos none⟩]
  | _ => []

/-- R301: a place of the host area that no spilled state has. -/
def Link.freePlace (l : Link) : Nat :=
  let used := (l.conns.filter fun c => c.spilled && decide (c.state ≤ 1)).map (·.place)
  ((List.range (used.length + 1)).find? fun i => !(i ∈ used)).getD 0

/-- R301, R375: a connection state spills: its 256 bytes go to its place of the host area over CXL.cache. -/
def State.spillConn (s : State) (i : Nat) (x : Conn) (area : Nat) : State :=
  let n := s.link.freePlace
  { s with link := { s.link with
      conns := s.link.conns.set i { x with spilled := true, place := n }
      spills := s.link.spills ++ [(area + 256 * n, (List.range 256).map (Config.connByte x.peer x.tenant s.cycle.toNat))] } }

/-- R301: a headworks caches 2,048 connection states. A new one takes a free place, or spills the least recently used of
its headworks to the host area while that has room (256 bytes each). -/
def State.connRoom (s : State) (port : Nat) : Option State :=
  let cached := s.link.conns.zipIdx.filter fun c => c.1.port / 2 == port / 2 && !c.1.spilled && decide (c.1.state ≤ 1)
  if cached.length < 2048 then some s
  else
    let spilled := (s.link.conns.filter fun c => c.spilled && decide (c.state ≤ 1)).length
    match s.link.spillArea with
    | none => none
    | some (area, len) =>
      if len / 256 ≤ spilled then none
      else match cached.foldl (fun (b : Option (Conn × Nat)) c => match b with
          | none => some c
          | some d => if c.1.used < d.1.used then some c else b) none with
        | none => none
        | some (x, i) => some (s.spillConn i x area)

/-- The lowest connection index not in use (13 bits, R298). -/
def State.freeConn (s : State) : Nat :=
  ((List.range 8192).find? fun i => !(s.link.conns.any fun c => c.local_ == i && decide (c.state ≤ 1))).getD 0

/-- R299: sends a packet to another package: on the connection of its tenant, opening one if there is none, by an open frame with CONN 0 and the
connection's own index in SEQ (DESIGN CHOICE, log entry 109). With no
route or no room, the packet is treated as on connection failure. -/
def State.linkSend (s : State) (peer : Nat) (k : Packet) : State × List Packet :=
  match s.link.conns.zipIdx.find? fun c => c.1.peer == peer && c.1.tenant == k.tenant && decide (c.1.state ≤ 1) with
  | some (x, i) => (s.sendOn i x k, [])
  | none =>
    match s.link.routes.find? fun r => r.1 == peer with
    | none => (s, k.failed)
    | some (_, port) =>
      match s.connRoom port with
      | none => (s, k.failed)
      | some s =>
        let x : Conn := {
          peer := peer, tenant := k.tenant, port := port, state := 0, local_ := s.freeConn, remote := 0,
          chans := [], queue := [k], turn := 0, asked := [], window := 65536, srtt := (Sparse.get PortCfg.reset s.link.ports port).rtt,
          cutLeft := 0, timeouts := 0, lastTse := 0, spilled := false, used := s.cycle.toNat, place := 0, asking := s.cycle.toNat }
        let s := { s with link := { s.link with conns := s.link.conns ++ [x] } }
        (s.transmit { s.frame x 3 0 0 none with conn := 0, seq := x.local_ }, [])

/-- Sends a packet. -/
def State.push (s : State) (k : Packet) : State :=
  match s.remote k with
  | none => s.pushLocal k
  | some peer =>
    let (s, ks) := s.linkSend peer (k.leaving s.pkg)
    ks.foldl (fun s e => match s.remote e with
      | none => s.pushLocal (e.entering s.pkg)
      | some p => (s.linkSend p e).1) s

end Sys2Proof.Machine
end

