-- ==== Sys2Proof/Machine/Ops.lean ====
section
/-!
DEFINITION. Named operations over the state: contexts, registers, ports, buffers, packets, threshold events,
retirement, taking a trap and returning from one, ending a task.
-/

namespace Sys2Proof.Machine

open Sys2Proof

/-! ## Plots and contexts -/

/-- A plot of the package, by PLOTID[19:0]. -/
def State.plot (s : State) (p : Nat) : Plot := Sparse.get Plot.reset s.plots p

/-- Replaces a plot. -/
def State.setPlot (s : State) (p : Nat) (x : Plot) : State := { s with plots := Sparse.set Plot.reset s.plots p x }

/-- Changes a plot. -/
def State.modPlot (s : State) (p : Nat) (f : Plot → Plot) : State := s.setPlot p (f (s.plot p))

/-- A context of a plot. -/
def Plot.ctx (x : Plot) (c : Nat) : Ctx := Sparse.get Ctx.empty x.ctxs c

/-- Replaces a context. -/
def Plot.setCtx (x : Plot) (c : Nat) (y : Ctx) : Plot := { x with ctxs := Sparse.set Ctx.empty x.ctxs c y }

/-- A context of the package. -/
def State.ctx (s : State) (p c : Nat) : Ctx := (s.plot p).ctx c

/-- Replaces a context. -/
def State.setCtx (s : State) (p c : Nat) (y : Ctx) : State := s.setPlot p ((s.plot p).setCtx c y)

/-- Changes a context. -/
def State.modCtx (s : State) (p c : Nat) (f : Ctx → Ctx) : State := s.setCtx p c (f (s.ctx p c))

/-- The context whose instruction is under execution. -/
def State.me (s : State) : Ctx := s.ctx s.cur.1 s.cur.2

/-- Replaces it. -/
def State.setMe (s : State) (y : Ctx) : State := s.setCtx s.cur.1 s.cur.2 y

/-- Changes it. -/
def State.modMe (s : State) (f : Ctx → Ctx) : State := s.setMe (f s.me)

/-- Its plot. -/
def State.myPlot (s : State) : Plot := s.plot s.cur.1

/-- R3: PLOTID of a plot of the package. -/
def State.plotId (s : State) (p : Nat) : Nat := s.pkg * 2 ^ 20 + p

/-- R3: a number below 2^20 names a plot. -/
def plotOk (p : Nat) : Bool := decide (p / 256 % 256 ≤ 191) && decide (p % 256 ≤ 215)

/-- R3: the fields of a PLOTID. -/
def fieldOf (p : Nat) : Nat := p / 2 ^ 16 % 16
/-- R3 -/
def rowOf (p : Nat) : Nat := p / 256 % 256
/-- R3 -/
def colOf (p : Nat) : Nat := p % 256
/-- R3 -/
def pkgOf (p : Nat) : Nat := p / 2 ^ 20

/-- R4: the logical plot number. -/
def logical (p : Nat) : Nat := fieldOf p * 41472 + rowOf p * 216 + colOf p

/-- R10, R11: the neighbour at a port (0 north, 1 east, 2 south, 3 west); none at the edge of the plot array. -/
def neighbour (p dir : Nat) : Option Nat :=
  let x := fieldOf p % 4 * 216 + colOf p
  let y := fieldOf p / 4 * 192 + rowOf p
  let mk := fun x y => (y / 192 * 4 + x / 216) * 2 ^ 16 + y % 192 * 256 + x % 216
  match dir with
  | 0 => if y = 0 then none else some (mk x (y - 1))
  | 1 => if x = 863 then none else some (mk (x + 1) y)
  | 2 => if y = 767 then none else some (mk x (y + 1))
  | _ => if x = 0 then none else some (mk (x - 1) y)

/-- CYCLE as a number. -/
def State.now (s : State) : Nat := s.cycle.toNat

/-- A fresh serial number. -/
def State.fresh (s : State) : Nat × State := (s.serial, { s with serial := s.serial + 1 })

/-- Bits [lo + n - 1 : lo] of a word, as a number. -/
def fldw (w : Word) (lo n : Nat) : Nat := fld w.toNat lo n

/-- A word with bits [lo + n - 1 : lo] replaced. -/
def putw (w : Word) (lo n v : Nat) : Word :=
  .ofNat 64 (w.toNat / 2 ^ (lo + n) * 2 ^ (lo + n) + v % 2 ^ n * 2 ^ lo + w.toNat % 2 ^ lo)

/-- One bit of a word. -/
def bitw (w : Word) (i : Nat) : Bool := fldw w i 1 == 1

/-- R72: Sext(x, b). -/
def sext (b x : Nat) : Word := .ofInt 64 (toInt b true (x % 2 ^ b))

/-! ## Threshold events and the event queue (R332, R333, R387) -/

/-- A list of bytes, least significant first. -/
def bytesLE : Nat → Nat → List Byte
  | 0, _ => []
  | n + 1, x => .ofNat 8 (x % 256) :: bytesLE n (x / 256)

/-- The number of a list of bytes, least significant first. -/
def numLE : List Byte → Nat
  | [] => 0
  | b :: t => b.toNat + 256 * numLE t

/-- R387: Damkar writes an event record to the host queue and signals its MSI-X vector, or counts it lost. -/
def State.hostEvent (s : State) (kind a b : Nat) : State :=
  let q := s.host.evq
  match q.addr with
  | some adr =>
    if q.unread < 1024 then
      let w0 := (if q.phase then 2 ^ 63 else 0) + kind
      let bs := bytesLE 8 w0 ++ bytesLE 8 a ++ bytesLE 8 b ++ bytesLE 8 s.now
      { s with
        mem := { s.mem with host := Sparse.setN 0 s.mem.host (adr + 32 * q.pos) bs }
        host := { s.host with
          msix := s.host.msix ++ [q.vector]
          evq := { q with pos := (q.pos + 1) % 1024, phase := q.phase != (q.pos + 1 == 1024), unread := q.unread + 1 } } }
    else { s with host := { s.host with evq := { q with lost := q.lost + 1 } } }
  | none => { s with host := { s.host with evq := { q with lost := q.lost + 1 } } }

/-- R333: counts an event of a class on a plot; the answer says whether the limit asks for NUMERIC. -/
def State.count (s : State) (p cls : Nat) : Bool × State :=
  let t := Sparse.get Thr.reset (s.plot p).thr cls
  let n := min (t.cnt + 1) (2 ^ 32 - 1)
  let fires := bitw t.lim 63 && !t.fired && decide (t.cnt < fldw t.lim 0 32) && decide (fldw t.lim 0 32 ≤ n)
  let s := s.modPlot p fun x => { x with thr := Sparse.set Thr.reset x.thr cls { t with cnt := n, fired := t.fired || fires } }
  let s := if fires && bitw t.lim 62 then s.hostEvent 1 (s.plotId p) cls else s
  (fires && bitw t.lim 61, s)

/-- R333: counts an event that no instruction carries (classes 6 to 13). -/
def State.countAt (s : State) (p cls : Nat) : State := (s.count p cls).2

/-- The flag kinds of a set of flags, in class order (R332). -/
def flagKinds (fl : Nat) : List Nat := (List.range 6).filter fun i => fl / 2 ^ i % 2 == 1

/-- R51, R333: the flags an instruction of a context raised: they stick in FPCSR, and each kind counts once. -/
def State.raise (s : State) (p c fl : Nat) : State :=
  (flagKinds fl).foldl (fun s k =>
    -- R51 numbers the flags as FPCSR does: NV 0, DZ 1, OF 2, UF 3, NX 4, SAT 5
    let (num, s) := s.count p k
    if num then s.modCtx p c fun x => { x with due := { x.due with numeric := x.due.numeric ++ [.ofNat 64 k] } } else s)
    (s.modCtx p c fun x => { x with csr := { x.csr with fpcsr := x.csr.fpcsr ||| .ofNat 64 (fl % 64) } })

/-! ## Registers and ports -/

/-- Why an instruction does not go through: it blocks, or it traps (R72). -/
inductive Stop where
  | block (w : Wait)
  | trap (c : Cause) (v : Word)
  deriving DecidableEq, Repr

/-- An attempt. -/
abbrev Try (α : Type) := Except Stop α

/-- R72: Signal. -/
def signal {α : Type} (c : Cause) (v : Word) : Try α := .error (.trap c v)

/-- R72: Block. -/
def block {α : Type} (w : Wait) : Try α := .error (.block w)

/-- Goes on only if a condition holds. -/
def need (b : Bool) (e : Stop) : Try Unit := if b then .ok () else .error e

/-- Registers numbered as in R60. -/
def regG (r : BitVec 6) : Nat := r.toNat
/-- v registers -/
def regV (r : BitVec 4) : Nat := 64 + r.toNat
/-- s registers -/
def regS (r : BitVec 4) : Nat := 80 + r.toNat

/-- A number is a port register (R61). -/
def isPort (r : Nat) : Bool := decide (60 ≤ r) && decide (r < 64)

/-- The value of a g register; g0 reads zero (R59). -/
def Regs.gv (x : Regs) (r : Nat) : Word := if r = 0 then 0 else Sparse.get 0 x.g r
/-- A v register. -/
def Regs.vv (x : Regs) (r : Nat) : V256 := Sparse.get 0 x.v r
/-- An s register. -/
def Regs.sv (x : Regs) (r : Nat) : S128 := Sparse.get emptyRecord x.r r
/-- A register is empty (R59); g0 never is. -/
def Regs.isEmpty (x : Regs) (r : Nat) : Bool := decide (r ≠ 0) && Sparse.get false x.empt r

/-- A write makes a register full and clears poison and a parity error (R59, R338). -/
def Regs.filled (x : Regs) (r : Nat) : Regs :=
  { x with empt := Sparse.set false x.empt r false, poison := Sparse.set none x.poison r none,
           badPar := Sparse.set false x.badPar r false }

/-- Writes a g register below 60; a write to g0 is discarded (R59). -/
def Regs.setGv (x : Regs) (r : Nat) (w : Word) : Regs :=
  if r = 0 then x else { x.filled r with g := Sparse.set 0 x.g r w }
/-- Writes a v register. -/
def Regs.setVv (x : Regs) (r : Nat) (w : V256) : Regs := { x.filled (64 + r) with v := Sparse.set 0 x.v r w }
/-- Writes an s register. -/
def Regs.setSv (x : Regs) (r : Nat) (w : S128) : Regs :=
  { x.filled (80 + r) with r := Sparse.set emptyRecord x.r r w }

/-- The registers a response writes. -/
def RspAct.dests : RspAct → List Nat
  | .ack => []
  | .load d _ => [d]
  | .words ds => ds
  | .vec d _ _ => [64 + d]
  | .awaitb d b => [d, b]
  | .take d => [d]
  | .stream _ => []

/-- R59, R281: the registers that issue marks empty; the result register of a copy or a collective is not. -/
def RspAct.marks : RspAct → List Nat
  | .take _ => []
  | a => a.dests

/-- A long-latency producer of a register is pending (R59). -/
def Ctx.pending (x : Ctx) (r : Nat) : Bool := decide (r ≠ 0) && x.outst.any fun o => decide (r ∈ o.act.dests)

/-- R59: marks a register empty at issue; g0 stays full. -/
def Ctx.pend (x : Ctx) (r : Nat) : Ctx :=
  if r = 0 then x else { x with regs := { x.regs with empt := Sparse.set false x.regs.empt r true } }

/-- A source field: the register, and its per-source bit (R60). -/
structure Src where
  reg : Nat
  trap : Bool
  deriving DecidableEq, Repr

/-- The words waiting at a port of a plot. -/
def Plot.inbound (x : Plot) (dir : Nat) : List Word := Sparse.get [] x.inq dir

/-- The slots of an outbound port queue. -/
def Plot.outbound (x : Plot) (dir : Nat) : List Slot := Sparse.get [] x.outq dir

/-- R60, R61: the first source, in field order, that is empty and satisfies `want`; `seen` are the fields before. Of the fields that name one
port, the earliest without a word is empty, and no later one. -/
def emptySrc (pl : Plot) (x : Ctx) (want : Src → Bool) : List Nat → List Src → Option Nat
  | _, [] => none
  | seen, a :: t =>
    let e := if isPort a.reg then decide ((pl.inbound (a.reg - 60)).length = (seen.filter (· == a.reg)).length)
      else x.regs.isEmpty a.reg
    if e && want a then some a.reg else emptySrc pl x want (a.reg :: seen) t

/-- The first source that is poisoned or has a parity error (R338). -/
def badSrc (x : Ctx) : List Src → Option (Cause × Word)
  | [] => none
  | a :: t =>
    match Sparse.get none x.regs.poison a.reg with
    | some adr => some (.eccUncorrected, adr)
    | none => if Sparse.get false x.regs.badPar a.reg then some (.eccUncorrected, .ofNat 64 (2 ^ 63 + a.reg)) else badSrc x t

/-- The first port among the destinations whose outbound queue lacks room (R61). -/
def fullPort (pl : Plot) : List Nat → List Nat → Option Nat
  | _, [] => none
  | seen, d :: t =>
    if isPort d && decide (8 < (pl.outbound (d - 60)).length + (seen.filter (· == d)).length + 1) then some (d - 60)
    else fullPort pl (d :: seen) t

/-- R60, R59, R61, R75, R79, R338: the checks of an issue attempt on its sources (in field order) and destinations. -/
def checkRegs (s : State) (srcs : List Src) (dsts : List Nat) : Try Unit :=
  let x := s.me
  let pl := s.myPlot
  let late := fun r => decide (r ≠ 0) && x.multi.any fun m => m.reg == r && !isPort r
  -- R79: a wait for a multi-cycle result never raises EMPTY
  match emptySrc pl x (fun a => a.trap && !late a.reg) [] srcs with
  | some r => signal .empty (.ofNat 64 r)
  | none =>
  match emptySrc pl x (fun _ => true) [] srcs with
  | some r => block (.source r)
  | none =>
  match (srcs.map (·.reg) ++ dsts).find? late with
  | some r => block (.multi r)
  | none =>
  match dsts.find? x.pending with
  | some r => block (.dest r)
  | none =>
  match fullPort pl [] dsts with
  | some d => block (.port d)
  | none =>
  match dsts.find? fun d => isPort d && (neighbour s.cur.1 (d - 60)).isNone with
  | some d => signal .storeFault (.ofNat 64 d)
  | none =>
  match badSrc x srcs with
  | some (c, v) => signal c v
  | none => .ok ()

/-- R72: SrcG: the value of a g register, after the checks; a port pops its word. -/
def State.takeG (s : State) (r : Nat) : Word × State :=
  if isPort r then
    match s.myPlot.inbound (r - 60) with
    | w :: t => (w, s.modPlot s.cur.1 fun x => { x with inq := Sparse.set [] x.inq (r - 60) t })
    | [] => (0, s)
  else (s.me.regs.gv r, s)

/-- The value of a g register that is no port. -/
def State.g (s : State) (r : Nat) : Word := s.me.regs.gv r
/-- The value of a v register. -/
def State.v (s : State) (r : Nat) : V256 := s.me.regs.vv r
/-- The value of an s register. -/
def State.sreg (s : State) (r : Nat) : S128 := s.me.regs.sv r

/-- R61: takes a slot of an outbound queue, with its word or to be written later. -/
def State.pushPort (s : State) (dir id : Nat) (w : Option Word) : State :=
  s.modPlot s.cur.1 fun x => { x with outq := Sparse.set [] x.outq dir (x.outbound dir ++ [⟨id, w⟩]) }

/-- R72: SetG: full, discarded for g0, a push for a port. -/
def State.setG (s : State) (r : Nat) (w : Word) : State :=
  if isPort r then s.pushPort (r - 60) s.serial (some w)
  else s.modMe fun x => { x with regs := x.regs.setGv r w }
/-- R72: SetV. -/
def State.setV (s : State) (r : Nat) (w : V256) : State := s.modMe fun x => { x with regs := x.regs.setVv r w }
/-- R72: SetS. -/
def State.setS (s : State) (r : Nat) (w : S128) : State := s.modMe fun x => { x with regs := x.regs.setSv r w }

/-- A result that comes after issue (R79): a g or v register is written later, a port's slot is taken now. -/
def State.later (s : State) (reg : Nat) (val : V256) (isDiv : Bool) : State :=
  if isPort reg then
    let (id, s) := s.fresh
    (s.pushPort (reg - 60) id none).modMe fun x => { x with multi := x.multi ++ [⟨reg, id, val, isDiv⟩] }
  else s.modMe fun x => { x with multi := x.multi ++ [⟨reg, 0, val, isDiv⟩] }

/-! ## Traps, returns and ends of tasks -/

/-- R310: fields of TSTAT. -/
def tsPpriv (t : Word) : Bool := bitw t 0
/-- R310 -/
def tsIntrap (t : Word) : Bool := bitw t 1
/-- R310 -/
def tsBsup (t : Word) : Bool := bitw t 2
/-- R310 -/
def tsAsync (t : Word) : Bool := bitw t 3
/-- R310 -/
def tsRcnt (t : Word) : Nat := fldw t 12 4

/-- R326: fields of DBGCTL. -/
def dbgHot (d : Word) : Nat := fldw d 9 2
/-- R326 -/
def dbgStepBit (d : Word) : Bool := bitw d 0

/-- A word is a modifier word (R64). -/
def isModWord (w : W32) : Bool := w.toNat / 2 ^ 26 == 0x3E

/-- A word is a multiply (R144). -/
def isMultiply (w : W32) : Bool := w.toNat / 2 ^ 26 == 0x28 && w.toNat % 4 != 3

/-- The word of the instruction store at a byte address. -/
def Plot.word (x : Plot) (a : Nat) : W32 := Sparse.get 0 x.istore (a / 4)

/-- The word of an instruction as a context sees it: a follower has the words that its leader sent (R197, R198), and so has one whose leader
split, for the entry that was under way. -/
def Plot.wordFor (x : Plot) (y : Ctx) (a : Nat) : W32 :=
  match y.furrow.leader, y.furrow.queue, y.furrow.resume with
  | some _, e :: _, _ => e.words.getD ((a - e.pc.toNat) / 4) 0
  | none, _, some e => e.words.getD ((a - e.pc.toNat) / 4) 0
  | _, _, _ => x.word a

/-- The handle's parts (R6). -/
def hPlot (h : Word) : Nat := fldw h 28 36
/-- R6 -/
def hSlot (h : Word) : Nat := fldw h 21 7
/-- R6 -/
def hGen (h : Word) : Nat := fldw h 13 8
/-- R6: a handle from its parts. -/
def mkHandle (plot slot gen : Nat) : Word := .ofNat 64 (plot * 2 ^ 28 + slot % 128 * 2 ^ 21 + gen % 256 * 2 ^ 13 + 1)
/-- R5: an OREF's parts. -/
def oSlot (o : Word) : Nat := fldw o 24 4
/-- R5 -/
def oGen (o : Word) : Nat := fldw o 12 12

/-- R208: a break record. -/
def mkBreak (origin : Word) (cause depth : Nat) : Word :=
  .ofNat 64 (hSlot origin * 2 ^ 57 + hGen origin % 32 * 2 ^ 52 + hPlot origin * 2 ^ 16 + cause % 256 * 256 + min depth 255)

/-- R227, R228: the break record of a dependant. -/
def deeper (r : Word) : Word := putw r 0 8 (min (fldw r 0 8 + 1) 255)

/-- Sends a packet to a plot named by its PLOTID, on this package or another. -/
def State.sendPlot (s : State) (cls : Cls) (src : Endpoint) (plot tenant : Nat) (m : Msg) : State :=
  s.push ⟨cls, src, .plot plot, tenant, m⟩

/-- R112: the base die that serves an HBM target address. -/
def stackOf (t : Nat) : Nat := t / 4096 % Config.numStacks

/-- R212: the lowest strict argument that is still a handle: its number and the handle. -/
def Inv.strict (i : Inv) : Option (Nat × Word) :=
  (i.args.zipIdx.find? fun a => i.smask / 2 ^ a.2 % 2 == 1 && bitw a.1 0).map fun a => (a.2, a.1)

/-- R218: the acceptance notice of an invocation goes to the record that forwarded it last. -/
def State.notify (s : State) (src : Endpoint) (i : Inv) : State :=
  match i.path with
  | [] => s
  | (h, _) :: _ => s.push ⟨.clo, src, .plot (hPlot h), i.tenant, .accept i.path i.promise⟩

/-- R243: the capabilities that an invocation carries are released at their units. -/
def State.releaseCaps (s : State) (src : Endpoint) (i : Inv) : State :=
  i.caps.foldl (fun s g => s.push ⟨.req, src, g.unit, i.tenant,
    .gate ⟨⟨hPlot i.promise, 0, 0⟩, 0, g.va, g.target, .rel, i.tenant⟩⟩) s

/-- R227, R243: an invocation breaks: its promise breaks, the capabilities it carries are released at their units, and
the record that forwarded it is told (R214: breaking is acceptance). -/
def State.breakInv (s : State) (src : Endpoint) (i : Inv) (record : Word) : State :=
  let h := i.promise
  let s := if h = 0 then s else s.push ⟨.clo, src, .plot (hPlot h), i.tenant, .settle h (.broken record) i.member⟩
  (s.releaseCaps src i).notify src i

/-- R227: a break with the invocation as its own origin. -/
def State.breakOwn (s : State) (src : Endpoint) (i : Inv) (cause : Nat) : State :=
  s.breakInv src i (mkBreak i.promise cause 0)

/-- R211: the parts of a rectangle word: the north-west plot, the height and the width. -/
def rectOf (w : Word) : Nat × Nat × Nat := (fldw w 28 36, fldw w 20 8 + 1, fldw w 12 8 + 1)

/-- R213: the members of a rectangle, as PLOTIDs. -/
def rectPlots (w : Word) : List Nat :=
  let (p, h, n) := rectOf w
  (List.range h).flatMap fun r => (List.range n).map fun c => p + 256 * r + c

/-- R212, R216: an invocation leaves for its next strict argument's promise plot, or for its target. A handle whose plot
does not exist is stale (R229). A multicast goes to every member (R213); the record that released it waits for the acceptance of each
(R218). -/
def State.route (s : State) (src : Endpoint) (i : Inv) : State :=
  let goTo := fun (h : Word) =>
    if plotOk (hPlot h) then s.push ⟨.inv, src, .plot (hPlot h), i.tenant, .inv i⟩
    else s.breakInv src i (mkBreak h 0x19 1)
  match i.strict with
  | some (_, h) => goTo h
  | none =>
    if i.mc && !i.member then
      let ms := rectPlots i.target
      let s := match i.path with
        | [] => s
        | (h, n) :: _ => s.modPlot (hPlot h % 2 ^ 20) fun x => { x with
            records := Sparse.modify Record.reset x.records (hSlot h) fun r => { r with out := r.out ++ List.replicate (ms.length - 1) n } }
      ms.foldl (fun s q => s.push ⟨.inv, src, .plot q, i.tenant, .inv { i with target := .ofNat 64 (q * 2 ^ 28), member := true }⟩) s
    else goTo i.target

/-- R248: an outstanding access keeps a fence of a scope (0 ctx, 1 plot, 2 field, 3 pkg, 4 sys) waiting. -/
def fenceWaits (scope : Nat) (o : Outst) : Bool :=
  match o.space with
   | .other => false
   | sp => !o.store || (match sp with
   | .scratchOwn => decide (1 ≤ scope)
   | .scratch => decide (2 ≤ scope)
   | .hbm => decide (3 ≤ scope)
   | .peer | .host => decide (4 ≤ scope)
   | .other => false)

/-- What leaves is an invocation whose target is a handle. -/
def Leaving.namesHandle : Leaving → Bool
  | .invocation i => bitw i.target 0
  | .packet _ => false

/-- What leaves, leaves. -/
def State.sendOut (s : State) (p : Nat) : Leaving → State
  | .packet k => s.push k
  | .invocation i => s.route (.plot (s.plotId p)) i

/-- R348: what a task sends waits for the accesses and copies before it, and for what the task sent before it. -/
def State.leave (s : State) (p task : Nat) (waits : List Nat) (l : Leaving) : State :=
  if waits.isEmpty && !(s.plot p).outbox.any fun h => h.task == task then s.sendOut p l
  else s.modPlot p fun x => { x with outbox := x.outbox ++ [⟨task, waits, l⟩] }

/-- One entry of an outbox: it leaves if it waits for nothing and no entry of its task stays before it. -/
def State.leaveStep (s : State) (p : Nat) (h : Held) : State :=
  if h.waits.isEmpty && !(s.plot p).outbox.any fun k => k.task == h.task then s.sendOut p h.what
  else s.modPlot p fun x => { x with outbox := x.outbox ++ [h] }

/-- An access or a copy of a plot's task has been performed: what waited for it alone leaves, in order. -/
def State.performed (s : State) (p id : Nat) : State :=
  let hs := (s.plot p).outbox
  if hs.isEmpty then s
  else hs.foldl (fun s h => s.leaveStep p { h with waits := h.waits.filter (· != id) })
    (s.modPlot p fun x => { x with outbox := [] })

/-- R348, R349: the accesses that an INVOKE, a SEND or a settlement of a context waits for. -/
def Ctx.before (x : Ctx) (scope : Nat) : List Nat := (x.outst.filter (fenceWaits scope)).map (·.id)

/-- R223, R349: the settlement of a promise by the task of a context leaves in CLO for the promise's plot. -/
def State.settle (s : State) (p c : Nat) (h : Word) (st : PState) (member : Bool) : State :=
  let x := s.ctx p c
  if h = 0 then s
  else s.leave p x.csr.taskid (x.before 4)
    (.packet ⟨.clo, .plot (s.plotId p), .plot (hPlot h), (s.plot p).tenant, .settle h st member⟩)

/-- R241: the copies of a context that a release of a record waits for: those whose destination meets the bound region, or
all when the record is unbound. -/
def State.copiesBefore (s : State) (p : Nat) (x : Ctx) (target : Nat) : List Nat :=
  let f := Sparse.get Field.reset s.fields (fieldOf p)
  let live := x.copies.filter fun c => !c.failed
  let meets : List CopyRec := match f.regions.find? (fun (r : Region) => r.target == target) with
    | some r => live.filter fun c => decide (c.dstLo < r.base + r.bytes) && decide (r.base < c.dstHi)
    | none => live
  meets.map (·.id)

/-- R241, R243: the copies that a release of an entry waits for: all of them where the record is another package's, whose bindings this one
does not hold. -/
def State.copiesFor (s : State) (p : Nat) (x : Ctx) (g : Gate) : List Nat := match g.home with
  | none => s.copiesBefore p x g.target
  | some _ => (x.copies.filter fun c => !c.failed).map (·.id)

/-- R244, R350: the release of every entry of the held-gate table of a context's task, with the waits of rel. -/
def State.releaseGates (s : State) (p c : Nat) : State :=
  let x := s.ctx p c
  x.gates.foldl (fun s g => s.leave p x.csr.taskid (x.before 3 ++ s.copiesFor p x g)
    (.packet ⟨.req, .plot (s.plotId p), g.unit, (s.plot p).tenant,
      .gate ⟨⟨s.plotId p, x.csr.taskid, 0⟩, 0, g.va, g.target, .rel, (s.plot p).tenant⟩⟩)) s

/-- Where a task of a plot is: in a context, or in a spilled image. -/
inductive Place where
  | ctx (c : Nat)
  | image (k : Nat)
  deriving DecidableEq, Repr

/-- Finds a task of a plot by its TASKID. -/
def Plot.find (x : Plot) (task : Nat) : Option Place :=
  match (List.range 4).find? fun c => (x.ctx c).live && (x.ctx c).csr.taskid == task with
  | some c => some (.ctx c)
  | none =>
    match x.sched.images.findIdx? fun i => i.1.csr.taskid == task with
    | some k => some (.image k)
    | none => none

/-- The context or image at a place. -/
def Plot.at_ (x : Plot) : Place → Ctx
  | .ctx c => x.ctx c
  | .image k => match x.sched.images[k]? with
    | some i => i.1
    | none => Ctx.empty

/-- Replaces the context or image at a place; `ready` is the cycle at which an image's block condition cleared. -/
def Plot.put (x : Plot) (pl : Place) (y : Ctx) (ready : Option Nat) : Plot :=
  match pl with
  | .ctx c => x.setCtx c y
  | .image k => match x.sched.images[k]? with
    | some i => { x with sched := { x.sched with images := x.sched.images.set k (y, match i.2 with | some r => some r | none => ready) } }
    | none => x

/-- Changes a task of a plot, wherever it is. -/
def State.modTask (s : State) (p task : Nat) (f : Ctx → Ctx) : State :=
  match (s.plot p).find task with
  | some pl => s.modPlot p fun x => x.put pl (f (x.at_ pl)) none
  | none => s

/-- R199: a follower splits: its own fetch resumes at a PC, its queue is discarded. One that a debugger, a spill or a time-out splits goes
on with its next instruction: the one of the entry that it would take next, unless it waits for an answer of an instruction before. -/
def State.splitFollower (s : State) (p c cause : Nat) : State :=
  let f := (s.ctx p c).furrow
  let s := match f.queue with
    | e :: _ => if 4 ≤ cause && (s.ctx p c).hold.isNone && (s.ctx p c).pair.isNone then s.modCtx p c fun x => { x with pc := e.pc } else s
    | [] => s
  let s := match f.leader with
    | some (lp, task) => s.modTask lp task fun x =>
        { x with furrow := { x.furrow with followers := x.furrow.followers.filter (· != (p, c)) } }
    | none => s
  s.modCtx p c fun x =>
    let hold := match x.hold with
      | some h => if h.kind = .follow then none else some h
      | none => none
    { x with hold := hold, furrow := { x.furrow with leader := none, ofs := 0, queue := [], lcause := cause } }

/-- R199: every follower of a leader splits. -/
def State.dissolve (s : State) (p c cause : Nat) : State :=
  (s.ctx p c).furrow.followers.foldl (fun s f => s.splitFollower f.1 f.2 cause) s

/-- R191, R244: a task ends: its gates are released, its copy records discarded, its context frees (at once if nothing
holds it, R191). -/
def State.endTask (s : State) (p c : Nat) : State :=
  (s.releaseGates p c).modCtx p c fun x =>
    { x with ended := true, gates := [], copies := [], pair := none, block := none, quantum := none,
             due := ⟨none, [], none⟩ }

/-- The engine is left by a context; an unfinished fetch is forgotten. -/
def Ctx.dropMul (x : Ctx) : Ctx :=
  { x with mul := MulWork.none, outst := x.outst.map fun o => match o.act with
      | .stream _ => { o with act := .ack }
      | _ => o }

/-- R315: words go back to the front of the port queues that they came from. -/
def Plot.unpop (x : Plot) (ws : List (Nat × Word)) : Plot :=
  { x with inq := (List.range 4).foldl (fun m d =>
      Sparse.set [] m d ((ws.filterMap fun w => if w.1 = d then some w.2 else none) ++ Sparse.get [] m d)) x.inq }

/-- R140: the multiply of a context, or of a spilled task, has yielded and holds its group. -/
def Plot.hasYielded (x : Plot) (y : Ctx) : Bool := x.groups.any fun g => match g.2.held with
  | some k => if k < 4 then (x.ctx k).live && (x.ctx k).csr.taskid == y.csr.taskid else k == 4 + y.csr.taskid
  | none => false

/-- R140: a context leaves the engine: it neither runs, waits nor holds a group. -/
def Plot.leaveEngine (x : Plot) (c : Nat) : Plot :=
  { x with
    engine := { running := if x.engine.running = some c then none else x.engine.running,
                waiting := x.engine.waiting.filter (· != c) }
    groups := x.groups.map fun g => (g.1, if g.2.held = some c then { g.2 with held := none } else g.2) }

/-- R191: an ended task's context is freed. The cause of its last split is not kept. -/
def State.freeCtx (s : State) (p c : Nat) : State :=
  let s := s.setCtx p c Ctx.empty
  s.modPlot p fun x =>
    let x := x.leaveEngine c
    { x with divBusy := if x.divBusy = some c then none else x.divBusy }

/-- R319, R61: the results that a context's task still owes are discarded, and the slots they hold in outbound queues are released (log entry 61). -/
def Plot.dropSlots (x : Plot) (y : Ctx) : Plot :=
  let ids := (y.multi.filter fun m => isPort m.reg).map (·.slot) ++ (match y.hold with
    | some h => match h.kind with
      | .sleep _ | .follow => []
      | _ => [h.id]
    | none => [])
  { x with outq := x.outq.map fun q => (q.1, q.2.filter fun k => k.word.isSome || !ids.contains k.id) }

/-- R319: a task is killed with a cause. -/
def State.kill (s : State) (p c : Nat) (cause : Nat) (parent : Bool) : State :=
  let x := s.ctx p c
  let h := x.task.promise
  let s := s.settle p c h (.broken (mkBreak h cause 0)) true
  let s := if parent && h != 0 then s.settle p c x.task.parent (.broken (mkBreak h cause 1)) false else s
  let s := s.releaseGates p c
  let s := s.dissolve p c 6
  let s := match x.furrow.leader with
    | some _ => s.splitFollower p c 3
    | none => s
  (s.modPlot p (·.dropSlots x)).freeCtx p c

/-- R178: a channel entry. -/
def Plot.chan (x : Plot) (k : Nat) : Chan := Sparse.get Chan.reset x.chans k

/-- Changes a channel entry. -/
def Plot.modChan (x : Plot) (k : Nat) (f : Chan → Chan) : Plot :=
  { x with chans := Sparse.set Chan.reset x.chans k (f (x.chan k)) }

/-- R321: an object slot. -/
def Plot.obj (x : Plot) (k : Nat) : Obj := Sparse.get Obj.reset x.objs k

/-- R317: the containment levels from the task upward: enabled, and action. -/
def Plot.levels (x : Plot) (chan : Nat) : List (Bool × Nat) :=
  let ch := x.chan chan
  let ob := x.obj ch.slot
  (ch.cen, ch.cact) :: ((if ch.objv then [(ob.cen, ob.cact)] else []) ++ [(bitw x.csr.pcont 2, fldw x.csr.pcont 0 2)])

/-- R318: the action of containment: the lowest enabled level decides; a retry level with RCNT = 3 does not count; with
none, kill self. -/
def containAct (rcnt : Nat) : List (Bool × Nat) → Nat
  | [] => 2
  | (en, act) :: t => if en && !(act == 1 && rcnt == 3) then act else containAct rcnt t

/-- The mode of TSTAT.PPRIV, with INTRAP and ASYNC cleared (R318, R312). -/
def Ctx.leaveTrap (x : Ctx) (pc : Word) : Ctx :=
  { x with sup := tsPpriv x.csr.tstat, pc := pc,
           csr := { x.csr with tstat := putw (putw x.csr.tstat 1 1 0) 3 1 0 } }

/-- The address after the instruction or pair at an address (R318). -/
def Plot.after (x : Plot) (a : Word) : Word := if isModWord (x.word a.toNat) then a + 8 else a + 4

/-- R318: containment of a trap with a cause. -/
def State.contain (s : State) (p c cause : Nat) : State :=
  let x := s.ctx p c
  let pl := s.plot p
  let ts := x.csr.tstat
  match containAct (tsRcnt ts) (pl.levels x.task.chan) with
  | 0 =>
    let at_ := x.csr.epc
    let w := pl.word (if isModWord (pl.word at_.toNat) then at_.toNat + 4 else at_.toNat)
    s.modCtx p c fun x =>
      let x := if !tsAsync ts && isMultiply w then { x with csr := { x.csr with mrp := putw x.csr.mrp 63 1 0 } } else x
      x.leaveTrap (if tsAsync ts then at_ else pl.after at_)
  | 1 => s.modCtx p c fun x =>
      let x := x.leaveTrap x.csr.epc
      { x with csr := { x.csr with tstat := putw x.csr.tstat 12 4 (tsRcnt ts + 1) } }
  | 2 => s.kill p c cause false
  | _ => s.kill p c cause true

/-- R314: "continue at EPC", with BSUP where the trap set it. INTRAP is cleared (DEDUCED, log entry 62); ASYNC stays as the trap set it (R310). -/
def Ctx.goOnAt (x : Ctx) : Ctx :=
  { x with sup := tsPpriv x.csr.tstat, pc := x.csr.epc, bsup := tsBsup x.csr.tstat, csr := { x.csr with tstat := putw x.csr.tstat 1 1 0 } }

/-- R314: the default action when TVEC.EN = 0. -/
def State.defaultAct (s : State) (p c : Nat) (cause : Cause) (v : Word) : State :=
  let goOn := s.modCtx p c (·.goOnAt)
  match cause with
  | .late =>
    if v = 0xFFFFFFFFFFFFFFFF then s.contain p c cause.code
    else goOn.modCtx p c fun x => { x with hold := some ⟨.sleep v.toNat, 0, s.now, [], v, 1, []⟩ }
  | .numeric | .spillFull | .step | .breakpoint | .watchpoint => goOn
  | _ => s.contain p c cause.code

/-- R311: trap entry of a context whose instruction is at `epc`. -/
def State.enterTrap (s : State) (p c : Nat) (cause : Cause) (v epc : Word) (async : Bool) : State :=
  let s := s.modCtx p c fun x => { x with bsup := false }
  let x := s.ctx p c
  if tsIntrap x.csr.tstat then (s.modCtx p c fun x => { x with handlers := x.handlers - 1 }).contain p c cause.code
  else
    let ts := x.csr.tstat
    let ts := putw ts 0 1 (bit x.sup)
    let ts := putw ts 1 1 1
    let ts := putw ts 2 1 (bit (cause == .breakpoint || cause == .watchpoint))
    let ts := putw ts 3 1 (bit async)
    let s := s.modCtx p c fun x =>
      { x with csr := { x.csr with epc := epc, tcause := .ofNat 64 cause.code, tval := v, tstat := ts } }
    let tvec := (s.plot p).csr.tvec
    if bitw tvec 63 then s.modCtx p c fun x => { x with sup := true, handlers := x.handlers + 1, pc := .ofNat 64 (fldw tvec 2 11 * 4) }
    else s.defaultAct p c cause v

/-- R330: an instruction or a trap entry has ended: a step is over where an instruction has run, its trap entry included (DEDUCED, log entry 116), and
a halt that was asked for takes effect. -/
def Ctx.halts (x : Ctx) (ran : Bool) : Ctx :=
  { x with halted := x.halted || x.haltReq || (x.dbgStep && ran), haltReq := false, dbgStep := x.dbgStep && !ran }

/-- R311, R199, R140: a trap: a follower splits first, a multiply of the context leaves the engine, and the port word that it took goes
back (R315); a context with HOT halts instead of entering. The end of a step, or a halt that was asked for, halts the context at the handler (R330). -/
def State.trapAt (s : State) (p c : Nat) (cause : Cause) (v epc : Word) (async : Bool) : State :=
  let s := if (s.ctx p c).furrow.leader.isSome then s.splitFollower p c 3 else s
  let s := s.raise p c (s.ctx p c).mul.flags
  let s := s.modPlot p fun x => (x.leaveEngine c).unpop (x.ctx c).mul.popped
  let s := s.modCtx p c fun x => { (x.dropMul.halts !async) with pair := none, block := none, xfault := none, furrow := { x.furrow with resume := none } }
  let hot := dbgHot (s.ctx p c).csr.dbgctl
  if hot = 2 || (hot = 1 && (cause == .breakpoint || cause == .watchpoint || cause == .step)) then
    s.modCtx p c fun x => { x with halted := true, hotTrap := some (cause, v, epc, async) }
  else s.enterTrap p c cause v epc async

/-- A trap at the current instruction, or at the modifier word of its pair: the context's PC (R67, R315). -/
def State.trap (s : State) (cause : Cause) (v : Word) : State :=
  s.trapAt s.cur.1 s.cur.2 cause v s.me.pc false

/-- R146: a context's multiply has the engine and goes on at its next k step: it has issued, and does not wait. -/
def Ctx.goesOn (y : Ctx) : Bool := match y.block with
  | some b => b.why == .steps
  | none => false

/-- R332 class 8, R189: the instruction did not issue. A translation that misses is asked for (R111). Every wait ends a floor-tick quantum, whether
or not R182 calls it a block (DESIGN CHOICE, log entry 105); a multiply that goes on does not wait. -/
def State.blocked (s : State) (w : Wait) : State :=
  let (p, c) := s.cur
  -- R332 class 8: a block on an empty source or word starts
  let isNew := match s.me.block with
    | some ⟨.source _, _⟩ | some ⟨.word _ _, _⟩ => false
    | _ => true
  let s := s.modMe fun x => { x with
    pair := none
    block := some ⟨w, match x.block with
      | some b => b.since
      | none => s.now⟩
    issued := true
    quantum := if w = .steps then x.quantum else none }
  match w with
  | .translation va =>
    let e := ((s.ctx p c).csr.taskid, va)
    if (s.plot p).xreq.any (· == e) then s else s.modPlot p fun x => { x with xreq := x.xreq ++ [e] }
  | .source _ => if isNew then s.countAt p 8 else s
  | .word _ _ => if isNew then s.countAt p 8 else s
  | _ => s

/-- The number of words of the instruction under execution: two for a pair (R67). -/
def Ctx.words (x : Ctx) : Nat := if x.pair.isSome then 2 else 1

/-- The address of the instruction itself: in a pair, the second word (R72). -/
def State.ipc (s : State) : Word := if s.me.pair.isSome then s.me.pc + 4 else s.me.pc

/-- What retirement does to a context beside moving the PC: RCNT (R310), BSUP (R312), STEP (R329), a halt asked for
(R330), the floor-tick quantum (R189). -/
def Ctx.retired (x : Ctx) : Ctx :=
  let ts := x.csr.tstat
  let ts := if tsIntrap ts then ts else putw ts 12 4 0
  { x with
    csr := { x.csr with tstat := if x.bsup then putw ts 2 1 0 else ts }
    bsup := false
    due := { x.due with step := if dbgStepBit x.csr.dbgctl && !x.sup then some x.pc else x.due.step }
    pair := none
    block := none
    xfault := none
    halted := x.halted || x.dbgStep || x.haltReq
    dbgStep := false
    haltReq := false
    quantum := match x.quantum with
      | some q => if q ≤ x.words then none else some (q - x.words)
      | none => none }

/-- R182, R189: a context has issued. -/
def State.issuedNow (s : State) (p c : Nat) : State :=
  let s := s.modCtx p c fun x => { x with issued := true, lastIssue := s.now }
  s.modPlot p fun pl => { pl with sched := { pl.sched with last := Sparse.set 4 pl.sched.last (pl.ctx c).csr.taskpri c } }

/-- The retirement of an instruction that issued earlier, beside moving the PC; the count of R202. -/
def State.retireLate (s : State) (p c : Nat) : State :=
  let n := (s.ctx p c).words
  (s.modCtx p c (·.retired)).modPlot p fun pl => { pl with sched := { pl.sched with retired := pl.sched.retired + n } }

/-- What issue and retirement do beside moving the PC. -/
def State.retireBase (s : State) (p c : Nat) : State := (s.issuedNow p c).retireLate p c

/-- The instruction retires and the next one follows it (R54). -/
def State.retireAt (s : State) (p c : Nat) : State :=
  let n := (s.ctx p c).words
  (s.retireBase p c).modCtx p c fun x => { x with pc := x.pc + .ofNat 64 (4 * n) }

/-- The current instruction retires. -/
def State.retire (s : State) : State := s.retireAt s.cur.1 s.cur.2

/-- R54: the check of a target. -/
def targetFault (t : Word) : Option Cause :=
  if t.toNat % 4 ≠ 0 then some .fetchMisalign else if 0x1FFC < t.toNat then some .fetchFault else none

/-- R54: the current instruction retires and delivers a target; `from_` is the address the trap reports. -/
def State.retireTo (s : State) (t from_ : Word) : State :=
  let s := (s.retireBase s.cur.1 s.cur.2).modMe fun x => { x with pc := t }
  match targetFault t with
  | some c => s.trapAt s.cur.1 s.cur.2 c from_ t false
  | none => s

/-- R312: the return from a trap of the current context: the mode of PPRIV, INTRAP and ASYNC cleared, a jump to EPC. -/
def State.tret (s : State) : State :=
  let from_ := s.ipc
  let x := s.me
  let s := s.retireBase s.cur.1 s.cur.2
  let s := s.modMe fun y => { y.leaveTrap x.csr.epc with handlers := y.handlers - 1, bsup := tsBsup x.csr.tstat && !x.bsup }
  match targetFault x.csr.epc with
  | some c => s.trapAt s.cur.1 s.cur.2 c from_ x.csr.epc false
  | none => s

/-- The outcome of an attempt of the current instruction: its next state, a block, or a trap that leaves no
other effect (R72). -/
def State.finish (s : State) (r : Try State) : Res :=
  match r with
  | .ok t => .next t
  | .error (.block w) => .next (s.blocked w)
  | .error (.trap c v) => .next (s.trap c v)

end Sys2Proof.Machine
end

