-- ==== Sys2Proof/Machine/Operands.lean ====
section
/-!
DEFINITION. Operand forms: immediates, buffer accesses with their protection (05, R91 to R98; 14, R334 to R337),
addresses and translation (05, R103 to R111), the capability check (11, R246), watchpoints (14, R328), and sending an
access.
-/

namespace Sys2Proof.Machine

open Sys2Proof

/-! ## Immediates and modifier fields -/

/-- R72: Imm(): the sign-extended imm13, or the 37-bit value under a kind-00 modifier (R64). -/
def immOf (m : Option Modifier) (i : BitVec 13) : Word :=
  match m with
  | some (.imm p) => sext 37 (p.toNat * 2 ^ 13 + i.toNat)
  | _ => sext 13 i.toNat

/-- R65: the fields of a kind-01 modifier. -/
structure Vf where
  mask : Nat
  zm : Bool
  rm : Nat
  op4 : Nat
  sat : Bool
  p : Nat
  uns : Bool
  inf : Bool
  deriving DecidableEq, Repr

/-- R65 -/
def vfOf (p : BitVec 24) : Vf :=
  let n := p.toNat
  ⟨fld n 18 6, flag n 17, fld n 14 3, fld n 8 6, flag n 7, fld n 4 3, flag n 3, flag n 2⟩

/-- R68: the kind-01 fields of the pair, or their defaults. -/
def modVf (m : Option Modifier) : Vf :=
  match m with
  | some (.vf p) => vfOf p
  | _ => ⟨0, false, 7, 0, false, 0, false, false⟩

/-- R39, R49: the rounding mode in force. -/
def rmOf (v : Vf) (fpcsr : Word) : Nat := if v.rm = 7 then fldw fpcsr 8 3 else v.rm

/-- R32, R49: FPCSR.FTZ -/
def ftzOf (fpcsr : Word) : Bool := bitw fpcsr 11

/-- R37: the format of a type code under the modifier and VFMT. -/
def fmtIn (v : Vf) (vfmt : Word) (ty : Nat) : Fmt :=
  if v.p ≠ 0 then fmtOf ty v.p v.inf else fmtOf ty (fldw vfmt 0 3) (bitw vfmt 3)

/-- R65: the fields of a kind-10 modifier. -/
structure InvMod where
  hmask : Nat
  smask : Nat
  pri : Option Nat
  cap : Bool
  mc : Bool
  deriving DecidableEq, Repr

/-- R65 -/
def invModOf (p : BitVec 24) : InvMod :=
  let n := p.toNat
  ⟨fld n 16 8, fld n 8 8, some (fld n 5 3), flag n 4, flag n 3⟩

/-- R68, R211: the kind-10 fields of the pair, or none. -/
def modInvFields (m : Option Modifier) : InvMod :=
  match m with
  | some (.inv p) => invModOf p
  | _ => ⟨0, 0, none, false, false⟩

/-! ## Buffers -/

/-- The bytes of a buffer, by code (R91). -/
def Bufs.bytes (b : Bufs) (buf : Nat) : Sparse Byte :=
  match buf with
  | 0 => b.a
  | 1 => b.w
  | _ => b.c

/-- R97: the words of a buffer marked empty. -/
def Bufs.empties (b : Bufs) (buf : Nat) : Sparse Bool :=
  match buf with
  | 0 => b.ea
  | 1 => b.ew
  | _ => b.ec

/-- A byte of a buffer. -/
def Bufs.byte (b : Bufs) (buf o : Nat) : Byte := Sparse.get 0 (b.bytes buf) o

/-- Writes bytes of a buffer. -/
def Bufs.setBytes (b : Bufs) (buf o : Nat) (bs : List Byte) : Bufs :=
  match buf with
  | 0 => { b with a := Sparse.setN 0 b.a o bs }
  | 1 => { b with w := Sparse.setN 0 b.w o bs }
  | _ => { b with c := Sparse.setN 0 b.c o bs }

/-- FE(buffer, i): the word is empty. -/
def Bufs.wordEmpty (b : Bufs) (buf i : Nat) : Bool := Sparse.get false (b.empties buf) i

/-- Sets FE of a word. -/
def Bufs.setEmpty (b : Bufs) (buf i : Nat) (e : Bool) : Bufs :=
  match buf with
  | 0 => { b with ea := Sparse.set false b.ea i e }
  | 1 => { b with ew := Sparse.set false b.ew i e }
  | _ => { b with ec := Sparse.set false b.ec i e }

/-- R97: a write by an engine or the remote port sets full every word in which it writes a byte. -/
def Bufs.writeFull (b : Bufs) (buf : Nat) (bs : List (Nat × Byte)) : Bufs :=
  bs.foldl (fun b x => (b.setBytes buf x.1 [x.2]).setEmpty buf (x.1 / 8) false) b

/-- R93, R91: the square or bank of an offset. -/
def squareOf (buf o : Nat) : Nat := if buf = 2 then o / 1024 else o / 256 / 32 * 8 + o % 256 / 32

/-- R334: the position of an offset in its square. -/
def posOf (buf o : Nat) : Nat := if buf = 2 then o % 1024 else o / 256 % 32 * 32 + o % 32

/-- R334: the squares of a buffer, check squares included. -/
def squares : Nat → Nat
  | 0 => 18
  | 1 => 34
  | _ => 10

/-- R335: the failed square of a buffer. -/
def failedSquare (sq : Word) (buf : Nat) : Option Nat :=
  match buf with
  | 0 => if bitw sq 22 then some (fldw sq 17 5) else none
  | 1 => if bitw sq 16 then some (fldw sq 10 6) else none
  | _ => if bitw sq 9 then some (fldw sq 5 4) else none

/-- R335: marks a square failed. -/
def markSquare (sq : Word) (buf q : Nat) : Word :=
  match buf with
  | 0 => putw (putw sq 22 1 1) 17 5 q
  | 1 => putw (putw sq 16 1 1) 10 6 q
  | _ => putw (putw sq 9 1 1) 5 4 q

/-- The key of a symbol in the table of wrong symbols. -/
def errKey (buf pos sq : Nat) : Nat := buf * 2 ^ 16 + pos * 64 + sq

/-- R334: the wrong symbols of the code word at a position. -/
def Bufs.wrong (b : Bufs) (buf pos : Nat) : List Nat :=
  (List.range (squares buf)).filter fun q => decide (Sparse.get 0 b.errs (errKey buf pos q) ≠ 0)

/-- R335: the square served by erasure decoding: marked failed, or under rebuilding. -/
def Plot.erased (x : Plot) (buf : Nat) : Option Nat :=
  match failedSquare x.csr.sqstat buf with
  | some q => some q
  | none => (x.bufs.rebuilding.find? fun k => k / 64 == buf).map (· % 64)

/-- R337: an offset whose code word cannot be corrected. -/
def Plot.uncorrectable (x : Plot) (buf o : Nat) : Bool :=
  let w := x.bufs.wrong buf (posOf buf o)
  let q := squareOf buf o
  match x.erased buf with
  | none => decide (q ∈ w) && decide (1 < w.length)
  | some f => if f = q then w.any (· != f) else decide (q ∈ w)

/-- The 32 positions of the row of a position. -/
def rowPos (pos : Nat) : List Nat := (List.range 32).map fun i => pos / 32 * 32 + i

/-- R334: the symbols of a row that a read of a square corrects, as (position, square): the single wrong symbol of each code word, where the row
of that square fails its detection code. -/
def Plot.corrects (x : Plot) (buf q row : Nat) : List (Nat × Nat) :=
  let ps := rowPos (row * 32)
  if (x.erased buf).isSome || !ps.any (fun i => decide (q ∈ x.bufs.wrong buf i)) then []
  else ps.filterMap fun i => match x.bufs.wrong buf i with
    | [k] => some (i, k)
    | _ => none

/-- R335: a correction in a square: the fourth marks it failed, while its buffer has none marked. -/
def State.countCorrection (s : State) (p buf q : Nat) : State :=
  let n := Sparse.get 0 (s.plot p).bufs.corrections (buf * 64 + q) + 1
  let mark := decide (4 ≤ n) && (failedSquare (s.plot p).csr.sqstat buf).isNone
  let s := s.modPlot p fun x => { x with
    bufs := { x.bufs with corrections := Sparse.set 0 x.bufs.corrections (buf * 64 + q) n }
    csr := { x.csr with sqstat := if mark then markSquare x.csr.sqstat buf q else x.csr.sqstat } }
  if mark then (s.countAt p 7).hostEvent 4 (s.plotId p) (buf * 64 + q) else s

/-- R334, R335: the code words of a row are corrected and written back; each square in which a symbol was wrong counts a correction. -/
def State.correctRow (s : State) (p buf q row : Nat) : State :=
  match (s.plot p).corrects buf q row with
  | [] => s
  | cs =>
    let s := s.modPlot p fun x => { x with bufs := { x.bufs with errs := cs.foldl (fun m c => Sparse.set 0 m (errKey buf c.1 c.2) 0) x.bufs.errs } }
    (cs.map (·.2)).eraseDups.foldl (fun s k => s.countCorrection p buf k) s

/-- R334, R332 class 6: an access of a square reads rows of it: it is a corrected read if something was wrong that could be corrected. -/
def State.correctRead (s : State) (p buf q : Nat) (rows : List Nat) : State :=
  let t := rows.foldl (fun s r => s.correctRow p buf q r) s
  if rows.any fun r => !((s.plot p).corrects buf q r).isEmpty then t.countAt p 6 else t

/-- The rows of a square that a list of offsets touches, each once. -/
def rowsOf (buf : Nat) (os : List Nat) (q : Nat) : List Nat :=
  ((os.filter fun o => squareOf buf o == q).map fun o => posOf buf o / 32).eraseDups

/-- R334, R337: a read of a buffer that accesses the offsets `all` and takes the bytes at `os`: the bytes and the corrections it makes, or the
first of `os` that cannot be corrected. -/
def State.readLanes (s : State) (p buf : Nat) (all os : List Nat) : Except Nat (List Byte × State) :=
  match os.find? fun o => (s.plot p).uncorrectable buf o with
  | some o => .error o
  | none =>
    .ok (os.map fun o => (s.plot p).bufs.byte buf o,
      ((all.map (squareOf buf)).eraseDups).foldl (fun s q => s.correctRead p buf q (rowsOf buf all q)) s)

/-- R334, R337: a read of bytes of a buffer. -/
def State.readBuf (s : State) (p buf : Nat) (os : List Nat) : Except Nat (List Byte × State) := s.readLanes p buf os os

/-- R113: a write of the task to its own plot has been accepted by the remote port and is not performed. -/
def Ctx.ownStore (x : Ctx) : Bool := x.outst.any fun o => o.store && decide (o.space = .scratchOwn)

/-- R113, R342: an access of a context to its own buffers waits for its writes to them through the plot's remote port. -/
def State.ownTry (s : State) : Try Unit := need (!s.me.ownStore) (.block .ownStore)

/-- A read of the current context's own buffer, which accesses `all`, after its own writes; ECC-UNCORRECTED at the instruction (R337). -/
def State.readOwnLanes (s : State) (buf : Nat) (all os : List Nat) : Try (List Byte × State) := do
  s.ownTry
  match s.readLanes s.cur.1 buf all os with
  | .ok r => .ok r
  | .error o => signal .eccUncorrected (.ofNat 64 (buf * 2 ^ 16 + o))

/-- A read of bytes of the current context's own buffer. -/
def State.readOwn (s : State) (buf : Nat) (os : List Nat) : Try (List Byte × State) := s.readOwnLanes buf os os

/-- A write to a buffer makes the symbols written right again (the check squares are kept current, R335). -/
def clearErrs (buf : Nat) (os : List Nat) (m : Sparse Byte) : Sparse Byte :=
  os.foldl (fun m o => Sparse.set 0 m (errKey buf (posOf buf o) (squareOf buf o)) 0) m

/-- A write of bytes by the plot's own contexts: FE unchanged (R97). -/
def Bufs.write (b : Bufs) (buf : Nat) (bs : List (Nat × Byte)) : Bufs :=
  let b := bs.foldl (fun b x => b.setBytes buf x.1 [x.2]) b
  { b with errs := clearErrs buf (bs.map (·.1)) b.errs }

/-- A write of bytes by an engine or the remote port (R97). -/
def Bufs.writeEngine (b : Bufs) (buf : Nat) (bs : List (Nat × Byte)) : Bufs :=
  let b := b.writeFull buf bs
  { b with errs := clearErrs buf (bs.map (·.1)) b.errs }

/-- Changes the buffers of a plot. -/
def State.modBufs (s : State) (p : Nat) (f : Bufs → Bufs) : State := s.modPlot p fun x => { x with bufs := f x.bufs }

/-- The offsets o … o + n - 1. -/
def span (o n : Nat) : List Nat := (List.range n).map (o + ·)

/-- Bytes with their addresses from `a` on. -/
def placed (a : Nat) (bs : List Byte) : List (Nat × Byte) := bs.zipIdx.map fun x => (a + x.2, x.1)

/-- R56: the value of a load. -/
def extend (ws : Nat) (bs : List Byte) : Word := if ws ≤ 3 then .ofNat 64 (numLE bs) else sext (8 * 2 ^ (ws - 4)) (numLE bs)

/-- R56: the bytes of an access, which is the scale of off8. -/
def wsBytes (ws : Nat) : Nat := if ws ≤ 3 then 2 ^ ws else 2 ^ (ws - 4)

/-! ## Watchpoints and breakpoints -/

/-- R312: matches are suppressed for the first instruction after TRET. -/
def Ctx.suppressed (x : Ctx) : Bool := x.bsup

/-- R328: a byte address matches watchpoint `n` of a context. -/
def Ctx.watches (x : Ctx) (n sp : Nat) (ld st : Bool) (a : Nat) : Bool :=
  let m := Sparse.get 0 x.csr.wpm n
  let w := Sparse.get 0 x.csr.wpa n
  bitw x.csr.dbgctl (5 + n) && fldw m 62 2 == sp && ((ld && bitw m 61) || (st && bitw m 60)) &&
    ((Word.ofNat64 a ^^^ w) &&& .ofNat 64 (fldw m 0 56)) == 0 && (sp != 3 || a / 2 ^ 56 % 256 == fldw w 56 8)
where Word.ofNat64 (a : Nat) : Word := .ofNat 64 a

/-- R328: a matching access raises WATCHPOINT before it has effect, with the lowest matching address. -/
def State.watch (s : State) (sp : Nat) (ld st : Bool) (as : List Nat) : Try Unit :=
  let x := s.me
  if x.suppressed then .ok ()
  else match as.filter fun a => (List.range 4).any fun n => x.watches n sp ld st a with
    | [] => .ok ()
    | a :: t => signal .watchpoint (.ofNat 64 (t.foldl min a))

/-! ## Translation -/

/-- The translation of a virtual address in a micro-TLB. -/
def Plot.lookup (x : Plot) (va : Nat) : Option Tlb := x.utlb.find? fun e => decide (e.va ≤ va) && decide (va < e.va + e.bytes)

/-- R111: a hit makes a translation the most recently used. -/
def Plot.touch (x : Plot) (e : Tlb) : Plot := { x with utlb := e :: x.utlb.filter (· != e) }

/-- R110, R111: the translation of an access of the current context: a miss blocks it and is asked for; a failed walk, a
load without RD or a store without WR raises the fault. -/
def State.translate (s : State) (va : Word) (load store : Bool) (f : Cause) (v : Word) : Try Tlb :=
  match s.me.xfault with
  | some pg => if pg = va.toNat / 2 ^ 16 then signal f v else next
  | none => next
where next : Try Tlb :=
  match s.myPlot.lookup va.toNat with
  | none => block (.translation (va.toNat / 2 ^ 16))
  | some e => if (load && !e.rd) || (store && !e.wr) then signal f v else .ok e

/-- The target address of a virtual address under a translation. -/
def Tlb.target_ (e : Tlb) (va : Nat) : Nat := e.target + (va - e.va)

/-- The virtual pages (64 KiB) that a range of bytes touches. -/
def pagesOf (va n : Nat) : List Nat := if n = 0 then [] else span (va / 2 ^ 16) ((va + n - 1) / 2 ^ 16 - va / 2 ^ 16 + 1)

/-- R246: the context's table holds the record of a region as exclusive. -/
def Ctx.holdsExcl (x : Ctx) (rec_ : Nat) : Bool := x.gates.any fun g => g.names rec_ && g.excl

/-- R246: the check of a store to a bound region. -/
def State.capStore (s : State) (e : Tlb) (v : Word) : Try Unit :=
  match e.region with
  | some r => need (s.me.holdsExcl r) (.trap .capability v)
  | none => .ok ()

/-- R247: the check of a load of a bound region under DETCTL.STRICT. -/
def State.capLoad (s : State) (e : Tlb) (v : Word) : Try Unit :=
  match e.region with
  | some r => need (!(bitw s.myPlot.csr.detctl 1) || s.me.gates.any fun g => g.names r) (.trap .capability v)
  | none => .ok ()

/-! ## BADDRs (R7) -/

/-- R7: the fields of a BADDR. -/
def bPlot (x : Word) : Nat := fldw x 26 36
/-- R7 -/
def bBuf (x : Word) : Nat := fldw x 24 2
/-- R7 -/
def bOff (x : Word) : Nat := fldw x 0 16
/-- A word is a BADDR (R103). -/
def isBaddr (x : Word) : Bool := fldw x 62 2 == 3

/-- R107: the checks of a BADDR for an access of `n` bytes aligned to `al`. -/
def State.baddrOk (s : State) (x : Word) (n al : Nat) (store : Bool) : Bool :=
  isBaddr x && fldw x 16 8 == 0 && bBuf x != 3 && bPlot x / 2 ^ 20 == s.pkg && plotOk (bPlot x) &&
    decide (bOff x + n ≤ Config.bufSize (bBuf x)) && bOff x % al == 0 && !(store && bBuf x == 2)

/-! ## Sending an access -/

/-- The answer address of the current task. -/
def State.who (s : State) (id : Nat) : Who := ⟨s.plotId s.cur.1, s.me.csr.taskid, id⟩

/-- R59: the destinations of a response are marked empty. -/
def Ctx.pendAll (x : Ctx) (ds : List Nat) : Ctx := ds.foldl Ctx.pend x

/-- Notes an outstanding access of the current context and marks its destinations empty. -/
def State.await_ (s : State) (o : Outst) : State :=
  s.modMe fun x => { x.pendAll o.act.marks with outst := x.outst ++ [o] }

/-- R106, R189: holds the current context until an answer arrives. -/
def State.holdFor (s : State) (k : HoldKind) (id : Nat) (dsts : List Nat) (v : Word) (n : Nat) : State :=
  (s.issuedNow s.cur.1 s.cur.2).modMe fun x => { x with
    quantum := none
    hold := some { kind := k, id := id, since := s.now, dsts := dsts.map fun d => (d, x.regs.isEmpty d), tval := v, left := n, popped := [] }
    block := none }

/-- Sends a packet of the current plot. -/
def State.sendMine (s : State) (cls : Cls) (dst : Endpoint) (m : Msg) : State :=
  s.push ⟨cls, .plot (s.plotId s.cur.1), dst, s.myPlot.tenant, m⟩

/-- R104: where an access of a translated address is served, and its memory type. -/
def Tlb.place (e : Tlb) (t : Nat) : Endpoint × Space × Nat :=
  match e.ty with
  | 0 => (.base (stackOf t), .hbm, 3)
  | 1 => (.peer e.pkg, .peer, 5)
  | _ => (.head 0, .host, 4)

/-- Sends an access and notes it; where the far end can reject it, the context is held (R106), and otherwise the
instruction retires. `fault` is what a rejection raises. -/
def State.issueAccess (s : State) (dst : Endpoint) (sp : Space) (buf addr : Nat) (store : Bool) (op : MemOp) (act : RspAct)
    (va : Word) (hold : Bool) (fault : Cause) : State :=
  let (id, s) := s.fresh
  let ds := act.dests
  let s := if hold then s.holdFor (.access fault) id ds va 0 else s
  let s := s.await_ ⟨id, sp, store, act, va⟩
  let s := s.sendMine .req dst (.acc ⟨s.who id, buf, addr, op⟩)
  if hold then s else s.retire

/-- A SCRATCH access (R106, R107): the context is held. -/
def State.issueScratch (s : State) (x : Word) (store : Bool) (op : MemOp) (act : RspAct) (fault : Cause) : State :=
  let sp := if bPlot x = s.plotId s.cur.1 then .scratchOwn else .scratch
  s.issueAccess (.plot (bPlot x)) sp (bBuf x) (bOff x) store op act x true fault

/-- A translated access: PEER holds the context (R106). `force` holds it in any case (R250). -/
def State.issueTlb (s : State) (e : Tlb) (va : Word) (store : Bool) (op : MemOp) (act : RspAct) (force : Bool)
    (fault : Cause) : State :=
  let t := e.target_ va.toNat
  let (dst, sp, buf) := e.place t
  let s := s.modPlot s.cur.1 (·.touch e)
  s.issueAccess dst sp buf t store op act va (force || e.ty == 1) fault

/-! ## Fences (R248) -/

/-- R248: the wait of a fence. -/
def State.fenceTry (s : State) (scope : Nat) : Try Unit :=
  if s.me.outst.any (fenceWaits scope) then block (.fence scope) else .ok ()

end Sys2Proof.Machine
end

