-- ==== Sys2Proof/Machine/Memory.lean ====
section
/-!
DEFINITION. Loads, stores and synchronising accesses (05, R100 to R107).
-/

namespace Sys2Proof.Machine

open Sys2Proof

/-- R94, R100: the check of an access to an own buffer. -/
def inBuf (buf : Nat) (o : Word) (w : Nat) : Try Unit :=
  need (decide (o.toNat < Config.bufSize buf) && o.toNat % w == 0) (.trap .bufferBounds o)

/-- R100, ldl. -/
def execLdl (d b : BitVec 6) (t : Bool) (x : BitVec 2) (w : BitVec 3) (o : BitVec 8) (s : State) : Res :=
  s.finish (do
    checkRegs s [⟨regG b, t⟩] [regG d]
    let (base, s) := s.takeG (regG b)
    let n := wsBytes w.toNat
    let a := base + .ofNat 64 (o.toNat * n)
    inBuf x.toNat a n
    s.watch x.toNat true false (span a.toNat n)
    let (bs, s) ← s.readOwn x.toNat (span a.toNat n)
    .ok (s.setG (regG d) (extend w.toNat bs)).retire)

/-- R100, stl: the stored register blocks and never traps; no FE bit of the buffer changes. -/
def execStl (r b : BitVec 6) (t : Bool) (x : BitVec 2) (w : BitVec 3) (o : BitVec 8) (s : State) : Res :=
  s.finish (do
    checkRegs s [⟨regG b, t⟩, ⟨regG r, false⟩] []
    let (base, s) := s.takeG (regG b)
    let (v, s) := s.takeG (regG r)
    let n := wsBytes w.toNat
    let a := base + .ofNat 64 (o.toNat * n)
    inBuf x.toNat a n
    s.watch x.toNat false true (span a.toNat n)
    s.ownTry
    .ok (s.modBufs s.cur.1 fun m => m.write x.toNat (placed a.toNat (bytesLE n v.toNat))).retire)

/-- R105: the checks of a global access of `w` bytes, in order: alignment, va[63:56], translation. -/
def State.globalTry (s : State) (va : Word) (w : Nat) (load store : Bool) (f : Cause) : Try Tlb := do
  need (va.toNat % w == 0) (.trap f va)
  need (fldw va 56 8 == 0) (.trap f va)
  s.translate va load store f va

/-- R105, ldg: a long-latency producer. -/
def execLdg (d b : BitVec 6) (t : Bool) (w : BitVec 3) (o : BitVec 8) (s : State) : Res :=
  s.finish (do
    checkRegs s [⟨regG b, t⟩] [regG d]
    let (base, s) := s.takeG (regG b)
    let n := wsBytes w.toNat
    let va := base + .ofNat 64 (o.toNat * n)
    let e ← s.globalTry va n true false .loadFault
    s.capLoad e va
    s.watch 3 true false (span va.toNat n)
    .ok (s.issueTlb e va false (.load n) (.load (regG d) w.toNat) false .loadFault))

/-- R105, stg: posted. -/
def execStg (r b : BitVec 6) (t : Bool) (w : BitVec 3) (o : BitVec 8) (s : State) : Res :=
  s.finish (do
    checkRegs s [⟨regG b, t⟩, ⟨regG r, false⟩] []
    let (base, s) := s.takeG (regG b)
    let (v, s) := s.takeG (regG r)
    let n := wsBytes w.toNat
    let va := base + .ofNat 64 (o.toNat * n)
    let e ← s.globalTry va n false true .storeFault
    s.capStore e va
    s.watch 3 false true (span va.toNat n)
    .ok (s.issueTlb e va true (.store (placed 0 (bytesLE n v.toNat))) .ack false .storeFault))

/-- R107, ldx. -/
def execLdx (d a b : BitVec 6) (t u : Bool) (w : BitVec 3) (s : State) : Res :=
  s.finish (do
    checkRegs s [⟨regG a, t⟩, ⟨regG b, u⟩] [regG d]
    let (y, s) := s.takeG (regG a)
    let (z, s) := s.takeG (regG b)
    let x := y + z
    let n := wsBytes w.toNat
    need (s.baddrOk x n n false) (.trap .loadFault x)
    s.watch 3 true false (span x.toNat n)
    .ok (s.issueScratch x false (.load n) (.load (regG d) w.toNat) .loadFault))

/-- R107, stx: G[d] is read after b. -/
def execStx (r a b : BitVec 6) (t u : Bool) (w : BitVec 2) (s : State) : Res :=
  s.finish (do
    checkRegs s [⟨regG a, t⟩, ⟨regG b, u⟩, ⟨regG r, false⟩] []
    let (y, s) := s.takeG (regG a)
    let (z, s) := s.takeG (regG b)
    let (v, s) := s.takeG (regG r)
    let x := y + z
    let n := wsBytes w.toNat
    need (s.baddrOk x n n true) (.trap .storeFault x)
    s.watch 3 false true (span x.toNat n)
    .ok (s.issueScratch x true (.store (placed 0 (bytesLE n v.toNat))) .ack .storeFault))

/-- R102: the address of a synchronising access. -/
def syncAddr (base : Word) (o : BitVec 8) : Word := base + .ofNat 64 (8 * o.toNat)

/-- R103: the global form of a synchronising access: operation `op` (0 ldsync, 1 ldfe, 2 stfull, 3 clrfe) with a
store's word. -/
def State.syncGlobal (s : State) (a : Word) (op : Nat) (w : Word) (act : RspAct) : Try State := do
  let store := decide (2 ≤ op)
  let f := if store then Cause.storeFault else .loadFault
  need (a.toNat % 8 == 0) (.trap f a)
  if isBaddr a then
    need (s.baddrOk a 8 8 store) (.trap f a)
    s.watch 3 (!store) store (span a.toNat 8)
    .ok (s.issueScratch a store (.sync op w) act f)
  else
    let e ← s.globalTry a 8 (!store) store f
    need (e.ty != 2) (.trap f a)
    if store then s.capStore e a else s.capLoad e a
    s.watch 3 (!store) store (span a.toNat 8)
    .ok (s.issueTlb e a store (.sync op w) act false f)

/-- R102: ldsync and ldfe of a word of an own buffer, or globally. -/
def syncLoad (d b : BitVec 6) (t : Bool) (x : BitVec 2) (o : BitVec 8) (fe : Bool) (s : State) : Res :=
  s.finish (do
    checkRegs s [⟨regG b, t⟩] [regG d]
    let (base, s) := s.takeG (regG b)
    let a := syncAddr base o
    if x = 3 then s.syncGlobal a (bit fe) 0 (.words [regG d])
    else
      inBuf x.toNat a 8
      s.watch x.toNat true false (span a.toNat 8)
      need (!s.myPlot.bufs.wordEmpty x.toNat (a.toNat / 8)) (.block (.word x.toNat (a.toNat / 8)))
      let (bs, s) ← s.readOwn x.toNat (span a.toNat 8)
      let s := s.setG (regG d) (.ofNat 64 (numLE bs))
      let s := if fe then s.modBufs s.cur.1 fun m => m.setEmpty x.toNat (a.toNat / 8) true else s
      .ok s.retire)

/-- R102, ldsync. -/
def execLdsync (d b : BitVec 6) (t : Bool) (x : BitVec 2) (o : BitVec 8) (s : State) : Res := syncLoad d b t x o false s
/-- R102, ldfe. -/
def execLdfe (d b : BitVec 6) (t : Bool) (x : BitVec 2) (o : BitVec 8) (s : State) : Res := syncLoad d b t x o true s

/-- R102, stfull. -/
def execStfull (r b : BitVec 6) (t : Bool) (x : BitVec 2) (o : BitVec 8) (s : State) : Res :=
  s.finish (do
    checkRegs s [⟨regG b, t⟩, ⟨regG r, false⟩] []
    let (base, s) := s.takeG (regG b)
    let (v, s) := s.takeG (regG r)
    let a := syncAddr base o
    if x = 3 then s.syncGlobal a 2 v .ack
    else
      inBuf x.toNat a 8
      s.watch x.toNat false true (span a.toNat 8)
      s.ownTry
      .ok (s.modBufs s.cur.1 fun m =>
        (m.write x.toNat (placed a.toNat (bytesLE 8 v.toNat))).setEmpty x.toNat (a.toNat / 8) false).retire)

/-- R102, clrfe: the word becomes empty, its contents are kept. -/
def execClrfe (b : BitVec 6) (t : Bool) (x : BitVec 2) (o : BitVec 8) (s : State) : Res :=
  s.finish (do
    checkRegs s [⟨regG b, t⟩] []
    let (base, s) := s.takeG (regG b)
    let a := syncAddr base o
    if x = 3 then s.syncGlobal a 3 0 .ack
    else
      inBuf x.toNat a 8
      s.watch x.toNat false true (span a.toNat 8)
      s.ownTry
      .ok (s.modBufs s.cur.1 fun m => m.setEmpty x.toNat (a.toNat / 8) true).retire)

end Sys2Proof.Machine
end

