-- ==== Sys2Proof/Machine/Amo.lean ====
section
/-!
DEFINITION. Atomic operations at their instructions (11, R249 to R251). What an AMO does at the place that serves it is
in Sys2Proof/Machine/Serve.lean.
-/

namespace Sys2Proof.Machine

open Sys2Proof

/-- R249: the width of an operation. -/
def amoWidth (op : Nat) : Nat := if op = 10 then 4 else if op = 12 then 16 else 8

/-- R251: the fence scope of .rel for a memory type: plot, field and pkg for SCRATCH by distance, pkg for HBM, sys for PEER
and HOST. -/
def relScope (sp : Space) (sameField : Bool) : Nat :=
  match sp with
  | .scratchOwn => 1
  | .scratch => if sameField then 2 else 3
  | .hbm => 3
  | _ => 4

/-- R249 to R251: an AMO of operation `op` with its ordering `o`; `ga` are the registers of the operand pair beyond b (a pair
blocks and never traps), and `ds` the destinations. -/
def amoOp (a b : BitVec 6) (t u : Bool) (o : BitVec 2) (op : Nat) (ga ds : List Nat) (s : State) : Res :=
  s.finish (do
    checkRegs s ([⟨regG a, t⟩, ⟨regG b, u && ga.isEmpty⟩] ++ ga.map fun r => ⟨r, false⟩) ds
    let (x, s) := s.takeG (regG a)
    let (v, s) := s.takeG (regG b)
    let v2 := match ga with
      | r :: _ => s.g r
      | [] => 0
    let n := amoWidth op
    if isBaddr x then
      need (s.baddrOk x n n true) (.trap .storeFault x)
      s.watch 3 true true (span x.toNat n)
      let sp := if bPlot x = s.plotId s.cur.1 then Space.scratchOwn else .scratch
      if o.toNat / 2 = 1 then s.fenceTry (relScope sp (fieldOf (bPlot x) == fieldOf s.cur.1))
      .ok (s.issueScratch x true (.amo op v v2) (.words ds) .storeFault)
    else
      let e ← s.globalTry x n true true .storeFault
      s.capStore e x
      s.watch 3 true true (span x.toNat n)
      if o.toNat / 2 = 1 then s.fenceTry (relScope (e.place 0).2.1 false)
      .ok (s.issueTlb e x true (.amo op v v2) (.words ds) true .storeFault))

/-- R249, amo.add: old + b. -/
def execAmoAdd (d a b : BitVec 6) (t u : Bool) (o : BitVec 2) (s : State) : Res := amoOp a b t u o 0 [] [regG d] s

/-- R249, amo.swap: b. -/
def execAmoSwap (d a b : BitVec 6) (t u : Bool) (o : BitVec 2) (s : State) : Res := amoOp a b t u o 1 [] [regG d] s

/-- R249, amo.min as i64. -/
def execAmoMin (d a b : BitVec 6) (t u : Bool) (o : BitVec 2) (s : State) : Res := amoOp a b t u o 3 [] [regG d] s

/-- R249, amo.max as i64. -/
def execAmoMax (d a b : BitVec 6) (t u : Bool) (o : BitVec 2) (s : State) : Res := amoOp a b t u o 4 [] [regG d] s

/-- R249, amo.minn as n64. -/
def execAmoMinn (d a b : BitVec 6) (t u : Bool) (o : BitVec 2) (s : State) : Res := amoOp a b t u o 5 [] [regG d] s

/-- R249, amo.maxn as n64. -/
def execAmoMaxn (d a b : BitVec 6) (t u : Bool) (o : BitVec 2) (s : State) : Res := amoOp a b t u o 6 [] [regG d] s

/-- R249, amo.and. -/
def execAmoAnd (d a b : BitVec 6) (t u : Bool) (o : BitVec 2) (s : State) : Res := amoOp a b t u o 7 [] [regG d] s

/-- R249, amo.or. -/
def execAmoOr (d a b : BitVec 6) (t u : Bool) (o : BitVec 2) (s : State) : Res := amoOp a b t u o 8 [] [regG d] s

/-- R249, amo.xor. -/
def execAmoXor (d a b : BitVec 6) (t u : Bool) (o : BitVec 2) (s : State) : Res := amoOp a b t u o 9 [] [regG d] s

/-- R249, amo.fadd.f: Round(f, old + b, RNE). -/
def execAmoFaddF (d a b : BitVec 6) (t u : Bool) (o : BitVec 2) (s : State) : Res := amoOp a b t u o 10 [] [regG d] s

/-- R249, amo.fadd.d: Round(d, old + b, RNE). -/
def execAmoFaddD (d a b : BitVec 6) (t u : Bool) (o : BitVec 2) (s : State) : Res := amoOp a b t u o 11 [] [regG d] s

/-- R249, amo.cas: G[b + 1] if old = G[b]. -/
def execAmoCas (d a b : BitVec 6) (t u : Bool) (o : BitVec 2) (s : State) : Res := amoOp a b t u o 2 [regG b + 1] [regG d] s

/-- R249, amo.amerge: Merge(old, (G[b], G[b + 1])); the old record goes to d and d + 1. -/
def execAmoAmerge (d a b : BitVec 6) (t u : Bool) (o : BitVec 2) (s : State) : Res :=
  amoOp a b t u o 12 [regG b + 1] [regG d, regG d + 1] s

end Sys2Proof.Machine
end

