-- ==== Sys2Proof/Machine/Flow.lean ====
section
/-!
DEFINITION. Branches, calls and returns (04, R86, R87), and the task control instructions (09, R190 to R200).
-/

namespace Sys2Proof.Machine

open Sys2Proof

/-- R86: a conditional branch: the sources are read (and ports popped) whatever the outcome. -/
def branchOp (a b : BitVec 6) (t u : Bool) (i : BitVec 12) (cond : Word → Word → Bool) (s : State) : Res :=
  s.finish (do
    checkRegs s [⟨regG a, t⟩, ⟨regG b, u⟩] []
    let (x, s) := s.takeG (regG a)
    let (y, s) := s.takeG (regG b)
    .ok (if cond x y then s.retireTo (s.ipc + 4 * sext 12 i.toNat) s.ipc else s.retire))

/-- R86, beq. -/
def execBeq (a b : BitVec 6) (t u : Bool) (i : BitVec 12) (s : State) : Res := branchOp a b t u i (· == ·) s
/-- R86, bne. -/
def execBne (a b : BitVec 6) (t u : Bool) (i : BitVec 12) (s : State) : Res := branchOp a b t u i (· != ·) s
/-- R86, blt: a < b as i64. -/
def execBlt (a b : BitVec 6) (t u : Bool) (i : BitVec 12) (s : State) : Res := branchOp a b t u i BitVec.slt s
/-- R86, bge: a ≥ b as i64. -/
def execBge (a b : BitVec 6) (t u : Bool) (i : BitVec 12) (s : State) : Res := branchOp a b t u i (fun x y => !x.slt y) s
/-- R86, bltn: a < b as n64. -/
def execBltn (a b : BitVec 6) (t u : Bool) (i : BitVec 12) (s : State) : Res := branchOp a b t u i BitVec.ult s
/-- R86, bgen: a ≥ b as n64. -/
def execBgen (a b : BitVec 6) (t u : Bool) (i : BitVec 12) (s : State) : Res := branchOp a b t u i (fun x y => !x.ult y) s

/-- R87, jal. -/
def execJal (l : BitVec 6) (i : BitVec 20) (s : State) : Res :=
  s.finish (do
    checkRegs s [] [regG l]
    let pc := s.ipc
    let s := s.setG (regG l) (pc + 4)
    .ok (s.retireTo (pc + 4 * sext 20 i.toNat) pc))

/-- R87, jalr: a is read before the link is written. -/
def execJalr (d a : BitVec 6) (t : Bool) (i : BitVec 13) (s : State) : Res :=
  s.finish (do
    checkRegs s [⟨regG a, t⟩] [regG d]
    let (x, s) := s.takeG (regG a)
    let pc := s.ipc
    let s := s.setG (regG d) (pc + 4)
    .ok (s.retireTo (x + sext 13 i.toNat) pc))

/-- R197: the plot in the same row at a column offset, if the word names one. -/
def followTarget (p : Nat) (w : Word) : Option Nat :=
  let o := toInt 5 true (fldw w 0 5)
  let c := (colOf p : Int) + o
  if w ≠ sext 5 (fldw w 0 5) || o = 0 || c < 0 || 215 < c then none else some (p / 256 * 256 + c.toNat)

/-- R197, follow: the join request leaves for the leader's plot, and the context is in follow wait. -/
def execFollow (a : BitVec 6) (t : Bool) (s : State) : Res :=
  s.finish (do
    checkRegs s [⟨regG a, t⟩] []
    let (w, s) := s.takeG (regG a)
    need (!s.me.furrow.lead) (.trap .followInvalid w)
    match followTarget s.cur.1 w with
    | none => signal .followInvalid w
    | some q =>
      let (id, s) := s.fresh
      let s := s.holdFor .follow id [] w 0
      .ok (s.sendMine .sys (.plot (s.plotId q)) (.join (s.who id) s.cur.2 (s.plotId q) w)))

/-- R196, lead: at most one context of a plot leads; a task that has ended leads no longer (R191). Where the task that leads is spilled it has no CTXID, and TVAL is a free value (log
entry 75). -/
def execLead (s : State) : Res :=
  s.finish (do
    checkRegs s [] []
    match (List.range 4).find? fun c => c != s.cur.2 && (s.ctx s.cur.1 c).furrow.lead && !(s.ctx s.cur.1 c).ended,
      s.myPlot.sched.images.find? fun i => i.1.furrow.lead with
    | some c, _ => signal .followInvalid (.ofNat 64 c)
    | none, some i => signal .followInvalid (Config.spilledLeader s.cur.1 i.1.csr.taskid)
    | none, none => .ok (s.modMe fun x => { x with furrow := { x.furrow with lead := true } }).retire)

/-- R199: a follower whose leader has split goes on at an address: at once, or after the instruction that is under way, which holds its
context, owes the second word of its pair or is a multiply that has issued (DEDUCED, log entry 83). -/
def State.splitTo (s : State) (f : Nat × Nat) (queue : List FurrowEntry) (next : Word) : State :=
  let y := s.ctx f.1 f.2
  if y.hold.isSome || y.pair.isSome || y.mul.point.isSome || (s.plot f.1).hasYielded y then
    let ws := match queue with
      | e :: _ => e.words
      | [] => []
    s.modCtx f.1 f.2 fun x => { x with furrow := { x.furrow with resume := some ⟨x.pc, ws, next⟩ } }
  else s.modCtx f.1 f.2 fun x => { x with pc := next, block := none, readySince := s.now, issued := false }

/-- R199, split: the furrow dissolves; each follower goes on after the split. A split by a context that does not lead only retires (DESIGN
CHOICE, log entry 84). -/
def execSplit (s : State) : Res :=
  s.finish (do
    checkRegs s [] []
    let next := s.ipc + 4
    let fs := s.me.furrow.followers.map fun f => (f, (s.ctx f.1 f.2).furrow.queue)
    let s := s.dissolve s.cur.1 s.cur.2 2
    let s := fs.foldl (fun s f => s.splitTo f.1 f.2 next) s
    .ok (s.modMe fun x => { x with furrow := { x.furrow with lead := false, followers := [] } }).retire)

/-- R191: the current task ends, its promise settled as given. -/
def State.finishTask (s : State) (st : PState) : State :=
  let (p, c) := s.cur
  let s := s.settle p c s.me.task.promise st true
  (s.retireBase p c).endTask p c

/-- R191, tend: an unsettled promise resolves with the value 0 (a settled one is not changed by it, R205). -/
def execTend (s : State) : Res :=
  s.finish (do
    checkRegs s [] []
    .ok (s.finishTask (.value 0)))

/-- R192, yield: ends a floor-tick quantum; having issued last, the context is last in its cyclic order. -/
def execYield (s : State) : Res :=
  s.finish (do
    checkRegs s [] []
    .ok (s.retire.modMe fun x => { x with quantum := none }))

/-- R193: sleeps until a cycle; a cycle already reached is a no-op. -/
def sleepTo (wake : Nat) (s : State) : State :=
  if wake ≤ s.now then s.retire else s.holdFor (.sleep wake) 0 [] (.ofNat 64 wake) 0

/-- R193, sleep. -/
def execSleep (a : BitVec 6) (t : Bool) (s : State) : Res :=
  s.finish (do
    checkRegs s [⟨regG a, t⟩] []
    let (x, s) := s.takeG (regG a)
    .ok (sleepTo (s.now + x.toNat) s))

/-- R193, sleepuntil. -/
def execSleepuntil (a : BitVec 6) (t : Bool) (s : State) : Res :=
  s.finish (do
    checkRegs s [⟨regG a, t⟩] []
    let (x, s) := s.takeG (regG a)
    .ok (sleepTo x.toNat s))

/-- R194, tself: the handle of the task's own promise, 0 without one. -/
def execTself (d : BitVec 6) (s : State) : Res :=
  s.finish (do
    checkRegs s [] [regG d]
    .ok (s.setG (regG d) s.me.task.promise).retire)

/-- R200: the furrow state word. For more followers than NFOL can count it is a free value (DESIGN CHOICE, log entry 106). -/
def Furrow.word (f : Furrow) : Word :=
  .ofNat 64 (f.lcause % 8 * 2 ^ 13 + (if f.leader.isSome then (f.ofs % 32).toNat * 2 ^ 8 else 0) +
    (if f.lead then (if f.followers.length < 64 then f.followers.length else (Config.manyFollowers f.followers.length).toNat) * 4 else 0) + bit f.leader.isSome * 2 + bit f.lead)

/-- R194, R200, tself.f. -/
def execTselfF (d : BitVec 6) (s : State) : Res :=
  s.finish (do
    checkRegs s [] [regG d]
    .ok (s.setG (regG d) s.me.furrow.word).retire)

/-- R178, R187: sets or clears BLK of a channel. -/
def State.setBlk (s : State) (p k : Nat) (b : Bool) : State :=
  s.modPlot p fun x => x.modChan k fun ch => { ch with blk := b, unblocked := if ch.blk && !b then s.now else ch.unblocked }

/-- R195: chblk and chunb. -/
def chanOp (a b : BitVec 6) (t u : Bool) (blk : Bool) (s : State) : Res :=
  s.finish (do
    checkRegs s [⟨regG a, t⟩, ⟨regG b, u⟩] []
    let (x, s) := s.takeG (regG a)
    let (y, s) := s.takeG (regG b)
    let q := fldw x 0 36
    need (fldw x 36 28 == 0 && plotOk q && q / 2 ^ 20 == s.pkg) (.trap .storeFault x)
    need (fldw y 6 58 == 0) (.trap .storeFault y)
    let k := fldw y 0 6
    let s := if q % 2 ^ 20 = s.cur.1 then s.setBlk s.cur.1 k blk else s.sendMine .sys (.plot q) (.chanBlock q k blk)
    .ok s.retire)

/-- R195, chblk. -/
def execChblk (a b : BitVec 6) (t u : Bool) (s : State) : Res := chanOp a b t u true s
/-- R195, chunb. -/
def execChunb (a b : BitVec 6) (t u : Bool) (s : State) : Res := chanOp a b t u false s

end Sys2Proof.Machine
end

