-- ==== Sys2Proof/Machine/Gate.lean ====
section
/-!
DEFINITION. The GATE instructions: acquire, release, handover, binding, fences and barriers (11, R237 to R253).
-/

namespace Sys2Proof.Machine

open Sys2Proof

/-- R238: the checks of a record address; the answer is its HBM target. -/
def State.recordTry (s : State) (x : Word) : Try (Nat × Tlb) := do
  let e ← s.globalTry x 64 false true .storeFault
  need (e.ty == 0) (.trap .storeFault x)
  .ok (e.target_ x.toNat, e)

/-- R240: the entry of a record in the context's held-gate table. -/
def Ctx.gate (x : Ctx) (target : Nat) : Option Gate := x.gates.find? fun g => g.names target

/-- Sends a request to the headgate unit of a record and holds the context until its answer. -/
def State.gateSend (s : State) (x : Word) (target : Nat) (op : GateOp) (k : HoldKind) (n : Nat) : State :=
  let (id, s) := s.fresh
  let s := s.holdFor k id [] x n
  s.sendMine .req (.base (stackOf target)) (.gate ⟨s.who id, s.cur.2, x, target, op, s.myPlot.tenant⟩)

/-- R240: acq.s and acq.x. -/
def acqOp (a : BitVec 6) (t excl : Bool) (s : State) : Res :=
  s.finish (do
    checkRegs s [⟨regG a, t⟩] []
    let (x, s) := s.takeG (regG a)
    let (tg, _) ← s.recordTry x
    match s.me.gate tg with
    | some g =>
      if !excl || g.excl then .ok s.retire
      else signal .capability x
    | none =>
      need (decide (s.me.gates.length < 4)) (.trap .capability x)
      .ok (s.gateSend x tg (.acq excl) (.acquire x tg excl) 0))

/-- R240, acq.s. -/
def execAcqS (a : BitVec 6) (t : Bool) (s : State) : Res := acqOp a t false s
/-- R240, acq.x. -/
def execAcqX (a : BitVec 6) (t : Bool) (s : State) : Res := acqOp a t true s

/-- R241: the waits of a release of a record: earlier stores and AMOs, and copies, by number: those whose destination meets the bound
region, or all when the record is unbound. -/
def State.relWait (s : State) (ids : List Nat) : Try Unit :=
  need (!(s.me.outst.any (fenceWaits 3)) && ids.isEmpty) (.block (.release ids))

/-- Removes a record from the context's held-gate table. -/
def Ctx.dropGate (x : Ctx) (target : Nat) : Ctx := { x with gates := x.gates.filter fun g => !g.names target }

/-- R241, rel. -/
def execRel (a : BitVec 6) (t : Bool) (s : State) : Res :=
  s.finish (do
    checkRegs s [⟨regG a, t⟩] []
    let (x, s) := s.takeG (regG a)
    let (tg, _) ← s.recordTry x
    need (s.me.gate tg).isSome (.trap .capability x)
    s.relWait (s.copiesBefore s.cur.1 s.me tg)
    .ok ((s.modMe (·.dropGate tg)).gateSend x tg .rel (.gate x) 0))

/-- R242, handover. -/
def execHandover (a b : BitVec 6) (t u : Bool) (s : State) : Res :=
  s.finish (do
    checkRegs s [⟨regG a, t⟩, ⟨regG b, u⟩] []
    let (x, s) := s.takeG (regG a)
    let (w, s) := s.takeG (regG b)
    let (tg, _) ← s.recordTry x
    need (s.me.holdsExcl tg) (.trap .capability x)
    s.relWait (s.copiesBefore s.cur.1 s.me tg)
    .ok ((s.modMe (·.dropGate tg)).gateSend x tg (.handover w) .handover 0))

/-- R245, hgbind: the checks of the plot; the unit makes the others. It retires when all 16 service blocks have
acknowledged. -/
def execHgbind (a b : BitVec 6) (t u : Bool) (s : State) : Res :=
  s.finish (do
    checkRegs s [⟨regG a, t⟩, ⟨regG b, u⟩] []
    let (x, s) := s.takeG (regG a)
    let (w, s) := s.takeG (regG b)
    let (tg, _) ← s.recordTry x
    need (s.me.holdsExcl tg) (.trap .capability x)
    need (fldw w 56 8 == 0) (.trap .capability w)
    .ok (s.gateSend x tg (.bind w) .bind 16))

/-- R248: a fence of a scope. -/
def fenceOp (scope : Nat) (s : State) : Res :=
  s.finish (do
    checkRegs s [] []
    s.fenceTry scope
    .ok s.retire)

/-- R248, fence.ctx. -/
def execFenceCtx (s : State) : Res := fenceOp 0 s
/-- R248, fence.plot. -/
def execFencePlot (s : State) : Res := fenceOp 1 s
/-- R248, fence.field. -/
def execFenceField (s : State) : Res := fenceOp 2 s
/-- R248, fence.pkg. -/
def execFencePkg (s : State) : Res := fenceOp 3 s
/-- R248, fence.sys. -/
def execFenceSys (s : State) : Res := fenceOp 4 s

/-- R211: a rectangle word is well formed: bits [11:0] zero, every member in the corner's field. -/
def rectOk (w : Word) : Bool :=
  let (p, h, n) := rectOf w
  fldw w 0 12 == 0 && plotOk p && decide (rowOf p + h ≤ 192) && decide (colOf p + n ≤ 216)

/-- R253: a task of the plot, in a context or spilled, waits at a barrier. -/
def Plot.atBarrier (x : Plot) : Bool := ((List.range 4).map x.ctx ++ x.sched.images.map (·.1)).any fun y => match y.hold with
  | some h => h.kind == .barrier
  | none => false

/-- R252, bar: it waits as fence.pkg does, arrives, and blocks until every member has arrived. -/
def execBar (d a : BitVec 6) (t : Bool) (s : State) : Res :=
  s.finish (do
    checkRegs s [⟨regG a, t⟩] [regG d]
    let (w, s) := s.takeG (regG a)
    let (p, h, n) := rectOf w
    let q := s.plotId s.cur.1
    need (rectOk w && p / 2 ^ 16 == q / 2 ^ 16 && decide (rowOf p ≤ rowOf q) && decide (rowOf q < rowOf p + h) &&
      decide (colOf p ≤ colOf q) && decide (colOf q < colOf p + n)) (.trap .storeFault w)
    s.fenceTry 3
    need (!s.myPlot.atBarrier) (.block .barrier)
    let (id, s) := s.fresh
    let s := s.holdFor .barrier id [regG d] w 0
    let s := s.await_ ⟨id, .other, false, .words [regG d], w⟩
    .ok (s.sendMine .req (.service (fieldOf s.cur.1)) (.barArrive (s.who id) w)))

end Sys2Proof.Machine
end

