-- ==== Sys2Proof/Machine/Tasks.lean ====
section
/-!
DEFINITION. Answers that reach a task, in a context or in its cistern image (03, R59, R63; 05, R106; 09, R186).
-/

namespace Sys2Proof.Machine

open Sys2Proof

/-- A task of a plot has not ended (R206). -/
def Plot.alive (x : Plot) (task : Nat) : Bool :=
  match x.find task with
  | some pl => !(x.at_ pl).ended
  | none => false

/-- The words of an answer: the bytes by eights. -/
def Rsp.words_ : Rsp → List Word
  | .data bs _ _ => (List.range (max 1 (bs.length / 8))).map fun k => .ofNat 64 (numLE ((bs.drop (8 * k)).take 8))
  | .words ws _ => ws
  | _ => []

/-- Writes words to g registers in turn. -/
def Regs.setWords (x : Regs) : List Nat → List Word → Regs
  | d :: ds, w :: ws => (x.setGv d w).setWords ds ws
  | _, _ => x

/-- A v register from bytes (R116): an inactive byte is zero or keeps its old value. -/
def mergeBytes (old : V256) (act : List Bool) (zm : Bool) (bs : List Byte) : V256 :=
  .ofNat 256 (numLE ((act.zip bs).zipIdx.map fun x =>
    if x.1.1 then x.1.2 else if zm then 0 else old.extractLsb' (8 * x.2) 8))

/-- R59, R338: what an answer writes. A load of an uncorrectable word fills its destination and poisons it. -/
def Ctx.apply (x : Ctx) (o : Outst) (r : Rsp) : Ctx :=
  let regs := x.regs
  let regs := match o.act with
    | .ack => regs
    | .load d ws => match r with
      | .data bs _ _ => regs.setGv d (extend ws bs)
      | _ => regs.setWords [d] r.words_
    | .words ds => regs.setWords ds r.words_
    | .vec d act zm => match r with
      | .data bs _ _ => regs.setVv d (mergeBytes (regs.vv d) act zm bs)
      | _ => regs
    | .awaitb d b => regs.setWords [d, b] r.words_
    | .take d => if isPort d then regs else regs.setWords [d] r.words_
    | .stream _ => regs
  let poisoned := match r with
    | .data _ _ true => o.act.dests.filter (· != 0)
    | _ => []
  let regs := { regs with poison := poisoned.foldl (fun m d => Sparse.set none m d (some o.addr)) regs.poison }
  -- R147: the bytes of a streamed operand; a line whose read could not be corrected fails (log entry 12)
  let mul := match o.act with
    | .stream va => match r with
      | .data bs _ bad =>
        if bad then { x.mul with failed := x.mul.failed ++ [(va, .eccUncorrected)] }
        else { x.mul with bytes := x.mul.bytes ++ bs.zipIdx.map fun b => (va + b.2, b.1) }
      | _ => { x.mul with failed := x.mul.failed ++ [(va, .loadFault)] }
    | _ => x.mul
  { x with regs := regs, mul := mul, outst := x.outst.filter (·.id != o.id) }

/-- R147: the answer, rejections included, goes to a streamed operand. -/
def Ctx.streams (x : Ctx) (id : Nat) : Option Outst := x.outst.find? fun o => o.id == id && match o.act with
  | .stream _ => true
  | _ => false

/-- The flags of an answer (R249). -/
def Rsp.flags : Rsp → Nat
  | .data _ f _ => f
  | .words _ f => f
  | _ => 0

/-- Raises flags in a task, wherever it is (R51). -/
def State.raiseTask (s : State) (p : Nat) (pl : Place) (fl : Nat) : State :=
  match pl with
  | .ctx c => s.raise p c fl
  | .image _ =>
    let (s, due) := (flagKinds fl).foldl (fun (a : State × List Word) k =>
      let (num, s) := a.1.count p k
      (s, if num then a.2 ++ [.ofNat 64 k] else a.2)) (s, [])
    s.modPlot p fun x => let y := x.at_ pl; x.put pl { y with
      csr := { y.csr with fpcsr := y.csr.fpcsr ||| .ofNat 64 (fl % 64) }, due := { y.due with numeric := y.due.numeric ++ due } } none

/-- R199: a context goes on at an address; after an instruction that was under way when its leader split, where that split says. -/
def Ctx.goTo (x : Ctx) (a : Word) : Ctx := match x.furrow.resume with
  | some e => { x with pc := e.next, furrow := { x.furrow with resume := none } }
  | none => { x with pc := a }

/-- An instruction held for an answer retires: in a context, or in an image (R186). -/
def State.retireTask (s : State) (p : Nat) (pl : Place) : State :=
  match pl with
  | .ctx c =>
    let n := (s.ctx p c).words
    (s.retireLate p c).modCtx p c fun x => { x.goTo (x.pc + .ofNat 64 (4 * n)) with readySince := s.now, issued := false }
  | .image _ => s.modPlot p fun x =>
      let y := x.at_ pl
      let y' := y.retired
      let x := x.put pl (y'.goTo (y.pc + .ofNat 64 (4 * y.words))) (some s.now)
      { x with sched := { x.sched with retired := x.sched.retired + y.words } }

/-- R59: the FE bits of the destinations as they were before issue. -/
def Ctx.restoreFE (x : Ctx) (ds : List (Nat × Bool)) : Ctx :=
  { x with regs := { x.regs with empt := ds.foldl (fun m d => if d.1 = 0 then m else Sparse.set false m d.1 d.2) x.regs.empt } }

/-- R61: the slot of an outbound queue that an instruction took is filled, or given back. -/
def State.slotWord (s : State) (p id : Nat) (w : Option Word) : State :=
  s.modPlot p fun x => { x with outq := (List.range 4).foldl (fun m d =>
    let q := Sparse.get [] m d
    Sparse.set [] m d (match w with
      | some v => q.map fun e => if e.id = id && e.word.isNone then { e with word := some v } else e
      | none => q.filter fun e => !(e.id == id && e.word.isNone))) x.outq }

/-- R106: the held instruction of a task traps: its destinations are as before issue. A spilled task takes the trap when it
next runs. -/
def State.trapTask (s : State) (p : Nat) (pl : Place) (id : Nat) (c : Cause) (v : Word) : State :=
  let y := (s.plot p).at_ pl
  let ds := match y.hold with
    | some h => h.dsts
    | none => []
  let s := (s.slotWord p id none).modPlot p (·.unpop (match y.hold with
    | some h => h.popped
    | none => []))
  let y := { y.restoreFE ds with hold := none, outst := y.outst.filter (·.id != id), copies := y.copies.filter (·.id != id) }
  match pl with
  | .ctx k => (s.setCtx p k { y with readySince := s.now, issued := false }).trapAt p k c v y.pc false
  | .image _ => s.modPlot p fun x => x.put pl { y with pendTrap := some (c, v), block := none, pair := none } (some s.now)

/-- R21: the fault status of an access that does not hold its task: the task takes the fault before its next instruction (log
entry 74), a spilled one that is held when its hold has ended (R186). -/
def State.lateReject (s : State) (p : Nat) (pl : Place) (y : Ctx) (id : Nat) : State :=
  match y.outst.find? fun o => o.id == id with
  | some o =>
    let f := if o.store then Cause.storeFault else .loadFault
    s.modPlot p fun x => x.put pl { y with outst := y.outst.filter (·.id != id), pendTrap := some (y.pendTrap.getD (f, o.addr)) }
      (if y.hold.isSome then none else some s.now)
  | none => s

/-- R224: a context is held by an await. -/
def Ctx.waitsAnswer (x : Ctx) : Bool := match x.hold with
  | some h => h.kind == .await
  | none => false

/-- An answer reaches a plot: it goes to the waiting access of its task. An answer for a task that is gone is dropped. -/
def State.answer (s : State) (w : Who) (r : Rsp) : State :=
  let p := w.plot % 2 ^ 20
  let s := if r = .accept then s else s.performed p w.id
  match (s.plot p).find w.task with
  | none => s
  | some pl =>
    let y := (s.plot p).at_ pl
    let held := match y.hold with
      | some h => h.id == w.id
      | none => false
    match r with
    | .trap c v => if held then s.trapTask p pl w.id c v else s
    | .accept => if held then (s.modPlot p fun x => x.put pl { y with hold := none } none).retireTask p pl else s
    | .reject =>
      match y.streams w.id with
      | some o => s.modPlot p fun x => x.put pl (y.apply o r) none
      | none =>
      match y.hold with
      | some h =>
        if held then
          let c := match h.kind with
            | .access f => f
            | .follow => .followInvalid
            | _ => .storeFault
          s.trapTask p pl w.id c h.tval
        else s.lateReject p pl y w.id
      | none => s.lateReject p pl y w.id
    | _ =>
      match y.outst.find? fun o => o.id == w.id with
      | some o =>
        -- R224: a break record is the result of awaitb, and traps await
        if held && o.act.dests.length == 1 && y.waitsAnswer && decide (1 < r.words_.length) && r.words_.getD 1 0 != 0 then
          s.trapTask p pl w.id .broken (r.words_.headD 0)
        else
        let copies := match y.hold with
          | some h => match h.kind with
            -- R283: the flume's acceptance gives the copy record its promise
            | .flume _ _ _ => y.copies.map fun c => if c.id = w.id then { c with promise := (r.words_.headD 0).toNat } else c
            | _ => y.copies
          | none => y.copies
        let s := s.modPlot p fun x => x.put pl { y.apply o r with hold := if held then none else y.hold, copies := copies } none
        let s := match o.act with
          | .take d => if isPort d then s.slotWord p w.id r.words_.head? else s
          | _ => s
        let s := s.raiseTask p pl r.flags
        if held then s.retireTask p pl else s
      | none => s

/-- An acknowledgement that counts towards those a held instruction waits for; the last one lets it retire. -/
def State.ackOne (s : State) (w : Who) : State :=
  let p := w.plot % 2 ^ 20
  let s := s.performed p w.id
  match (s.plot p).find w.task with
  | none => s
  | some pl =>
    let y := (s.plot p).at_ pl
    match y.hold with
    | some h =>
      if h.id ≠ w.id then s
      else if h.left ≤ 1 then
        let s := s.modPlot p fun x => x.put pl { y with hold := none, outst := y.outst.filter (·.id != w.id) } none
        s.retireTask p pl
      else s.modPlot p fun x => x.put pl { y with hold := some { h with left := h.left - 1 } } none
    | none => s

end Sys2Proof.Machine
end

