-- ==== Sys2Proof/Machine/Turnout.lean ====
section
/-!
DEFINITION. The turnout: promise records, queueing, forwarding, breaking and settling (10, R205 to R230).
-/

namespace Sys2Proof.Machine

open Sys2Proof

/-- A promise record of a plot. -/
def Plot.rec_ (x : Plot) (k : Nat) : Record := Sparse.get Record.reset x.records k

/-- Changes a promise record. -/
def State.modRec (s : State) (p k : Nat) (f : Record → Record) : State :=
  s.modPlot p fun x => { x with records := Sparse.set Record.reset x.records k (f (x.rec_ k)) }

/-- The key of a record of a plot in the table of logs. -/
def recKey (p k : Nat) : Nat := p * 4096 + k

/-- R402: an event of a record is noted; its last 16 are kept. -/
def State.noteRec (s : State) (p k : Nat) (e : RecEvent) : State :=
  { s with recLogs := Sparse.modify ⟨0, []⟩ s.recLogs (recKey p k) fun l =>
      { l with events := (l.events ++ [(s.now - l.created, e)]).drop (l.events.length - 15) } }

/-- R402: a record is created: its log starts. -/
def State.startRec (s : State) (p k : Nat) (e : RecEvent) : State :=
  { s with recLogs := Sparse.set ⟨0, []⟩ s.recLogs (recKey p k) ⟨s.now, [(0, e)]⟩ }

/-- R206: the record a handle names on a plot, unless the handle is stale. -/
def Plot.named (x : Plot) (h : Word) : Option Record :=
  let r := x.rec_ (hSlot h)
  if r.st = .free || r.gen ≠ hGen h then none else some r

/-- R205: a record is settled. -/
def Record.settled (r : Record) : Bool :=
  match r.st with
  | .free | .unresolved => false
  | _ => true

/-- R205, R219: a record is chained and has not collapsed. -/
def Record.isChained (r : Record) : Bool :=
  match r.st with
  | .chained _ => true
  | _ => false

/-- R216, R219: a chained record has sent on every invocation that it can of its queue: those left wait for a strict argument. What the agent
holds is sent on when it comes back (R207), behind the registration (DEDUCED, log entry 43). -/
def Record.forwarded (r : Record) : Bool := r.queue.all fun e => e.inv.strict.isSome

/-- R216: a record treats an arrival at once: it is settled, and every entry before it has been treated. A chained one forwards a target
invocation past those that wait for a strict argument, and holds the latter. -/
def Record.takesAtOnce (r : Record) (i : Inv) : Bool :=
  r.settled && if r.isChained then i.strict.isNone && r.queue.all fun e => e.inv.strict.isSome else r.queue.isEmpty

/-- R211: a word has the form of an OREF of an existing plot. -/
def orefOk (w : Word) : Bool := !bitw w 0 && fldw w 0 12 == 0 && plotOk (hPlot w)

/-- R211: a word has the form of a handle of an existing plot. -/
def hrefOk (w : Word) : Bool := bitw w 0 && fldw w 1 12 == 0 && plotOk (hPlot w)

/-- R211: a target has its form. -/
def targetOk (w : Word) (mc : Bool) : Bool := if mc then rectOk w else if bitw w 0 then hrefOk w else orefOk w

/-- An endpoint's plot number, for a plot. -/
def Endpoint.plotNo : Endpoint → Nat
  | .plot id => id
  | _ => 0

/-- R217: an invocation that is forwarded counts a hop; one that would pass 255 breaks with DEAD-WAIT. -/
def State.forward (s : State) (src : Endpoint) (i : Inv) : State :=
  if 255 ≤ i.hops then s.breakOwn src i 0x12 else s.route src { i with hops := i.hops + 1 }

/-- R219: sends the registration of a chained record to the next handle's record. -/
def State.register (s : State) (p k : Nat) (q : Word) : State :=
  let h := mkHandle (s.plotId p) k ((s.plot p).rec_ k).gen
  ((s.sendPlot .inv (.plot (s.plotId p)) (hPlot q) (s.plot p).tenant (.register q h)).noteRec p k (.registers q)).modRec p k fun r =>
    { r with registered := true }

/-- R216: what a record does with an invocation that passes through it, by its state; `k` is the record's slot and the
invocation's arrival number is `seq`. A collapsed record goes on sending to the next handle while what it sent there is not accepted: what
has arrived since, and every target invocation, so that none passes an earlier one (R220, R221); one that was held for a strict argument
when the record collapsed is released. -/
def State.treat (s : State) (p k : Nat) (e : QEnt) : State :=
  let r := (s.plot p).rec_ k
  let src := Endpoint.plot (s.plotId p)
  let h := mkHandle (s.plotId p) k r.gen
  let i := e.inv
  let sent := fun (i : Inv) => { i with path := (h, e.seq) :: i.path }
  let broke := fun (b : Word) => s.noteRec p k (.broke e.seq i.promise b)
  let out := fun (s : State) => s.modRec p k fun r => { r with out := r.out ++ [e.seq] }
  let s' := fun (to_ : Word) => (out s).noteRec p k (.forwarded e.seq i.promise to_ i.method)
  -- R217: one that passes the hop limit breaks
  let onward := fun (to_ : Word) => if 255 ≤ i.hops then out (broke (mkBreak i.promise 0x12 0)) else s' to_
  let past := fun (s : State) => s.modRec p k fun r => { r with through := r.through ++ [e.seq] }
  let through := fun (q : Word) => match i.strict with
    | some (n, _) => (past (onward q)).forward src (sent { i with args := i.args.set n q })
    | none => (past (onward q)).forward src (sent { i with target := q })
  let deliver := fun (w : Word) (oref : Bool) => match i.strict with
    | some (n, _) => (s' i.target).route src (sent { i with args := i.args.set n w, smask := i.smask - i.smask / 2 ^ n % 2 * 2 ^ n })
    | none =>
      if oref then (onward w).forward src (sent { i with target := w }) else (broke (mkBreak h 0x20 1)).breakInv src i (mkBreak h 0x20 1)
  if r.via ≠ 0 && (decide (r.viaAt ≤ e.seq) || i.strict.isNone) then through r.via
  else match r.st with
    | .value w => deliver w false
    | .oref w => deliver w true
    | .chained q => through q
    | .broken b => (broke (deeper b)).breakInv src i (deeper b)
    | _ => s

/-- A field service block. -/
def State.field (s : State) (f : Nat) : Field := Sparse.get Field.reset s.fields f

/-- Changes a field service block. -/
def State.modField (s : State) (f : Nat) (g : Field → Field) : State :=
  { s with fields := Sparse.set Field.reset s.fields f (g (s.field f)) }

/-- R207: the agent of a plot's field holds invocations for a record, or will hold one that is on its way. -/
def State.holdsRec (s : State) (p : Nat) (h : Word) : Bool :=
  ((s.field (fieldOf p)).agent.any fun e => match e with
    | .record h' _ _ => h' == h
    | _ => false) ||
  s.net.any fun m => match m.body with
    | .recOverflow h' _ _ => h' == h
    | _ => false

/-- R207: the invocations a turnout stores. -/
def Plot.stored (x : Plot) : Nat := (x.records.map fun r => r.2.queue.length).sum

/-- R216: an invocation with its arrival number enters a record: queued behind earlier ones, or treated at once. -/
def State.recordEnter (s : State) (p : Nat) (h : Word) (i : Inv) (n : Nat) : State :=
  match (s.plot p).named h with
  | none => s.breakInv (.plot (s.plotId p)) i (mkBreak h 0x19 1)
  | some r =>
    let k := hSlot h
    let s := s.modRec p k fun r => { r with away := r.away.filter (·.1 != n) }
    if r.takesAtOnce i then s.treat p k ⟨n, i⟩
    else (s.modRec p k fun x => { x with queue := x.queue ++ [⟨n, i⟩] }).noteRec p k (.queued n i.promise i.method (i.strict.map (·.1)))

/-- R216, R207: an invocation reaches a record, or is passed to the agent when the turnout's store is full. -/
def State.recordArrive (s : State) (p : Nat) (h : Word) (i : Inv) : State :=
  match (s.plot p).named h with
  | none => s.breakInv (.plot (s.plotId p)) i (mkBreak h 0x19 1)
  | some r =>
    let full := s.holdsRec p h || (!r.takesAtOnce i && decide (Config.turnoutStore ≤ (s.plot p).stored))
    let s := s.modRec p (hSlot h) fun r => { r with seq := r.seq + 1, away := if full then r.away ++ [(r.seq, i.strict.isSome)] else r.away }
    if full then (s.noteRec p (hSlot h) (.handed r.seq i.promise i.method)).push ⟨.inv, .plot (s.plotId p), .service (fieldOf p), i.tenant, .recOverflow h i r.seq⟩
    else s.recordEnter p h i r.seq

/-- R225, R219: the record no longer waits for any invocation that came before an arrival number: none is queued, held by the agent, or
forwarded and not accepted. -/
def Record.clearBefore (r : Record) (n : Nat) : Bool :=
  r.queue.all (fun e => decide (n ≤ e.seq)) && r.away.all (fun q => decide (n ≤ q.1)) && r.out.all fun q => decide (n ≤ q)

/-- R225, R219: every invocation that came before an arrival number and that the record forwards has been sent on: at a chained record all but
those that wait for a strict argument, which the queue or the agent holds. -/
def Record.sentBefore (r : Record) (n : Nat) : Bool :=
  r.away.all (fun q => decide (n ≤ q.1) || (r.isChained && q.2)) && r.queue.all fun e => decide (n ≤ e.seq) || (r.isChained && e.inv.strict.isSome)

/-- R224: the answer to an awaiting task. -/
def awaitAns (st : PState) : Rsp :=
  match st with
  | .value w | .oref w => .words [w, 0] 0
  | .broken b => .words [b, 1] 0
  | _ => .reject

/-- R219, R220, R225: a record answers, or passes on, each request that its state lets it answer. A request that came before
the record collapsed is the record's own to answer. -/
def State.askStep (s : State) (p k : Nat) (a : Nat × Asker) : State :=
  let r := (s.plot p).rec_ k
  let src := Endpoint.plot (s.plotId p)
  let tn := (s.plot p).tenant
  let drop := s.modRec p k fun r => { r with asks := r.asks.erase a }
  let next : Option Word := if r.via ≠ 0 then (if r.viaAt ≤ a.1 then some r.via else none)
    else match r.st, a.2 with
      | .chained q, .task _ => some q
      | _, _ => none
  match next, a.2 with
  | some q, .task w =>
    if r.sentBefore a.1 then (drop.noteRec p k (.passed a.2 q)).push ⟨.inv, src, .plot (hPlot q), tn, .awaitReq q w⟩ else s
  | some q, .record h =>
    if r.sentBefore a.1 then (drop.noteRec p k (.passed a.2 q)).push ⟨.inv, src, .plot (hPlot q), tn, .register q h⟩ else s
  | none, .task w =>
    if r.settled && r.clearBefore a.1 then (drop.noteRec p k (.answered w r.st)).push ⟨.clo, src, .plot w.plot, tn, .rsp w (awaitAns r.st)⟩ else s
  | none, .record h =>
    if r.settled && !r.isChained && r.clearBefore a.1 then (drop.noteRec p k (.told h r.st)).push ⟨.clo, src, .plot (hPlot h), tn, .collapse h r.st⟩ else s

/-- Every request of a record is looked at again. -/
def State.askAll (s : State) (p k : Nat) : State :=
  ((s.plot p).rec_ k).asks.foldl (fun s a => s.askStep p k a) s

/-- R379: the host's result: bytes 0 to 7 leave over CXL.cache, the status word follows once they are written. -/
def State.hostResult (s : State) (p k : Nat) : State :=
  let r := (s.plot p).rec_ k
  match r.owner with
  | .host res | .gone res =>
    if res = 0 then s else
    let put := fun (w : Word) (kind : Nat) => { s with host := { s.host with
      cxl := s.host.cxl ++ [(⟨⟨0, 0, 0⟩, 4, res, .store (placed 0 (bytesLE 8 w.toNat))⟩, .damkar, 0)]
      results := s.host.results ++ [(res, .ofNat 64 (2 ^ 63 + kind))] } }
    match r.st with
    | .value w => put w 0
    | .oref w => put w 1
    | .broken b => put b 2
    | _ => s
  | _ => s

/-- R219: a chained record that has sent on what it can registers at the next handle. -/
def State.registerIf (s : State) (p k : Nat) : State :=
  let r := (s.plot p).rec_ k
  match r.st with
  | .chained q => if r.forwarded && !r.registered then s.register p k q else s
  | _ => s

/-- What follows a change of a record's state: a chained record without a queue registers (R219), and requests are looked at
again. -/
def State.afterSettle (s : State) (p k : Nat) : State := ((s.registerIf p k).hostResult p k).askAll p k

/-- What follows the treatment of an entry of a record, or its return from the agent: a chained record registers behind the last entry that it
forwards (R219), and requests are looked at again. -/
def State.afterQueue (s : State) (p k : Nat) : State := (s.registerIf p k).askAll p k

/-- R213, R216: a settlement reaches a record, from an endpoint. -/
def State.settleRec (s : State) (p : Nat) (h : Word) (st : PState) (member : Bool) (src : Endpoint) : State :=
  match (s.plot p).named h with
  | none => s.countAt p 12
  | some r =>
    let k := hSlot h
    if r.settled then (s.countAt p 12).noteRec p k (.late st src)
    else
      let s := s.noteRec p k (.settled st src)
      if r.members = 0 then (s.modRec p k fun r => { r with st := st }).afterSettle p k
      else match st with
        | .broken b => (s.modRec p k fun r => { r with st := .broken (if member then deeper b else b) }).afterSettle p k
        | _ =>
          if r.left ≤ 1 then
            (s.modRec p k fun r => { r with left := 0, st := .value (.ofNat 64 r.members) }).afterSettle p k
          else s.modRec p k fun r => { r with left := r.left - 1 }

/-- R226: the state word of a handle; QLEN counts what the turnout holds, not what the agent does (DESIGN CHOICE, log entry 113). -/
def State.hstatWord (s : State) (p : Nat) (h : Word) : Word :=
  match (s.plot p).named h with
  | none => 0
  | some r =>
    let own := match r.owner with
      | .task t => (s.plot p).alive t
      | .host _ => true
      | .gone _ | .none => false
    let aw := r.asks.any fun a => match a.2 with
      | .task _ => true
      | .record _ => false
    let (st, cause) := match r.st with
      | .free => (0, 0)
      | .unresolved => (if r.members = 0 then 1 else 6, 0)
      | .value _ => (2, 0)
      | .oref _ => (3, 0)
      | .chained _ => (4, 0)
      | .broken b => (5, fldw b 8 8)
    .ofNat 64 (min r.queue.length 255 * 2 ^ 16 + cause * 256 + bit aw * 128 + bit own * 64 + st)

/-- R207, R211: the lowest-numbered free record of a plot. -/
def Plot.freeRec (x : Plot) : Option Nat := (List.range Config.records).find? fun k => decide ((x.rec_ k).st = .free)

/-- R211, R207: the effect of INVOKE once its operands are read: a record, its handle, and the messages, which go `out`; `i`
is the invocation without its promise. -/
def State.invoke (s : State) (p k : Nat) (owner : Owner) (i : Inv) (out : State → Inv → State) : Word × State :=
  let gen := (((s.plot p).rec_ k).gen + 1) % 256
  let h := mkHandle (s.plotId p) k gen
  let (_, ht, wd) := rectOf i.target
  let n := if i.mc then ht * wd else 0
  let ok := targetOk i.target i.mc
  let fresh : Record := { Record.reset with
    gen := gen, st := if ok then .unresolved else .broken (mkBreak h 0x19 0), owner := owner,
    members := if ok then n else 0, left := if ok then n else 0 }
  let pc := match owner with
    | .task _ => s.ipc
    | _ => 0
  let s := (s.modRec p k fun _ => fresh).startRec p k (.created pc i.target i.method)
  let i := { i with promise := h }
  let src := Endpoint.plot (s.plotId p)
  if !ok then (h, (s.releaseCaps src i).hostResult p k)
  else (h, out s i)

end Sys2Proof.Machine
end

