-- ==== Sys2Proof/Machine/Handle.lean ====
section
/-!
DEFINITION. INVOKE and the HANDLE instructions (10, R210 to R233).
-/

namespace Sys2Proof.Machine

open Sys2Proof

/-- R210: the argument registers, a group that blocks and never traps. -/
def argRegs (n : Nat) : List Nat := span 3 n

/-- R211, invoke. -/
def execInvoke (d a n : BitVec 6) (t : Bool) (m : BitVec 6) (s : State) : Res :=
  s.finish (do
    checkRegs s (⟨regG a, t⟩ :: (argRegs n.toNat).map fun r => ⟨r, false⟩) [regG d]
    let f := modInvFields s.me.pair
    let (tg, s) := s.takeG (regG a)
    let args := (argRegs n.toNat).map s.g
    need (!(f.cap && f.mc)) (.trap .capability 0)
    match s.myPlot.freeRec with
    | none => block .record
    | some k =>
      let caps := if f.cap then s.me.gates.filter (·.excl) else []
      -- R243: the waits of rel
      caps.foldlM (fun _ g => s.relWait (s.copiesFor s.cur.1 s.me g)) ()
      let s := if f.cap then s.modMe fun x => { x with gates := x.gates.filter fun g => !g.excl } else s
      let i : Inv := {
        target := tg, mc := f.mc, member := false, method := m.toNat, args := args, hmask := f.hmask, smask := f.smask, pri := f.pri,
        caps := caps, promise := 0, parent := s.me.task.promise, sender := .ofNat 64 (s.plotId s.cur.1), hops := 0,
        path := [], tenant := s.myPlot.tenant, order := s.serial }
      let x := s.me
      let (h, s) := s.fresh.2.invoke s.cur.1 k (.task x.csr.taskid) i
        (fun s i => s.leave s.cur.1 x.csr.taskid (x.before 4) (.invocation i))
      .ok (s.setG (regG d) h).retire)

/-- R221: an AWAIT request of the current task leaves behind an invocation that names a handle and that still waits to leave (R348): the answer
lets the task send on the object, and what it sends there must not pass the invocation (DEDUCED, log entry 103). -/
def State.sendAwait (s : State) (h : Word) (id : Nat) : State :=
  let k : Packet := ⟨.inv, .plot (s.plotId s.cur.1), .plot (hPlot h), s.myPlot.tenant, .awaitReq h (s.who id)⟩
  if s.myPlot.outbox.any fun x => x.task == s.me.csr.taskid && x.what.namesHandle then s.leave s.cur.1 s.me.csr.taskid [] (.packet k)
  else s.push k

/-- R224: await and awaitb; `ds` are the destinations. -/
def awaitOp (a : BitVec 6) (t : Bool) (ds : List Nat) (both : Bool) (s : State) : Res :=
  s.finish (do
    checkRegs s [⟨regG a, t⟩] ds
    let (x, s) := s.takeG (regG a)
    if !bitw x 0 then
      .ok (match ds with
        | d :: rest => (rest.foldl (fun s r => s.setG r 0) (s.setG d x)).retire
        | [] => s.retire)
    else
      need (x != s.me.task.promise) (.trap .deadWait x)
      if !plotOk (hPlot x) then
        -- R229: a handle whose plot does not exist is stale
        let z := mkBreak x 0x19 0
        if both then .ok (match ds with
          | d :: rest => (rest.foldl (fun s r => s.setG r 1) (s.setG d z)).retire
          | [] => s.retire)
        else signal .broken z
      else
        let (id, s) := s.fresh
        let s := s.holdFor .await id ds x 0
        let s := s.await_ ⟨id, .other, false, .words ds, x⟩
        .ok (s.sendAwait x id))

/-- R224, await. -/
def execAwait (d a : BitVec 6) (t : Bool) (s : State) : Res := awaitOp a t [regG d] false s

/-- R224, awaitb: the status goes to b. -/
def execAwaitb (d a b : BitVec 6) (t : Bool) (s : State) : Res := awaitOp a t [regG d, regG b] true s

/-- R223: the task's own promise is settled already (it can see a record of its package). -/
def State.ownSettled (s : State) : Bool :=
  let h := s.me.task.promise
  if h = 0 then true
  else if hPlot h / 2 ^ 20 ≠ s.pkg then false
  else match (s.plot (hPlot h % 2 ^ 20)).named h with
    | some r => r.settled
    | none => true

/-- R223, resolve. -/
def execResolve (a : BitVec 6) (t : Bool) (s : State) : Res :=
  s.finish (do
    checkRegs s [⟨regG a, t⟩] []
    let (x, s) := s.takeG (regG a)
    .ok (s.finishTask (.value x)))

/-- R223, resolveref: an OREF resolves, a handle chains; the traps apply only while the promise is unsettled. -/
def execResolveref (a : BitVec 6) (t : Bool) (s : State) : Res :=
  s.finish (do
    checkRegs s [⟨regG a, t⟩] []
    let (x, s) := s.takeG (regG a)
    if s.ownSettled then .ok (s.finishTask (.value 0))
    else
      need (x != s.me.task.promise) (.trap .deadWait x)
      need (orefOk x || hrefOk x) (.trap .staleRef x)
      .ok (s.finishTask (if bitw x 0 then .chained x else .oref x)))

/-- R223, break. -/
def execBreakP (a : BitVec 6) (t : Bool) (s : State) : Res :=
  s.finish (do
    checkRegs s [⟨regG a, t⟩] []
    let (x, s) := s.takeG (regG a)
    .ok (s.finishTask (.broken (mkBreak s.me.task.promise (0x80 + fldw x 0 7) 0))))

/-- R226, hstat: a long-latency producer that does not hold its context; 0 at once for a word that is no handle. -/
def execHstat (d a : BitVec 6) (t : Bool) (s : State) : Res :=
  s.finish (do
    checkRegs s [⟨regG a, t⟩] [regG d]
    let (x, s) := s.takeG (regG a)
    if !bitw x 0 || !plotOk (hPlot x) then .ok (s.setG (regG d) 0).retire
    else
      let (id, s) := s.fresh
      let s := s.await_ ⟨id, .other, false, .words [regG d], x⟩
      .ok (s.sendPlot .inv (.plot (s.plotId s.cur.1)) (hPlot x) s.myPlot.tenant (.hstatReq x (s.who id))).retire)

/-- R232, send: posted. -/
def execSend (a n : BitVec 6) (t : Bool) (s : State) : Res :=
  s.finish (do
    checkRegs s (⟨regG a, t⟩ :: (argRegs n.toNat).map fun r => ⟨r, false⟩) []
    let (x, s) := s.takeG (regG a)
    need (fldw x 42 22 == 0 && plotOk (fldw x 0 36)) (.trap .storeFault x)
    let m := Msg.raw ((argRegs n.toNat).map s.g) (.ofNat 64 (s.plotId s.cur.1)) (fldw x 36 6)
    let k : Packet := ⟨.inv, .plot (s.plotId s.cur.1), .plot (fldw x 0 36), s.myPlot.tenant, m⟩
    .ok (s.leave s.cur.1 s.me.csr.taskid (s.me.before 4) (.packet k)).retire)

/-- The queue of a channel: arrival cycle and message. -/
def Plot.queue (x : Plot) (k : Nat) : List (Nat × Queued) := Sparse.get [] x.queues k

/-- Replaces the queue of a channel. -/
def Plot.setQueue (x : Plot) (k : Nat) (q : List (Nat × Queued)) : Plot := { x with queues := Sparse.set [] x.queues k q }

/-- R233: the words of a message: the header, and the payload. -/
def Queued.words_ : Queued → List Word
  | .raw ws sender => .ofNat 64 (ws.length * 2 ^ 60 + fldw sender 0 36) :: ws
  | .inv i => .ofNat 64 (i.args.length * 2 ^ 60 + fldw i.sender 0 36) :: i.args

/-- R233: serves the first waiting recv of a channel with the next word of the head message, if both are there. An
invocation taken so breaks with RECEIVED. -/
def State.serveRecv (s : State) (p k : Nat) : State :=
  let x := s.plot p
  let ch := x.chan k
  match ch.recvs with
  | [] => s
  | (w, _) :: rest =>
    let give := fun (s : State) (v : Word) (left : List Word) =>
      let s := s.modPlot p fun x => x.modChan k fun c => { c with recvs := rest, reading := if left.isEmpty then none else some left }
      s.answer w (.words [v] 0)
    match ch.reading with
    | some (v :: left) => give s v left
    | _ =>
      match x.queue k with
      | [] => s
      | (_, m) :: q =>
        -- R189: the message that a floor tick chose is no longer a waiting task
        let s := s.modPlot p fun x => { x.setQueue k q with sched := { x.sched with
          floorWaiter := if x.sched.floorWaiter = some (2 * k) then none else x.sched.floorWaiter } }
        let s := match m with
          | .inv i => s.breakOwn (.plot (s.plotId p)) i 0x21
          | .raw _ _ => s
        match m.words_ with
        | v :: left => give s v left
        | [] => s

/-- R233: the waiting recvs of a channel are served in turn, as long as there are words; the first argument bounds them. -/
def serveRecvs (p k : Nat) : Nat → State → State
  | 0, s => s
  | n + 1, s =>
    let t := s.serveRecv p k
    if ((t.plot p).chan k).recvs.length < ((s.plot p).chan k).recvs.length then serveRecvs p k n t else t

/-- R233: every waiting recv of a channel that can be served is. -/
def State.serveAll (s : State) (p k : Nat) : State := serveRecvs p k ((s.plot p).chan k).recvs.length s

/-- R233, recv. -/
def execRecv (d a : BitVec 6) (t : Bool) (s : State) : Res :=
  s.finish (do
    checkRegs s [⟨regG a, t⟩] [regG d]
    let (x, s) := s.takeG (regG a)
    need (fldw x 6 58 == 0) (.trap .loadFault x)
    let k := fldw x 0 6
    let (id, s) := s.fresh
    let s := s.await_ ⟨id, .other, false, .words [regG d], x⟩
    let w := s.who id
    let s := s.modPlot s.cur.1 fun p => p.modChan k fun c => { c with recvs := c.recvs ++ [(w, regG d)] }
    .ok (s.retire.serveAll s.cur.1 k))

end Sys2Proof.Machine
end

