-- ==== Sys2Proof/Machine/Csr.lean ====
section
/-!
DEFINITION. The control and status registers: reads, and writes through the field rules of their maps (14, R306 to
R310, R321 to R335; 02, R49, R50; 07, R142, R143; 06, R130; 09, R178).
-/

namespace Sys2Proof.Machine

open Sys2Proof

/-- Keeps the bits of a word that a mask names. -/
def keepBits (w : Word) (mask : Nat) : Word := w &&& .ofNat 64 mask

/-- R133: the base tile of a tile's group. -/
def Plot.base (x : Plot) (t : Nat) : Nat := t - Sparse.get 0 x.tiles t

/-- R133: the group of a base tile. -/
def Plot.group (x : Plot) (b : Nat) : Group := Sparse.get Group.reset x.groups b

/-- R143: MTCFG as it reads: SEL, and the plot's state of that tile. -/
def Plot.mtcfg (x : Plot) (sel : Nat) : Word :=
  let b := x.base sel
  let g := x.group b
  .ofNat 64 (bit g.live * 2 ^ 21 + bit g.held.isSome * 2 ^ 20 + b * 2 ^ 14 + g.rows * 2 ^ 12 + g.cols * 2 ^ 10 + bit g.i32 * 2 ^ 9 + sel)

/-- R178: QCNT: the messages of a channel, the one that a recv is reading included. -/
def Plot.qcnt (x : Plot) (k : Nat) : Nat := (Sparse.get [] x.queues k).length + bit (x.chan k).reading.isSome

/-- R178: a channel entry as it reads. -/
def Plot.chent (x : Plot) (k : Nat) : Word :=
  let c := x.chan k
  .ofNat 64 (min (x.qcnt k) 15 * 2 ^ 36 + bit c.ov * 2 ^ 35 + bit c.en * 2 ^ 31 + bit c.blk * 2 ^ 30 + c.pri % 8 * 2 ^ 27 +
    bit c.objv * 2 ^ 26 + c.slot % 16 * 2 ^ 22 + bit c.cen * 2 ^ 21 + c.cact % 4 * 2 ^ 19 + c.epc % 2048)

/-- R178: a write of a channel entry: QCNT and OV are read-only. -/
def Chan.write (c : Chan) (w : Word) (now : Nat) : Chan :=
  { c with
    en := bitw w 31, blk := bitw w 30, pri := fldw w 27 3, objv := bitw w 26, slot := fldw w 22 4, cen := bitw w 21,
    cact := fldw w 19 2, epc := fldw w 0 11, unblocked := if c.blk && !bitw w 30 then now else c.unblocked }

/-- R321: an object slot as it reads. -/
def Obj.word (o : Obj) : Word :=
  .ofNat 64 (bit o.v * 2 ^ 63 + bit o.res * 2 ^ 62 + bit o.cen * 2 ^ 61 + o.cact % 4 * 2 ^ 59 + o.gen % 4096)

/-- R321: an object slot from a written word. -/
def objOf (w : Word) : Obj := ⟨bitw w 63, bitw w 62, bitw w 61, fldw w 59 2, fldw w 0 12⟩

/-- R309: a write to PTROOT invalidates the micro-TLB. -/
def State.writePtroot (s : State) (p : Nat) (w : Word) : State :=
  s.modPlot p fun x => { x with csr := { x.csr with ptroot := keepBits w 0x0000FFFFFFFF0001 }, utlb := [] }

/-- R178: a write of a channel entry. -/
def State.writeChent (s : State) (p k : Nat) (w : Word) : State := s.modPlot p fun x => x.modChan k fun c => c.write w s.now

/-- R321, R322: a write of an object slot; V = 1 ends a mapping of the slot's old object. The agent's list of a reloaded
object enters its channels by the agent's returns (R230). -/
def State.writeObjent (s : State) (p k : Nat) (w : Word) : State :=
  let s := s.modPlot p fun x => { x with objs := Sparse.set Obj.reset x.objs k (objOf w) }
  if bitw w 63 then
    s.modField (fieldOf p) fun f => { f with
      dir := f.dir.filter fun d => !(hPlot d.1 % 2 ^ 20 == p && oSlot d.1 == k) }
  else s

/-- R323: a write of CISTERN: BASE takes effect only when no image is stored. -/
def State.writeCistern (s : State) (p : Nat) (w : Word) : State :=
  s.modPlot p fun x =>
    let w := keepBits w 0xFFF000FFFFFFFFC0
    let w := if x.sched.images.isEmpty then w else putw w 0 40 (fldw x.csr.cistern 0 40)
    { x with csr := { x.csr with cistern := w } }

/-- R335: the SQSTAT part of one buffer: a number out of range is ignored; a V bit cleared starts the rebuilding of its
square; a V bit set marks a square (R332 class 7, R387). -/
def State.writeSq (s : State) (p : Nat) (w : Word) (buf : Nat) : State :=
  let old := (s.plot p).csr.sqstat
  match failedSquare w buf with
  | some q =>
    if squares buf ≤ q then s
    else
      let s := s.modPlot p fun x => { x with csr := { x.csr with sqstat := markSquare x.csr.sqstat buf q } }
      if failedSquare old buf = some q then s else (s.countAt p 7).hostEvent 4 (s.plotId p) (buf * 64 + q)
  | none =>
    let (v, lo, n) := match buf with
      | 0 => (22, 17, 5)
      | 1 => (16, 10, 6)
      | _ => (9, 5, 4)
    if squares buf ≤ fldw w lo n then s
    else s.modPlot p fun x => { x with
      csr := { x.csr with sqstat := putw (putw x.csr.sqstat v 1 0) lo n (fldw w lo n) }
      bufs := match failedSquare old buf with
        | some q => { x.bufs with rebuilding := x.bufs.rebuilding ++ [buf * 64 + q] }
        | none => x.bufs }

/-- R335: a write of SQSTAT. -/
def State.writeSqstat (s : State) (p : Nat) (w : Word) : State := ((s.writeSq p w 0).writeSq p w 1).writeSq p w 2

/-- R306: a CSR as a context of a plot reads it. -/
def State.csrRead (s : State) (p c n : Nat) : Word :=
  let x := s.ctx p c
  let pl := s.plot p
  let k := x.csr
  match n with
  | 0x00 => s.cycle
  | 0x01 => .ofNat 64 (s.plotId p)
  | 0x02 => .ofNat 64 c
  | 0x03 => .ofNat 64 k.taskid
  | 0x04 => .ofNat 64 k.taskpri
  | 0x08 => k.epc
  | 0x09 => k.tcause
  | 0x0A => k.tval
  | 0x0B => k.tstat
  | 0x0C => pl.csr.tvec
  | 0x0D => k.tscratch
  | 0x10 => k.fpcsr
  | 0x11 => k.vfmt
  | 0x12 => k.mrp
  | 0x13 => pl.mtcfg (fldw k.mtcfg 0 6)
  | 0x18 => k.rngkeylo
  | 0x19 => k.rngkeyhi
  | 0x1A => k.rngctr
  | 0x20 | 0x21 | 0x22 | 0x23 => Sparse.get 0 k.bka (n - 0x20)
  | 0x24 | 0x25 | 0x26 | 0x27 => Sparse.get 0 k.wpa (n - 0x24)
  | 0x28 | 0x29 | 0x2A | 0x2B => Sparse.get 0 k.wpm (n - 0x28)
  | 0x2C => putw k.dbgctl 15 1 (bit x.halted)
  | 0x30 => pl.csr.detctl
  | 0x31 => pl.csr.detq
  | 0x38 => k.thsel
  | 0x39 => .ofNat 64 (Sparse.get Thr.reset pl.thr (fldw k.thsel 0 4)).win
  | 0x3A => .ofNat 64 (Sparse.get Thr.reset pl.thr (fldw k.thsel 0 4)).cnt
  | 0x3B => (Sparse.get Thr.reset pl.thr (fldw k.thsel 0 4)).lim
  | 0x40 => pl.csr.ptroot
  | 0x41 => pl.csr.seedlo
  | 0x42 => pl.csr.seedhi
  | 0x43 => pl.csr.cistern
  | 0x44 => k.chsel
  | 0x45 => pl.chent (fldw k.chsel 0 6)
  | 0x46 => k.objsel
  | 0x47 => (pl.obj (fldw k.objsel 0 4)).word
  | 0x48 => pl.csr.pcont
  | _ => pl.csr.sqstat

/-- R49: a write of FPCSR: RM keeps its value on 5, 6 and 7. -/
def fpcsrWrite (old w : Word) : Word :=
  let v := keepBits w 0xF3F
  if 5 ≤ fldw w 8 3 then putw v 8 3 (fldw old 8 3) else v ||| keepBits w 0x700

/-- R50: a write of VFMT: P keeps its value on 0. -/
def vfmtWrite (old w : Word) : Word :=
  let v := keepBits w 0xF
  if fldw w 0 3 = 0 then putw v 0 3 (fldw old 0 3) else v

/-- R326: a write of DBGCTL: HOT keeps its value on 3; HALTED is read-only. -/
def dbgctlWrite (old w : Word) : Word :=
  let v := keepBits w 0x7FF
  if fldw w 9 2 = 3 then putw v 9 2 (fldw old 9 2) else v

/-- Changes the CSRs of a context. -/
def State.modCsr (s : State) (p c : Nat) (f : Csrs → Csrs) : State := s.modCtx p c fun x => { x with csr := f x.csr }

/-- Changes the threshold class a context selects (R333). -/
def State.modThr (s : State) (p c : Nat) (f : Thr → Thr) : State :=
  let k := fldw (s.ctx p c).csr.thsel 0 4
  s.modPlot p fun x => { x with thr := Sparse.set Thr.reset x.thr k (f (Sparse.get Thr.reset x.thr k)) }

/-- R308: a write of a CSR through the field rules of its map; a read-only CSR keeps its value. -/
def State.csrWrite (s : State) (p c n : Nat) (w : Word) : State :=
  match n with
  | 0x08 => s.modCsr p c fun k => { k with epc := w }
  | 0x09 => s.modCsr p c fun k => { k with tcause := keepBits w 0xFF }
  | 0x0A => s.modCsr p c fun k => { k with tval := w }
  | 0x0B => s.modCsr p c fun k => { k with tstat := putw k.tstat 0 4 (fldw w 0 4) }
  | 0x0C => s.modPlot p fun x => { x with csr := { x.csr with tvec := keepBits w 0x8000000000001FFC } }
  | 0x0D => s.modCsr p c fun k => { k with tscratch := w }
  | 0x10 => s.modCsr p c fun k => { k with fpcsr := fpcsrWrite k.fpcsr w }
  | 0x11 => s.modCsr p c fun k => { k with vfmt := vfmtWrite k.vfmt w }
  | 0x12 => s.modCsr p c fun k => { k with mrp := keepBits w 0x87FF1F0FFFFFFFFF }
  | 0x13 => s.modCsr p c fun k => { k with mtcfg := keepBits w 0x3F }
  | 0x18 => s.modCsr p c fun k => { k with rngkeylo := w }
  | 0x19 => s.modCsr p c fun k => { k with rngkeyhi := w }
  | 0x1A => s.modCsr p c fun k => { k with rngctr := keepBits w 0x1FFFFFFFFFFFF }
  | 0x20 | 0x21 | 0x22 | 0x23 => s.modCsr p c fun k => { k with bka := Sparse.set 0 k.bka (n - 0x20) (keepBits w 0x1FFC) }
  | 0x24 | 0x25 | 0x26 | 0x27 => s.modCsr p c fun k => { k with wpa := Sparse.set 0 k.wpa (n - 0x24) w }
  | 0x28 | 0x29 | 0x2A | 0x2B =>
    s.modCsr p c fun k => { k with wpm := Sparse.set 0 k.wpm (n - 0x28) (keepBits w 0xF0FFFFFFFFFFFFFF) }
  | 0x2C => s.modCsr p c fun k => { k with dbgctl := dbgctlWrite k.dbgctl w }
  | 0x38 => if 14 ≤ fldw w 0 4 then s else s.modCsr p c fun k => { k with thsel := keepBits w 0xF }
  | 0x39 => s.modThr p c fun t => { t with win := fldw w 0 32 }
  | 0x3A => s.modThr p c fun t => { t with cnt := fldw w 0 32 }
  | 0x3B => s.modThr p c fun t => { t with lim := keepBits w 0xE0000000FFFFFFFF }
  | 0x40 => s.writePtroot p w
  | 0x41 => s.modPlot p fun x => { x with csr := { x.csr with seedlo := w } }
  | 0x42 => s.modPlot p fun x => { x with csr := { x.csr with seedhi := w } }
  | 0x43 => s.writeCistern p w
  | 0x44 => s.modCsr p c fun k => { k with chsel := keepBits w 0x3F }
  | 0x45 => s.writeChent p (fldw (s.ctx p c).csr.chsel 0 6) w
  | 0x46 => s.modCsr p c fun k => { k with objsel := keepBits w 0xF }
  | 0x47 => s.writeObjent p (fldw (s.ctx p c).csr.objsel 0 4) w
  | 0x49 => s.writeSqstat p w
  | _ => s

/-- R306: the CSRs a task may read; those it may write are these without the read-only ones. -/
def csrTask (n : Nat) : Bool :=
  decide (n ≤ 0x04) || (decide (0x10 ≤ n) && decide (n ≤ 0x13)) || (decide (0x18 ≤ n) && decide (n ≤ 0x1A)) ||
  (decide (0x30 ≤ n) && decide (n ≤ 0x31)) || n == 0x48

end Sys2Proof.Machine
end

