-- ==== Sys2Proof/Machine/Scalar.lean ====
section
/-!
DEFINITION. Scalar integer and address instructions (04, R76 to R85).
-/

namespace Sys2Proof.Machine

open Sys2Proof

/-- R72, R77: the RR pattern: two sources, one result. -/
def alu2 (d a b : BitVec 6) (t u : Bool) (op : Word → Word → Word) (s : State) : Res :=
  s.finish (do
    checkRegs s [⟨regG a, t⟩, ⟨regG b, u⟩] [regG d]
    let (x, s) := s.takeG (regG a)
    let (y, s) := s.takeG (regG b)
    .ok (s.setG (regG d) (op x y)).retire)

/-- R72: one source, one result. -/
def alu1 (d a : BitVec 6) (t : Bool) (op : Word → Word) (s : State) : Res :=
  s.finish (do
    checkRegs s [⟨regG a, t⟩] [regG d]
    let (x, s) := s.takeG (regG a)
    .ok (s.setG (regG d) (op x)).retire)

/-- R79: a multiplication: the result is written later. -/
def mulOp (d a b : BitVec 6) (t u : Bool) (op : Nat → Nat → Nat) (s : State) : Res :=
  s.finish (do
    checkRegs s [⟨regG a, t⟩, ⟨regG b, u⟩] [regG d]
    let (x, s) := s.takeG (regG a)
    let (y, s) := s.takeG (regG b)
    let s := if d = 0 then s else s.later (regG d) (.ofNat 256 (op x.toNat y.toNat % 2 ^ 64)) false
    .ok s.retire)

/-- R79, R90: a division: it waits for the plot's divider, and its result is written later. -/
def divOp (d a b : BitVec 6) (t u : Bool) (op : Nat → Nat → Nat) (s : State) : Res :=
  s.finish (do
    checkRegs s [⟨regG a, t⟩, ⟨regG b, u⟩] [regG d]
    need s.myPlot.divBusy.isNone (.block .divider)
    let (x, s) := s.takeG (regG a)
    let (y, s) := s.takeG (regG b)
    let s := s.modPlot s.cur.1 fun p => { p with divBusy := some s.cur.2 }
    let s := s.later (regG d) (.ofNat 256 (op x.toNat y.toNat % 2 ^ 64)) true
    .ok s.retire)

/-- A word from its packed elements of `w` bits, lowest first. -/
def packed (w : Nat) : List Nat → Nat
  | [] => 0
  | x :: t => x % 2 ^ w + 2 ^ w * packed w t

/-- The packed elements of `w` bits of a word (R76). -/
def elems (w : Nat) (x : Word) : List Nat := (List.range (64 / w)).map fun e => x.toNat / 2 ^ (w * e) % 2 ^ w

/-- The element width of a packed form's suffix (R76). -/
def packW (w : BitVec 2) : Nat := 8 * 2 ^ w.toNat

/-- R77: a counting form of an element width. -/
def countOp (w : BitVec 2) (op : Nat → Nat → Nat) (x : Word) : Word :=
  .ofNat 64 (packed (packW w) ((elems (packW w) x).map (op (packW w))))

/-- R78: a sum or difference of packed elements, wrapped or clamped by the pair's modifier, with SAT. -/
def addOp (d a b : BitVec 6) (t u : Bool) (w : Nat) (op : Int → Int → Int) (s : State) : Res :=
  s.finish (do
    checkRegs s [⟨regG a, t⟩, ⟨regG b, u⟩] [regG d]
    let m := modVf s.me.pair
    let (x, s) := s.takeG (regG a)
    let (y, s) := s.takeG (regG b)
    let rs := List.zipWith (fun x y => fitInt w m.sat m.uns (op (toInt w (!m.uns) x) (toInt w (!m.uns) y))) (elems w x) (elems w y)
    let s := s.setG (regG d) (.ofNat 64 (packed w (rs.map (·.1))))
    let s := s.raise s.cur.1 s.cur.2 (rs.foldl (fun f r => f ||| r.2) 0)
    .ok s.retire)

/-- R80: the immediate pattern. -/
def immOp (d a : BitVec 6) (t : Bool) (i : BitVec 13) (op : Word → Word → Word) (s : State) : Res :=
  alu1 d a t (fun x => op x (immOf s.me.pair i)) s

/-- A truth value as a word. -/
def ofBool (b : Bool) : Word := if b then 1 else 0

/-- R76: a rotated left by `n`. -/
def rotl (x : Word) (n : Nat) : Word := x <<< (n % 64) ||| x >>> ((64 - n % 64) % 64)

/-- R76: brev: bit i moves to bit 63 - i. -/
def brev (x : Word) : Word := .ofNat 64 (packed 1 (elems 1 x).reverse)

/-- R76: bswap: byte i moves to byte 7 - i. -/
def bswap (x : Word) : Word := .ofNat 64 (packed 8 (elems 8 x).reverse)

/-- R85: lea.a, lea.w, lea.c. -/
def baddrOf (buf : Nat) (a b : Word) : Word :=
  .ofNat 64 (3 * 2 ^ 62 + fldw a 0 36 * 2 ^ 26 + buf * 2 ^ 24 + fldw b 0 16)

/-- R76, and: a AND b. -/
def execAnd (d a b : BitVec 6) (t u : Bool) (s : State) : Res :=
  alu2 d a b t u (fun x y => x &&& y) s

/-- R76, or: a OR b. -/
def execOr (d a b : BitVec 6) (t u : Bool) (s : State) : Res :=
  alu2 d a b t u (fun x y => x ||| y) s

/-- R76, xor: a XOR b. -/
def execXor (d a b : BitVec 6) (t u : Bool) (s : State) : Res :=
  alu2 d a b t u (fun x y => x ^^^ y) s

/-- R76, andn: a AND NOT b. -/
def execAndn (d a b : BitVec 6) (t u : Bool) (s : State) : Res :=
  alu2 d a b t u (fun x y => x &&& ~~~y) s

/-- R76, orn: a OR NOT b. -/
def execOrn (d a b : BitVec 6) (t u : Bool) (s : State) : Res :=
  alu2 d a b t u (fun x y => x ||| ~~~y) s

/-- R76, xnor: NOT (a XOR b). -/
def execXnor (d a b : BitVec 6) (t u : Bool) (s : State) : Res :=
  alu2 d a b t u (fun x y => ~~~(x ^^^ y)) s

/-- R76, sll: a shifted left by b[5:0]. -/
def execSll (d a b : BitVec 6) (t u : Bool) (s : State) : Res :=
  alu2 d a b t u (fun x y => x <<< (y.toNat % 64)) s

/-- R76, srl: a shifted right by b[5:0], zeros in. -/
def execSrl (d a b : BitVec 6) (t u : Bool) (s : State) : Res :=
  alu2 d a b t u (fun x y => x >>> (y.toNat % 64)) s

/-- R76, sra: a shifted right by b[5:0], copies of a[63] in. -/
def execSra (d a b : BitVec 6) (t u : Bool) (s : State) : Res :=
  alu2 d a b t u (fun x y => x.sshiftRight (y.toNat % 64)) s

/-- R76, rol: a rotated left by b[5:0]. -/
def execRol (d a b : BitVec 6) (t u : Bool) (s : State) : Res :=
  alu2 d a b t u (fun x y => rotl x (y.toNat % 64)) s

/-- R76, ror: a rotated right by b[5:0]. -/
def execRor (d a b : BitVec 6) (t u : Bool) (s : State) : Res :=
  alu2 d a b t u (fun x y => rotl x (64 - y.toNat % 64)) s

/-- R76, slt: 1 if a < b as i64. -/
def execSlt (d a b : BitVec 6) (t u : Bool) (s : State) : Res :=
  alu2 d a b t u (fun x y => ofBool (x.slt y)) s

/-- R76, sltn: 1 if a < b as n64. -/
def execSltn (d a b : BitVec 6) (t u : Bool) (s : State) : Res :=
  alu2 d a b t u (fun x y => ofBool (x.ult y)) s

/-- R76, seq: 1 if a = b. -/
def execSeq (d a b : BitVec 6) (t u : Bool) (s : State) : Res :=
  alu2 d a b t u (fun x y => ofBool (x == y)) s

/-- R76, sne: 1 if a ≠ b. -/
def execSne (d a b : BitVec 6) (t u : Bool) (s : State) : Res :=
  alu2 d a b t u (fun x y => ofBool (x != y)) s

/-- R76, min: smaller as i64. -/
def execMin (d a b : BitVec 6) (t u : Bool) (s : State) : Res :=
  alu2 d a b t u (fun x y => if x.slt y then x else y) s

/-- R76, max: larger as i64. -/
def execMax (d a b : BitVec 6) (t u : Bool) (s : State) : Res :=
  alu2 d a b t u (fun x y => if x.slt y then y else x) s

/-- R76, minn: smaller as n64. -/
def execMinn (d a b : BitVec 6) (t u : Bool) (s : State) : Res :=
  alu2 d a b t u (fun x y => if x.ult y then x else y) s

/-- R76, maxn: larger as n64. -/
def execMaxn (d a b : BitVec 6) (t u : Bool) (s : State) : Res :=
  alu2 d a b t u (fun x y => if x.ult y then y else x) s

/-- R76, R78, add: a + b, or clamped under sat. -/
def execAdd (d a b : BitVec 6) (t u : Bool) (s : State) : Res :=
  addOp d a b t u 64 (· + ·) s

/-- R76, R78, sub: a - b, or clamped under sat. -/
def execSub (d a b : BitVec 6) (t u : Bool) (s : State) : Res :=
  addOp d a b t u 64 (· - ·) s

/-- R76, R79, mul: low 64 bits of a × b. -/
def execMul (d a b : BitVec 6) (t u : Bool) (s : State) : Res :=
  mulOp d a b t u (fun x y => x * y) s

/-- R76, R79, mulh: high 64 bits of a × b, both i64. -/
def execMulh (d a b : BitVec 6) (t u : Bool) (s : State) : Res :=
  mulOp d a b t u (fun x y => (toInt 64 true x * toInt 64 true y / 2 ^ 64 % 2 ^ 64).toNat) s

/-- R76, R79, mulhn: high 64 bits of a × b, both n64. -/
def execMulhn (d a b : BitVec 6) (t u : Bool) (s : State) : Res :=
  mulOp d a b t u (fun x y => x * y / 2 ^ 64) s

/-- R76, R79, mulhsn: high 64 bits of a × b, a i64, b n64. -/
def execMulhsn (d a b : BitVec 6) (t u : Bool) (s : State) : Res :=
  mulOp d a b t u (fun x y => (toInt 64 true x * (y : Int) / 2 ^ 64 % 2 ^ 64).toNat) s

/-- R76, R79, div: a ÷ b as i64 (R28). -/
def execDiv (d a b : BitVec 6) (t u : Bool) (s : State) : Res :=
  divOp d a b t u (fun x y => (divCode 64 true x y).1) s

/-- R76, R79, divn: a ÷ b as n64 (R28). -/
def execDivn (d a b : BitVec 6) (t u : Bool) (s : State) : Res :=
  divOp d a b t u (fun x y => (divCode 64 false x y).1) s

/-- R76, R79, rem: remainder as i64 (R28). -/
def execRem (d a b : BitVec 6) (t u : Bool) (s : State) : Res :=
  divOp d a b t u (fun x y => (divCode 64 true x y).2) s

/-- R76, R79, remn: remainder as n64 (R28). -/
def execRemn (d a b : BitVec 6) (t u : Bool) (s : State) : Res :=
  divOp d a b t u (fun x y => (divCode 64 false x y).2) s

/-- R76, R29, clz.w. -/
def execClz (d a : BitVec 6) (t : Bool) (w : BitVec 2) (s : State) : Res :=
  alu1 d a t (countOp w clz) s

/-- R76, R29, ctz.w. -/
def execCtz (d a : BitVec 6) (t : Bool) (w : BitVec 2) (s : State) : Res :=
  alu1 d a t (countOp w ctz) s

/-- R76, R29, ffs.w. -/
def execFfs (d a : BitVec 6) (t : Bool) (w : BitVec 2) (s : State) : Res :=
  alu1 d a t (countOp w ffs) s

/-- R76, R29, popc.w. -/
def execPopc (d a : BitVec 6) (t : Bool) (w : BitVec 2) (s : State) : Res :=
  alu1 d a t (countOp w popc) s

/-- R77, csel: a if the old G[d] is not 0, else b; the condition is a third source, which blocks and never traps. -/
def execCsel (d a b : BitVec 6) (t u : Bool) (s : State) : Res :=
  s.finish (do
    checkRegs s [⟨regG a, t⟩, ⟨regG b, u⟩, ⟨regG d, false⟩] [regG d]
    let c := s.g (regG d)
    let (x, s) := s.takeG (regG a)
    let (y, s) := s.takeG (regG b)
    .ok (s.setG (regG d) (if c ≠ 0 then x else y)).retire)

/-- R76, brev. -/
def execBrev (d a : BitVec 6) (t : Bool) (s : State) : Res :=
  alu1 d a t brev s

/-- R76, bswap. -/
def execBswap (d a : BitVec 6) (t : Bool) (s : State) : Res :=
  alu1 d a t bswap s

/-- R76, R78, padd.w. -/
def execPadd (d a b : BitVec 6) (t u : Bool) (w : BitVec 2) (s : State) : Res :=
  addOp d a b t u (packW w) (· + ·) s

/-- R76, R78, psub.w. -/
def execPsub (d a b : BitVec 6) (t u : Bool) (w : BitVec 2) (s : State) : Res :=
  addOp d a b t u (packW w) (· - ·) s

/-- R80, addi. -/
def execAddi (d a : BitVec 6) (t : Bool) (i : BitVec 13) (s : State) : Res :=
  immOp d a t i (· + ·) s

/-- R80, andi. -/
def execAndi (d a : BitVec 6) (t : Bool) (i : BitVec 13) (s : State) : Res :=
  immOp d a t i (· &&& ·) s

/-- R80, ori. -/
def execOri (d a : BitVec 6) (t : Bool) (i : BitVec 13) (s : State) : Res :=
  immOp d a t i (· ||| ·) s

/-- R80, xori. -/
def execXori (d a : BitVec 6) (t : Bool) (i : BitVec 13) (s : State) : Res :=
  immOp d a t i (· ^^^ ·) s

/-- R81, slti: 1 if a < imm12 as i64. -/
def execSlti (d a : BitVec 6) (t : Bool) (i : BitVec 12) (s : State) : Res :=
  alu1 d a t (fun x => ofBool (x.slt (sext 12 i.toNat))) s

/-- R81, sltni: the same comparison as n64. -/
def execSltni (d a : BitVec 6) (t : Bool) (i : BitVec 12) (s : State) : Res :=
  alu1 d a t (fun x => ofBool (x.ult (sext 12 i.toNat))) s

/-- R82, slli: a shifted left by sh. -/
def execSlli (d a : BitVec 6) (t : Bool) (h : BitVec 6) (s : State) : Res :=
  alu1 d a t (fun x => x <<< h.toNat) s

/-- R82, srli: a shifted right by sh, zeros in. -/
def execSrli (d a : BitVec 6) (t : Bool) (h : BitVec 6) (s : State) : Res :=
  alu1 d a t (fun x => x >>> h.toNat) s

/-- R82, srai: a shifted right by sh, copies of a[63] in. -/
def execSrai (d a : BitVec 6) (t : Bool) (h : BitVec 6) (s : State) : Res :=
  alu1 d a t (fun x => x.sshiftRight h.toNat) s

/-- R82, rori: a rotated right by sh. -/
def execRori (d a : BitVec 6) (t : Bool) (h : BitVec 6) (s : State) : Res :=
  alu1 d a t (fun x => rotl x (64 - h.toNat)) s

/-- R83, exti: Zext(a[pos + len - 1 : pos], len), where `l` is len - 1. -/
def execExti (d a : BitVec 6) (t : Bool) (p l : BitVec 6) (s : State) : Res :=
  alu1 d a t (fun x => .ofNat 64 (fldw x p.toNat (l.toNat + 1))) s

/-- R83, insi: the low len bits of a replace G[d][pos + len - 1 : pos]; the old G[d] is a third source, which blocks
and never traps. -/
def execInsi (d a : BitVec 6) (t : Bool) (p l : BitVec 6) (s : State) : Res :=
  s.finish (do
    checkRegs s [⟨regG a, t⟩, ⟨regG d, false⟩] [regG d]
    let old := s.g (regG d)
    let (x, s) := s.takeG (regG a)
    .ok (s.setG (regG d) (putw old p.toNat (l.toNat + 1) x.toNat)).retire)

/-- R85, lea: a + b × 2^fn. -/
def execLea (d a b : BitVec 6) (t u : Bool) (h : BitVec 3) (s : State) : Res :=
  alu2 d a b t u (fun x y => x + y <<< h.toNat) s

/-- R85, lea.a. -/
def execLeaA (d a b : BitVec 6) (t u : Bool) (s : State) : Res :=
  alu2 d a b t u (baddrOf 0) s

/-- R85, lea.w. -/
def execLeaW (d a b : BitVec 6) (t u : Bool) (s : State) : Res :=
  alu2 d a b t u (baddrOf 1) s

/-- R85, lea.c. -/
def execLeaC (d a b : BitVec 6) (t u : Bool) (s : State) : Res :=
  alu2 d a b t u (baddrOf 2) s

end Sys2Proof.Machine
end

