-- ==== Sys2Proof/Machine/Special.lean ====
section
/-!
DEFINITION. The special functions of the vector unit (06, R128, R129). Each is computed in fixed point of 192 fraction
bits, far beyond what the rounding of a 24-bit result can tell apart; a result that is not exact carries a low bit
that keeps it strictly between its neighbours, as `Num.div` does.
-/

namespace Sys2Proof.Machine

open Sys2Proof

/-- One in fixed point. -/
def fxOne : Nat := 2 ^ 192

/-- The series z + z³/3 + z⁵/5 + …: `zz` is z², `pw` the power, `k` the divisor. -/
def atanhSum (zz : Nat) : Nat → Nat → Nat → Nat
  | 0, _, _ => 0
  | n + 1, pw, k => pw / k + atanhSum zz n (pw * zz / fxOne) (k + 2)

/-- ln(a / b) for 1 ≤ a / b ≤ 2, as 2 atanh((a - b) / (a + b)). -/
def lnFx (a b : Nat) : Nat :=
  let z := (a - b) * fxOne / (a + b)
  2 * atanhSum (z * z / fxOne) 64 z 1

/-- ln 2. -/
def ln2Fx : Nat := lnFx 2 1

/-- The series 1 + r + r²/2! + …: `term` is the term, `k` its number. -/
def expSum (r : Nat) : Nat → Nat → Nat → Nat
  | 0, _, _ => 0
  | n + 1, term, k => term + expSum r n (term * r / fxOne / (k + 1)) (k + 1)

/-- e^r for 0 ≤ r < 1. -/
def expFx (r : Nat) : Nat := expSum r 64 fxOne 0

/-- 2^x or e^x for x = ±m × 2^e, not zero, when the result is not exact. Beyond 2^11 only the side counts. -/
def expNum (base2 neg : Bool) (m : Nat) (e : Int) : Num :=
  if 11 < (bitLen m : Int) + e then .fin false 1 (if neg then -4096 else 4096)
  else
    let mag := (roundAt 1 false m e (-192)).1
    let x : Int := if neg then -mag else mag
    let (n, r) :=
      if base2 then (x / fxOne, (x % fxOne).toNat * ln2Fx / fxOne)
      else (x / ln2Fx, (x % ln2Fx).toNat)
    .fin false (2 * expFx r + 1) (n - 193)

/-- m × 2^e is an integer. -/
def isInteger (m : Nat) (e : Int) : Bool := decide (0 ≤ e) || m % 2 ^ (-e).toNat == 0

/-- log₂ of m × 2^e, m not zero. -/
def log2Num (m : Nat) (e : Int) : Num :=
  let k := bitLen m - 1
  let n := e + k
  if m = 2 ^ k then .fin (decide (n < 0)) n.natAbs 0
  else
    let t := n * fxOne + (lnFx m (2 ^ k) * fxOne / ln2Fx : Nat)
    .fin (decide (t < 0)) (2 * t.natAbs + 1) (-193)

/-- The numbers a and b of t = e^-y for y = m × 2^e: a / b = t. -/
def expParts (m : Nat) (e : Int) : Nat × Nat :=
  match expNum false true m e with
  | .fin _ a q => (a, 2 ^ (-q).toNat)
  | _ => (0, 1)

/-- tanh of ±m × 2^e, m not zero: (1 - t) / (1 + t) with t = e^-2x. Below 2^-40 it lies just below x. -/
def tanhNum (neg : Bool) (m : Nat) (e : Int) : Num :=
  if (bitLen m : Int) + e < -40 then .fin neg (m * 2 ^ 100 - 1) (e - 100)
  else
    let (a, b) := expParts m (e + 1)
    (Num.div (.fin neg (b - a) 0) (.fin false (b + a) 0)).1

/-- 1 / (1 + e^-x) for x = ±m × 2^e, m not zero. -/
def sigmNum (neg : Bool) (m : Nat) (e : Int) : Num :=
  let (a, b) := expParts m e
  (Num.div (.fin false (if neg then a else b) 0) (.fin false (b + a) 0)).1

/-- 1 / √(m × 2^e), m not zero. -/
def rsqrtNum (m : Nat) (e : Int) : Num :=
  let odd := e % 2
  let m' := m * 2 ^ odd.toNat
  let k := bitLen m' + 100
  let r := isqrt (2 ^ (2 * k) / m') (k + 1) 0
  .fin false (2 * r + (if r * r * m' = 2 ^ (2 * k) then 0 else 1)) (-((e - odd) / 2) - k - 1)

/-- R128, R129: the exact result of a special function (0 vrcp, 1 vrsqrt, 2 vexp2, 3 vlog2, 4 vexp, 5 vtanh, 6 vsigm) and
DZ. -/
def specialNum (fn : Nat) (x : Num) : Num × Nat :=
  match fn, x with
  | _, .nan s => (.nan s, 0)
  | 0, x => Num.div (.fin false 1 0) x
  | 1, .inf neg => (if neg then .nan true else .fin false 0 0, 0)
  | 1, .fin neg m e => if m = 0 then (.inf neg, flDZ) else if neg then (.nan true, 0) else (rsqrtNum m e, 0)
  | 3, .inf neg => (if neg then .nan true else .inf false, 0)
  | 3, .fin neg m e => if m = 0 then (.inf true, flDZ) else if neg then (.nan true, 0) else (log2Num m e, 0)
  | 5, .inf neg => (.fin neg 1 0, 0)
  | 5, .fin neg m e => (if m = 0 then .fin neg 0 0 else tanhNum neg m e, 0)
  | 6, .inf neg => (if neg then .fin false 0 0 else .fin false 1 0, 0)
  | 6, .fin neg m e => (if m = 0 then .fin false 1 (-1) else sigmNum neg m e, 0)
  | _, .inf neg => (if neg then .fin false 0 0 else .inf false, 0)
  | fn, .fin neg m e =>
    (if m = 0 then .fin false 1 0
     else if fn = 2 && isInteger m e && decide ((bitLen m : Int) + e ≤ 11) then
       let n : Int := (roundAt 1 false m e 0).1
       .fin false 1 (if neg then -n else n)
     else expNum (fn == 2) neg m e, 0)

/-- The distance of two finite values is at most c × 2^q. -/
def within (a b : Num) (c : Nat) (q : Int) : Bool :=
  match Num.add 0 a b.negate with
  | .fin _ m e => !above m e c q
  | _ => false

/-- R128: the binary32 value delivered for an exact result that rounds to `c`: within the bound, the choice is free (log entry 9). The codes are
taken in the order of their values, so that vlog2 near 1 may deliver a value of the other sign. -/
def pickUlp (fn operand : Nat) (ftz : Bool) (x exact : Num) (c : Nat) : Nat :=
  let body : Nat := c % 2 ^ 31
  let neg := decide (2 ^ 31 ≤ c)
  let o : Int := (if neg then -(body : Int) else body) + Config.specialUlp fn operand ftz
  let k := o.natAbs
  let cand : Nat := (if o < 0 || (o == 0 && neg) then 2 ^ 31 else 0) + k
  let top := match exact with
    | .fin _ m e => (bitLen m : Int) - 1 + e
    | _ => 0
  let near := match x with
    | .fin false m e => !above 1 (-1) m e && !above m e 1 1
    | _ => false
  let (n, q) : Nat × Int :=
    if fn = 3 && near then (1, -22) else (if fn ≤ 1 then 1 else 2, max top (-126) - 23)
  if decide (k < 0x7F800000) && !(ftz && decide (0 < k) && decide (k < 2 ^ 23)) && within (fmtF.value cand) exact n q then cand else c

/-- R128, R129: a special function of a code of type h or f: the code and the flags. UF and OF are those of the correctly rounded result, also where
the value delivered lies on the other side of 2^-126: DESIGN CHOICE, log entry 67. -/
def special (fn : Nat) (isF ftz : Bool) (code : Nat) : Nat × Nat :=
  let f := if isF then fmtF else fmtH
  let x := f.valueFtz ftz code
  let (r, dz) := specialNum fn x
  let (c, fl) := round f 0 false ftz r
  let free := isF && fl / flNX % 2 == 1 && fl / flOF % 2 == 0
  (if free then pickUlp fn code ftz x r c else c, fl ||| dz)

end Sys2Proof.Machine
end

