-- ==== Sys2Proof/Machine/Vector.lean ====
section
/-!
DEFINITION. Vector instructions (06, R115 to R132). A vector result is written later (R79, R132).
-/

namespace Sys2Proof.Machine

open Sys2Proof

/-- R52: the lanes of `w` bits of a v register. -/
def vlanes (w : Nat) (x : V256) : List Nat := (List.range (256 / w)).map fun i => x.toNat / 2 ^ (w * i) % 2 ^ w

/-- A v register from its lanes. -/
def ofLanes (w : Nat) (l : List Nat) : V256 := .ofNat 256 (packed w l)

/-- R116: lane `i` is active. -/
def Vf.active (m : Vf) (g : Word) (i : Nat) : Bool := m.mask == 0 || bitw g i

/-- R116: an inactive lane of the destination keeps its old value. -/
def Vf.merges (m : Vf) : Bool := m.mask != 0 && !m.zm

/-- R60, R116: the sources of a vector instruction beyond a and b: the mask, a third operand, the old destination. -/
def Vf.extra (m : Vf) (third : Option Nat) (old : Option Nat) : List Src :=
  (if m.mask ≠ 0 then [⟨m.mask, false⟩] else []) ++ (third.toList ++ old.toList).map fun r => ⟨r, false⟩

/-- R116: the masked result from the lanes' results, and the flags of the active lanes. -/
def Vf.blend (m : Vf) (g : Word) (w : Nat) (old : V256) (rs : List (Nat × Nat)) : V256 × Nat :=
  let r := (rs.zip (vlanes w old)).zipIdx.map fun x =>
    if m.active g x.2 then x.1.1 else (if m.zm then 0 else x.1.2, 0)
  (ofLanes w (r.map (·.1)), r.foldl (fun f x => f ||| x.2) 0)

/-- R116: a vector instruction: the lanes of its sources `srcs`, of a third operand (`third`, a v register number) and of
the mask are read, and the result is written later. -/
def vecOp (d : BitVec 4) (srcs : List (BitVec 4 × Bool)) (third : Option (BitVec 4)) (w : Nat)
    (f : State → List Nat → List Nat → List Nat → List (Nat × Nat)) (s : State) : Res :=
  s.finish (do
    let m := modVf s.me.pair
    let old := if m.merges && third != some d then some (regV d) else none
    checkRegs s (srcs.map (fun x => ⟨regV x.1, x.2⟩) ++ m.extra (third.map regV) old) [regV d]
    let lane := fun (r : Option (BitVec 4)) => match r with
      | some r => vlanes w (s.v r.toNat)
      | none => []
    let g := s.g m.mask
    let rs := f s (lane (srcs[0]?.map (·.1))) (lane (srcs[1]?.map (·.1))) (lane third)
    let (v, fl) := m.blend g w (s.v d.toNat) rs
    .ok (((s.later (regV d) v false).raise s.cur.1 s.cur.2 fl).retire))

/-! ## Loads and stores -/

/-- R93: the offset of element `i` of width `e` of an access at `o`: a row segment, or a column strip. -/
def elemOff (col : Bool) (e o i : Nat) : Nat := if col then o + 256 * i else o + e * i

/-- R93, R94: the check of a vector access to an own buffer. -/
def vecBounds (buf : Nat) (col : Bool) (e : Nat) (o : Word) : Try Unit :=
  let n := o.toNat
  let aligned := if col then n % 256 % e == 0 && n / 256 % (32 / e) == 0 else n % 32 == 0
  need (decide (n < Config.bufSize buf) && aligned) (.trap .bufferBounds o)

/-- The offsets of the active bytes of a vector access, with their place in the register. -/
def activeBytes (m : Vf) (g : Word) (col : Bool) (e o : Nat) : List (Nat × Nat) :=
  ((List.range (32 / e)).filter (m.active g)).flatMap fun i =>
    (List.range e).map fun k => (elemOff col e o i + k, e * i + k)

/-- R120, R172: the offsets of a vector access, active or not. -/
def accessBytes (col : Bool) (e o : Nat) : List Nat := (List.range (32 / e)).flatMap fun i => span (elemOff col e o i) e

/-- R120: vld of an own buffer: one access of one square, whatever the mask. -/
def vldLocal (v : BitVec 4) (b : BitVec 6) (x : BitVec 2) (t : Bool) (col : Bool) (e off : Nat) (s : State) : Res :=
  s.finish (do
    let m := modVf s.me.pair
    checkRegs s (⟨regG b, t⟩ :: m.extra none (if m.merges then some (regV v) else none)) [regV v]
    let (base, s) := s.takeG (regG b)
    let o := base + .ofNat 64 (32 * off)
    vecBounds x.toNat col e o
    let ps := activeBytes m (s.g m.mask) col e o.toNat
    s.watch x.toNat true false (ps.map (·.1))
    let (bs, s) ← s.readOwnLanes x.toNat (accessBytes col e o.toNat) (ps.map (·.1))
    let got := (ps.map (·.2)).zip bs
    let old := s.v v.toNat
    let r := (List.range 32).map fun i => match got.find? fun y => y.1 == i with
      | some y => y.2
      | none => if m.zm then 0 else old.extractLsb' (8 * i) 8
    .ok (s.later (regV v) (.ofNat 256 (numLE r)) false).retire)

/-- R120: vst to an own buffer. -/
def vstLocal (v : BitVec 4) (b : BitVec 6) (x : BitVec 2) (t : Bool) (col : Bool) (e off : Nat) (s : State) : Res :=
  s.finish (do
    let m := modVf s.me.pair
    checkRegs s (⟨regG b, t⟩ :: m.extra none (some (regV v))) []
    let (base, s) := s.takeG (regG b)
    let o := base + .ofNat 64 (32 * off)
    vecBounds x.toNat col e o
    let ps := activeBytes m (s.g m.mask) col e o.toNat
    s.watch x.toNat false true (ps.map (·.1))
    s.ownTry
    let r := s.v v.toNat
    .ok (s.modBufs s.cur.1 fun q => q.write x.toNat (ps.map fun y => (y.1, r.extractLsb' (8 * y.2) 8))).retire)

/-- R121: the active bytes of a global row access. -/
def rowActive (m : Vf) (g : Word) : List Nat := (List.range 32).filter (m.active g)

/-- R121: vld.row of global memory: a long-latency producer. -/
def vldGlobal (v : BitVec 4) (b : BitVec 6) (t : Bool) (off : Nat) (s : State) : Res :=
  s.finish (do
    let m := modVf s.me.pair
    checkRegs s (⟨regG b, t⟩ :: m.extra none (if m.merges then some (regV v) else none)) [regV v]
    let (base, s) := s.takeG (regG b)
    let x := base + .ofNat 64 (32 * off)
    let act := rowActive m (s.g m.mask)
    let how := RspAct.vec v.toNat ((List.range 32).map fun i => decide (i ∈ act)) m.zm
    need (x.toNat % 32 == 0) (.trap .loadFault x)
    if isBaddr x then
      need (s.baddrOk x 32 32 false) (.trap .loadFault x)
      s.watch 3 true false (act.map (x.toNat + ·))
      .ok (s.issueScratch x false (.lanes act) how .loadFault)
    else
      let e ← s.globalTry x 32 true false .loadFault
      s.capLoad e x
      s.watch 3 true false (act.map (x.toNat + ·))
      .ok (s.issueTlb e x false (.lanes act) how false .loadFault))

/-- R121: vst.row to global memory: only the active bytes are written. -/
def vstGlobal (v : BitVec 4) (b : BitVec 6) (t : Bool) (off : Nat) (s : State) : Res :=
  s.finish (do
    let m := modVf s.me.pair
    checkRegs s (⟨regG b, t⟩ :: m.extra none (some (regV v))) []
    let (base, s) := s.takeG (regG b)
    let x := base + .ofNat 64 (32 * off)
    let act := rowActive m (s.g m.mask)
    let bs := act.map fun i => (i, (s.v v.toNat).extractLsb' (8 * i) 8)
    need (x.toNat % 32 == 0) (.trap .storeFault x)
    if isBaddr x then
      need (s.baddrOk x 32 32 true) (.trap .storeFault x)
      s.watch 3 false true (act.map (x.toNat + ·))
      .ok (s.issueScratch x true (.store bs) .ack .storeFault)
    else
      let e ← s.globalTry x 32 false true .storeFault
      s.capStore e x
      s.watch 3 false true (act.map (x.toNat + ·))
      .ok (s.issueTlb e x true (.store bs) .ack false .storeFault))

/-- R119, vld.row. -/
def execVldRow (v : BitVec 4) (b : BitVec 6) (x : BitVec 2) (t : Bool) (o : BitVec 11) (s : State) : Res :=
  if x = 3 then vldGlobal v b t o.toNat s else vldLocal v b x t false 1 o.toNat s
/-- R119, vld.col. -/
def execVldCol (v : BitVec 4) (b : BitVec 6) (x : BitVec 2) (t : Bool) (e : BitVec 2) (o : BitVec 9) (s : State) : Res :=
  vldLocal v b x t true (2 ^ e.toNat) o.toNat s
/-- R119, vst.row. -/
def execVstRow (v : BitVec 4) (b : BitVec 6) (x : BitVec 2) (t : Bool) (o : BitVec 11) (s : State) : Res :=
  if x = 3 then vstGlobal v b t o.toNat s else vstLocal v b x t false 1 o.toNat s
/-- R119, vst.col. -/
def execVstCol (v : BitVec 4) (b : BitVec 6) (x : BitVec 2) (t : Bool) (e : BitVec 2) (o : BitVec 9) (s : State) : Res :=
  vstLocal v b x t true (2 ^ e.toNat) o.toNat s

/-! ## Integer arithmetic (R122) -/

/-- R26: the width of an integer type. -/
def intW (y : BitVec 3) : Nat := 8 * 2 ^ (y.toNat % 4)

/-- R26: an integer type is signed. -/
def intS (y : BitVec 3) : Bool := decide (y.toNat < 4)

/-- R122: an integer operation per lane, on exact integers; `sat` says whether it takes the saturate option. -/
def vint (d : BitVec 4) (srcs : List (BitVec 4 × Bool)) (third : Option (BitVec 4)) (y : BitVec 3) (sat : Bool)
    (op : Int → Int → Int → Int) (s : State) : Res :=
  vecOp d srcs third (intW y) (fun s a b c =>
    let m := modVf s.me.pair
    let v := fun (l : List Nat) (i : Nat) => toInt (intW y) (intS y) (l[i]?.getD 0)
    (List.range (256 / intW y)).map fun i => fitInt (intW y) (sat && m.sat) (!intS y) (op (v a i) (v b i) (v c i))) s

/-- R122: an integer operation per lane on the codes. -/
def vcode (d : BitVec 4) (srcs : List (BitVec 4 × Bool)) (w : Nat) (op : Nat → Nat → Nat) (s : State) : Res :=
  vecOp d srcs none w (fun _ a b _ =>
    (List.range (256 / w)).map fun i => (op (a[i]?.getD 0) (b[i]?.getD 0) % 2 ^ w, 0)) s

/-- R122, vadd. -/
def execVaddInt (d a b : BitVec 4) (y : BitVec 3) (t u : Bool) (s : State) : Res :=
  vint d [(a, t), (b, u)] none y true (fun x z _ => x + z) s
/-- R122, vsub. -/
def execVsubInt (d a b : BitVec 4) (y : BitVec 3) (t u : Bool) (s : State) : Res :=
  vint d [(a, t), (b, u)] none y true (fun x z _ => x - z) s
/-- R122, vmul: the low half. -/
def execVmulInt (d a b : BitVec 4) (y : BitVec 3) (t u : Bool) (s : State) : Res :=
  vint d [(a, t), (b, u)] none y false (fun x z _ => x * z) s
/-- R122, vmulh: the high half. -/
def execVmulh (d a b : BitVec 4) (y : BitVec 3) (t u : Bool) (s : State) : Res :=
  vint d [(a, t), (b, u)] none y false (fun x z _ => x * z / 2 ^ intW y) s
/-- R122, vmin. -/
def execVminInt (d a b : BitVec 4) (y : BitVec 3) (t u : Bool) (s : State) : Res :=
  vint d [(a, t), (b, u)] none y false (fun x z _ => min x z) s
/-- R122, vmax. -/
def execVmaxInt (d a b : BitVec 4) (y : BitVec 3) (t u : Bool) (s : State) : Res :=
  vint d [(a, t), (b, u)] none y false (fun x z _ => max x z) s
/-- R122, vabs. -/
def execVabsInt (d a : BitVec 4) (y : BitVec 3) (t : Bool) (s : State) : Res :=
  vint d [(a, t)] none y true (fun x _ _ => x.natAbs) s
/-- R122, vneg. -/
def execVnegInt (d a : BitVec 4) (y : BitVec 3) (t : Bool) (s : State) : Res :=
  vint d [(a, t)] none y true (fun x _ _ => -x) s
/-- R122, vavg. -/
def execVavg (d a b : BitVec 4) (y : BitVec 3) (t u : Bool) (s : State) : Res :=
  vint d [(a, t), (b, u)] none y false (fun x z _ => (x + z + 1) / 2) s
/-- R122, vabsd: an unsigned value of the same width. -/
def execVabsd (d a b : BitVec 4) (y : BitVec 3) (t u : Bool) (s : State) : Res :=
  vint d [(a, t), (b, u)] none y false (fun x z _ => (x - z).natAbs) s
/-- R122, vmacc: the old destination is a third source. -/
def execVmacc (d a b : BitVec 4) (y : BitVec 3) (t u : Bool) (s : State) : Res :=
  vint d [(a, t), (b, u)] (some d) y true (fun x z c => c + x * z) s
/-- R122, vdiv (R28). -/
def execVdivInt (d a b : BitVec 4) (y : BitVec 3) (t u : Bool) (s : State) : Res :=
  vcode d [(a, t), (b, u)] (intW y) (fun x z => (divCode (intW y) (intS y) x z).1) s
/-- R122, vrem (R28). -/
def execVrem (d a b : BitVec 4) (y : BitVec 3) (t u : Bool) (s : State) : Res :=
  vcode d [(a, t), (b, u)] (intW y) (fun x z => (divCode (intW y) (intS y) x z).2) s
/-- R122, vclz (R29). -/
def execVclz (d a : BitVec 4) (y : BitVec 3) (t : Bool) (s : State) : Res :=
  vcode d [(a, t)] (intW y) (fun x _ => clz (intW y) x) s
/-- R122, vpopc (R29). -/
def execVpopc (d a : BitVec 4) (y : BitVec 3) (t : Bool) (s : State) : Res :=
  vcode d [(a, t)] (intW y) (fun x _ => popc (intW y) x) s

/-! ## Float arithmetic (R123) -/

/-- The element width of a type code. -/
def tyW (y : BitVec 4) : Nat := (fmtOf y.toNat 4 false).width

/-- R123: a float operation per lane: the exact result and DZ of the operands' values in the mode, rounded once. -/
def vfloat (d : BitVec 4) (srcs : List (BitVec 4 × Bool)) (third : Option (BitVec 4)) (y : BitVec 4)
    (op : Nat → Num → Num → Num → Num × Nat) (s : State) : Res :=
  vecOp d srcs third (tyW y) (fun s a b c =>
    let m := modVf s.me.pair
    let k := s.me.csr
    let f := fmtIn m k.vfmt y.toNat
    let ftz := ftzOf k.fpcsr
    let rm := rmOf m k.fpcsr
    let v := fun (l : List Nat) (i : Nat) => f.valueFtz ftz (l[i]?.getD 0)
    (List.range (256 / tyW y)).map fun i =>
      let (x, dz) := op rm (v a i) (v b i) (v c i)
      let (z, fl) := round f rm m.sat ftz x
      (z, fl ||| dz)) s

/-- R123: the addend of the vfma family: op4, or the old destination. -/
def fmaThird (d : BitVec 4) (s : State) : BitVec 4 :=
  let o := (modVf s.me.pair).op4
  if o = 0 then d else .ofNat 4 o

/-- The value without its sign. -/
def Num.abs : Num → Num
  | .nan s => .nan s
  | .inf _ => .inf false
  | .fin _ m e => .fin false m e

/-- R123, vadd. -/
def execVaddFloat (d a b : BitVec 4) (y : BitVec 4) (t u : Bool) (s : State) : Res :=
  vfloat d [(a, t), (b, u)] none y (fun rm x z _ => (Num.add rm x z, 0)) s
/-- R123, vsub. -/
def execVsubFloat (d a b : BitVec 4) (y : BitVec 4) (t u : Bool) (s : State) : Res :=
  vfloat d [(a, t), (b, u)] none y (fun rm x z _ => (Num.add rm x z.negate, 0)) s
/-- R123, vmul. -/
def execVmulFloat (d a b : BitVec 4) (y : BitVec 4) (t u : Bool) (s : State) : Res :=
  vfloat d [(a, t), (b, u)] none y (fun _ x z _ => (x.mul z, 0)) s
/-- R123, vmulz. -/
def execVmulz (d a b : BitVec 4) (y : BitVec 4) (t u : Bool) (s : State) : Res :=
  vfloat d [(a, t), (b, u)] none y (fun _ x z _ => (x.mulz z, 0)) s
/-- R123, vdiv. -/
def execVdivFloat (d a b : BitVec 4) (y : BitVec 4) (t u : Bool) (s : State) : Res :=
  vfloat d [(a, t), (b, u)] none y (fun _ x z _ => x.div z) s
/-- R123, vmin. -/
def execVminFloat (d a b : BitVec 4) (y : BitVec 4) (t u : Bool) (s : State) : Res :=
  vfloat d [(a, t), (b, u)] none y (fun _ x z _ => (x.minOf z, 0)) s
/-- R123, vmax. -/
def execVmaxFloat (d a b : BitVec 4) (y : BitVec 4) (t u : Bool) (s : State) : Res :=
  vfloat d [(a, t), (b, u)] none y (fun _ x z _ => (x.maxOf z, 0)) s
/-- R123, vabs. -/
def execVabsFloat (d a : BitVec 4) (y : BitVec 4) (t : Bool) (s : State) : Res :=
  vfloat d [(a, t)] none y (fun _ x _ _ => (x.abs, 0)) s
/-- R123, vneg. -/
def execVnegFloat (d a : BitVec 4) (y : BitVec 4) (t : Bool) (s : State) : Res :=
  vfloat d [(a, t)] none y (fun _ x _ _ => (x.negate, 0)) s
/-- R123, vfma: a × b + c. -/
def execVfma (d a b : BitVec 4) (y : BitVec 4) (t u : Bool) (s : State) : Res :=
  vfloat d [(a, t), (b, u)] (some (fmaThird d s)) y (fun rm x z c => (Num.fma rm x z c, 0)) s
/-- R123, vfms: a × b - c. -/
def execVfms (d a b : BitVec 4) (y : BitVec 4) (t u : Bool) (s : State) : Res :=
  vfloat d [(a, t), (b, u)] (some (fmaThird d s)) y (fun rm x z c => (Num.fma rm x z c.negate, 0)) s
/-- R123, vfnma: -(a × b) + c. -/
def execVfnma (d a b : BitVec 4) (y : BitVec 4) (t u : Bool) (s : State) : Res :=
  vfloat d [(a, t), (b, u)] (some (fmaThird d s)) y (fun rm x z c => (Num.fma rm x.negate z c, 0)) s
/-- R123, vsqrt. -/
def execVsqrt (d a : BitVec 4) (y : BitVec 4) (t : Bool) (s : State) : Res :=
  vfloat d [(a, t)] none y (fun _ x _ _ => (x.sqrt, 0)) s
/-- R123, vfmaz: (a ×z b) + c. -/
def execVfmaz (d a b : BitVec 4) (y : BitVec 4) (t u : Bool) (s : State) : Res :=
  vfloat d [(a, t), (b, u)] (some (fmaThird d s)) y (fun rm x z c => (Num.add rm (x.mulz z) c, 0)) s

/-! ## Compare, logic and shift (R124) -/

/-- R124, R33: a comparison per lane: all ones where it holds. `quiet` comparisons set NV on a signalling NaN only. -/
def vcmp (d : BitVec 4) (srcs : List (BitVec 4 × Bool)) (y : BitVec 4) (quiet : Bool) (op : Num → Num → Bool) (s : State) : Res :=
  vecOp d srcs none (tyW y) (fun s a b _ =>
    let m := modVf s.me.pair
    let k := s.me.csr
    let f := fmtIn m k.vfmt y.toNat
    let v := fun (l : List Nat) (i : Nat) => f.valueFtz (ftzOf k.fpcsr) (l[i]?.getD 0)
    (List.range (256 / tyW y)).map fun i =>
      let x := v a i
      let z := v b i
      (if op x z then 2 ^ tyW y - 1 else 0, if x.isSig || z.isSig || (!quiet && (x.isNan || z.isNan)) then flNV else 0)) s

/-- R124, vceq. -/
def execVceq (d a b : BitVec 4) (y : BitVec 4) (t u : Bool) (s : State) : Res :=
  vcmp d [(a, t), (b, u)] y true (fun x z => x.eqv z) s
/-- R124, vcne: true of a NaN. -/
def execVcne (d a b : BitVec 4) (y : BitVec 4) (t u : Bool) (s : State) : Res :=
  vcmp d [(a, t), (b, u)] y true (fun x z => !x.eqv z) s
/-- R124, vclt. -/
def execVclt (d a b : BitVec 4) (y : BitVec 4) (t u : Bool) (s : State) : Res :=
  vcmp d [(a, t), (b, u)] y false (fun x z => !x.isNan && !z.isNan && x.lt z) s
/-- R124, vcle. -/
def execVcle (d a b : BitVec 4) (y : BitVec 4) (t u : Bool) (s : State) : Res :=
  vcmp d [(a, t), (b, u)] y false (fun x z => !x.isNan && !z.isNan && !z.lt x) s
/-- R124, vcun. -/
def execVcun (d a b : BitVec 4) (y : BitVec 4) (t u : Bool) (s : State) : Res :=
  vcmp d [(a, t), (b, u)] y true (fun x z => x.isNan || z.isNan) s
/-- R124, vand. -/
def execVand (d a b : BitVec 4) (y : BitVec 3) (t u : Bool) (s : State) : Res :=
  vcode d [(a, t), (b, u)] (intW y) (fun x z => x &&& z) s
/-- R124, vor. -/
def execVor (d a b : BitVec 4) (y : BitVec 3) (t u : Bool) (s : State) : Res :=
  vcode d [(a, t), (b, u)] (intW y) (fun x z => x ||| z) s
/-- R124, vxor. -/
def execVxor (d a b : BitVec 4) (y : BitVec 3) (t u : Bool) (s : State) : Res :=
  vcode d [(a, t), (b, u)] (intW y) (fun x z => x ^^^ z) s
/-- R124, vandn. -/
def execVandn (d a b : BitVec 4) (y : BitVec 3) (t u : Bool) (s : State) : Res :=
  vcode d [(a, t), (b, u)] (intW y) (fun x z => x &&& (2 ^ intW y - 1 - z)) s
/-- R124, vnot. -/
def execVnot (d a : BitVec 4) (y : BitVec 3) (t : Bool) (s : State) : Res :=
  vcode d [(a, t)] (intW y) (fun x _ => 2 ^ intW y - 1 - x) s
/-- R124, vsll: the count modulo the width. -/
def execVsll (d a b : BitVec 4) (y : BitVec 3) (t u : Bool) (s : State) : Res :=
  vcode d [(a, t), (b, u)] (intW y) (fun x z => x * 2 ^ (z % intW y)) s
/-- R124, vsrl: the count modulo the width. -/
def execVsrl (d a b : BitVec 4) (y : BitVec 3) (t u : Bool) (s : State) : Res :=
  vcode d [(a, t), (b, u)] (intW y) (fun x z => x / 2 ^ (z % intW y)) s
/-- R124, vsra: the count modulo the width. -/
def execVsra (d a b : BitVec 4) (y : BitVec 3) (t u : Bool) (s : State) : Res :=
  vcode d [(a, t), (b, u)] (intW y) (fun x z => ((toInt (intW y) true x / 2 ^ (z % intW y)) % 2 ^ intW y).toNat) s

/-! ## Conversions (R125) -/

/-- R125: one lane converted. -/
def convert (fs fd : Fmt) (rm : Nat) (sat ftz : Bool) (c : Nat) : Nat × Nat :=
  match fs, fd with
  | .int ws ss, .int wd sd => fitInt wd sat (!sd) (toInt ws ss c)
  | _, _ => round fd rm sat ftz (fs.valueFtz ftz c)

/-- R125, vcvt. -/
def execVcvt (d a : BitVec 4) (p : BitVec 1) (y : BitVec 4) (t : Bool) (q : BitVec 2) (o : BitVec 4) (s : State) : Res :=
  s.finish (do
    let m := modVf s.me.pair
    let k := s.me.csr
    let part := p.toNat * 4 + q.toNat
    let ws := tyW o
    let wd := tyW y
    let narrow := decide (wd < ws)
    checkRegs s (⟨regV a, t⟩ :: m.extra none (if m.merges || narrow then some (regV d) else none)) [regV d]
    let fs := fmtIn m k.vfmt o.toNat
    let fd := fmtIn m k.vfmt y.toNat
    let src := vlanes ws (s.v a.toNat)
    let old := vlanes wd (s.v d.toNat)
    let conv := fun i => convert fs fd (rmOf m k.fpcsr) m.sat (ftzOf k.fpcsr) (src[i]?.getD 0)
    let g := s.g m.mask
    let n := 256 / ws
    let rs := old.zipIdx.map fun x =>
      if narrow && x.2 / n != part then (x.1, 0)
      else if !m.active g x.2 then (if m.zm then 0 else x.1, 0)
      else conv (if narrow then x.2 % n else part * (256 / wd) + x.2)
    let s := s.later (regV d) (ofLanes wd (rs.map (·.1))) false
    .ok (s.raise s.cur.1 s.cur.2 (rs.foldl (fun f r => f ||| r.2) 0)).retire)

/-! ## Permutes and transfers (R126, R127) -/

/-- R126: a permutation: lane `i` of the result from the lanes of a and b, L lanes in all. -/
def vpermOp (d : BitVec 4) (srcs : List (BitVec 4 × Bool)) (w : Nat) (op : Nat → (Nat → Nat) → (Nat → Nat) → Nat → Nat) (s : State) : Res :=
  vecOp d srcs none w (fun _ a b _ =>
    (List.range (256 / w)).map fun i => (op (256 / w) (fun i => a[i]?.getD 0) (fun i => b[i]?.getD 0) i, 0)) s

/-- R126, vperm. -/
def execVperm (d a b : BitVec 4) (y : BitVec 4) (t u : Bool) (s : State) : Res :=
  vpermOp d [(a, t), (b, u)] (tyW y) (fun n x z i => x (z i % n)) s
/-- R126, vzipl. -/
def execVzipl (d a b : BitVec 4) (y : BitVec 4) (t u : Bool) (s : State) : Res :=
  vpermOp d [(a, t), (b, u)] (tyW y) (fun _ x z i => if i % 2 = 0 then x (i / 2) else z (i / 2)) s
/-- R126, vziph. -/
def execVziph (d a b : BitVec 4) (y : BitVec 4) (t u : Bool) (s : State) : Res :=
  vpermOp d [(a, t), (b, u)] (tyW y) (fun n x z i => if i % 2 = 0 then x (n / 2 + i / 2) else z (n / 2 + i / 2)) s
/-- R126, vuzpe. -/
def execVuzpe (d a b : BitVec 4) (y : BitVec 4) (t u : Bool) (s : State) : Res :=
  vpermOp d [(a, t), (b, u)] (tyW y) (fun n x z i => if i < n / 2 then x (2 * i) else z (2 * i - n)) s
/-- R126, vuzpo. -/
def execVuzpo (d a b : BitVec 4) (y : BitVec 4) (t u : Bool) (s : State) : Res :=
  vpermOp d [(a, t), (b, u)] (tyW y) (fun n x z i => if i < n / 2 then x (2 * i + 1) else z (2 * i - n + 1)) s
/-- R126, vrev. -/
def execVrev (d a : BitVec 4) (y : BitVec 4) (t : Bool) (s : State) : Res :=
  vpermOp d [(a, t)] (tyW y) (fun n x _ i => x (n - 1 - i)) s
/-- R126, vmov. -/
def execVmov (d a : BitVec 4) (y : BitVec 4) (t : Bool) (s : State) : Res :=
  vpermOp d [(a, t)] (tyW y) (fun _ x _ i => x i) s
/-- R126, vidx. -/
def execVidx (d : BitVec 4) (y : BitVec 3) (s : State) : Res := vpermOp d [] (intW y) (fun _ _ _ i => i) s

/-- R127, vbcast. -/
def execVbcast (g : BitVec 6) (v : BitVec 4) (y : BitVec 4) (t : Bool) (s : State) : Res :=
  s.finish (do
    let m := modVf s.me.pair
    checkRegs s (⟨regG g, t⟩ :: m.extra none (if m.merges then some (regV v) else none)) [regV v]
    let (x, s) := s.takeG (regG g)
    let w := tyW y
    let (r, _) := m.blend (s.g m.mask) w (s.v v.toNat) (List.replicate (256 / w) (x.toNat % 2 ^ w, 0))
    .ok (s.later (regV v) r false).retire)

/-- R127: a transfer from a v register to a g register. -/
def vtransfer (g : BitVec 6) (v : BitVec 4) (t : Bool) (f : V256 → Word) (s : State) : Res :=
  s.finish (do
    checkRegs s [⟨regV v, t⟩] [regG g]
    .ok (s.setG (regG g) (f (s.v v.toNat))).retire)

/-- R127, vextr: lane 0, sign-extended for i types. -/
def execVextr (g : BitVec 6) (v : BitVec 4) (y : BitVec 4) (t : Bool) (s : State) : Res :=
  vtransfer g v t (fun x => if y.toNat < 4 then sext (tyW y) (x.toNat % 2 ^ tyW y) else .ofNat 64 (x.toNat % 2 ^ tyW y)) s

/-- R127, vmskb: the top bits of the lanes. -/
def execVmskb (g : BitVec 6) (v : BitVec 4) (y : BitVec 4) (t : Bool) (s : State) : Res :=
  vtransfer g v t (fun x => .ofNat 64 (packed 1 ((vlanes (tyW y) x).map (· / 2 ^ (tyW y - 1))))) s

/-! ## Special functions and random numbers (R128 to R131) -/

/-- R128: a special function per lane, type 8 (h) or 9 (f). -/
def vspecial (d a : BitVec 4) (y : BitVec 1) (t : Bool) (fn : Nat) (s : State) : Res :=
  vecOp d [(a, t)] none (if y = 1 then 32 else 16) (fun s a _ _ =>
    a.map fun c => special fn (y == 1) (ftzOf s.me.csr.fpcsr) c) s

/-- R128, vrcp. -/
def execVrcp (d a : BitVec 4) (y : BitVec 1) (t : Bool) (s : State) : Res := vspecial d a y t 0 s
/-- R128, vrsqrt. -/
def execVrsqrt (d a : BitVec 4) (y : BitVec 1) (t : Bool) (s : State) : Res := vspecial d a y t 1 s
/-- R128, vexp2. -/
def execVexp2 (d a : BitVec 4) (y : BitVec 1) (t : Bool) (s : State) : Res := vspecial d a y t 2 s
/-- R128, vlog2. -/
def execVlog2 (d a : BitVec 4) (y : BitVec 1) (t : Bool) (s : State) : Res := vspecial d a y t 3 s
/-- R128, vexp. -/
def execVexp (d a : BitVec 4) (y : BitVec 1) (t : Bool) (s : State) : Res := vspecial d a y t 4 s
/-- R128, vtanh. -/
def execVtanh (d a : BitVec 4) (y : BitVec 1) (t : Bool) (s : State) : Res := vspecial d a y t 5 s
/-- R128, vsigm. -/
def execVsigm (d a : BitVec 4) (y : BitVec 1) (t : Bool) (s : State) : Res := vspecial d a y t 6 s

/-- R131: the four words of a block under way. -/
structure Rand4 where
  x0 : Word
  x1 : Word
  x2 : Word
  x3 : Word

/-- R131: one round. -/
def randRound (x : Rand4) (r : Nat × Nat) : Rand4 :=
  let x0 := x.x0 + x.x1
  let x1 := rotl x.x1 r.1 ^^^ x0
  let x2 := x.x2 + x.x3
  let x3 := rotl x.x3 r.2 ^^^ x2
  ⟨x0, x3, x2, x1⟩

/-- R131: RandBlock. -/
def randBlock (lo hi ctr : Word) : V256 :=
  let i : Rand4 := ⟨lo, hi, ctr, 1⟩
  let x := [(16, 40), (24, 8), (48, 32), (56, 12), (20, 44), (28, 4), (52, 36), (60, 16)].foldl randRound i
  .ofNat 256 (packed 64 [(x.x0 + i.x0).toNat, (x.x1 + i.x1).toNat, (x.x2 + i.x2).toNat, (x.x3 + i.x3).toNat])

/-- R131: RNGCTR after a block: CTR counts modulo 2^48, and W is set when it returns to 0. -/
def rngNext (c : Word) : Word :=
  let n := (fldw c 0 48 + 1) % 2 ^ 48
  .ofNat 64 (if n = 0 then 2 ^ 48 else n)

/-- R131, vrand. -/
def execVrand (d : BitVec 4) (y : BitVec 2) (s : State) : Res :=
  s.finish (do
    let m := modVf s.me.pair
    checkRegs s (m.extra none (if m.merges then some (regV d) else none)) [regV d]
    let k := s.me.csr
    need (!bitw k.rngctr 48) (.trap .rngWrap 0)
    let w := packW y
    let blk := randBlock k.rngkeylo k.rngkeyhi (.ofNat 64 (fldw k.rngctr 0 48))
    let (r, _) := m.blend (s.g m.mask) w (s.v d.toNat) ((vlanes w blk).map fun x => (x, 0))
    let s := s.modMe fun x => { x with csr := { x.csr with rngctr := rngNext x.csr.rngctr } }
    .ok (s.later (regV d) r false).retire)

end Sys2Proof.Machine
end

