-- ==== Sys2Proof/Machine/Matrix.lean ====
section
/-!
DEFINITION. The matrix engine (07, R133 to R159): tiles and groups, descriptors, sharing the engine, the multiplies, and
the control instructions.
-/

namespace Sys2Proof.Machine

open Sys2Proof

/-! ## Groups (R133, R134) -/

/-- R133: the rows, columns and tiles of a group. -/
def Group.r (g : Group) : Nat := 4 * (g.rows + 1)
/-- R133 -/
def Group.n (g : Group) : Nat := 8 * (g.cols + 1)
/-- R133 -/
def Group.tiles (g : Group) : Nat := (g.rows + 1) * (g.cols + 1)

/-- R133: a tile is the base of its group. -/
def Plot.isBase (x : Plot) (t : Nat) : Bool := x.base t == t

/-- Changes the group of a base tile. -/
def Plot.modGroup (x : Plot) (b : Nat) (f : Group → Group) : Plot :=
  { x with groups := Sparse.set Group.reset x.groups b (f (x.group b)) }

/-- R133: the tile of a group's element (i, j), and its C offset. -/
def Group.elem (g : Group) (b i j : Nat) : Nat × Nat :=
  let t := b + i / 4 * (g.cols + 1) + j / 8
  (t, 128 * t + 32 * (i % 4) + 4 * (j % 8))

/-- +0 in every element of some tiles, and their words full (R154). -/
def State.zeroTiles (s : State) (ts : List Nat) : State :=
  s.modBufs s.cur.1 fun b => ts.foldl (fun b t => b.writeEngine 2 ((List.range 128).map fun k => (128 * t + k, 0))) b

/-- The tiles of the group at a base. -/
def Plot.groupTiles (x : Plot) (b : Nat) : List Nat := span b (x.group b).tiles

/-- R154: zeroes a group and marks it not live. -/
def State.clearGroup (s : State) (b : Nat) : State :=
  (s.zeroTiles (s.myPlot.groupTiles b)).modPlot s.cur.1 fun x => x.modGroup b fun g => { g with live := false }

/-! ## Descriptors (R135 to R137) -/

/-- R135: an operand descriptor; `g` is its first register. -/
structure Desc where
  g : Nat
  addr : Word
  fmt : Word
  deriving DecidableEq, Repr

/-- R135: fields of the format word. -/
def Desc.ty (d : Desc) : Nat := fldw d.fmt 0 4
/-- R135 -/
def Desc.p (d : Desc) : Nat := fldw d.fmt 4 3
/-- R135 -/
def Desc.x (d : Desc) : Bool := bitw d.fmt 7
/-- R135 -/
def Desc.space (d : Desc) : Nat := fldw d.fmt 8 2
/-- R135 -/
def Desc.col (d : Desc) : Bool := bitw d.fmt 10
/-- R135 -/
def Desc.stride (d : Desc) : Nat := fldw d.fmt 16 32
/-- R135 -/
def Desc.metaOff (d : Desc) : Nat := fldw d.fmt 48 16

/-- R135: the element format. -/
def Desc.f (d : Desc) (vfmt : Word) : Fmt :=
  if d.p ≠ 0 then fmtOf d.ty d.p d.x else fmtOf d.ty (fldw vfmt 0 3) (bitw vfmt 3)

/-- The bytes of an element. -/
def Desc.e (d : Desc) : Nat := (fmtOf d.ty 4 false).width / 8

/-- R136: the address of element M[r][c]. -/
def Desc.at_ (d : Desc) (r c : Nat) : Nat :=
  d.addr.toNat + (if d.col then c * d.stride + r * d.e else r * d.stride + c * d.e)

/-- R158: TILE-SHAPE with a register and a reason. -/
def shape {α : Type} (reg reason : Nat) : Try α := signal .tileShape (.ofNat 64 (reg * 256 + reason))

/-- R158: goes on only if a condition holds. -/
def needShape (b : Bool) (reg reason : Nat) : Try Unit := if b then .ok () else shape reg reason

/-- R145, R137: the checks of a descriptor in its role. -/
def Desc.check (d : Desc) (spaces types : List Nat) (meta_ : Bool) : Try Unit := do
  needShape (fldw d.fmt 11 5 == 0 && (meta_ || d.metaOff == 0) && !(d.x && d.p == 0)) d.g 3
  needShape (if d.space = 3 then fldw d.addr 56 8 == 0 else if d.space = 2 then true else fldw d.addr 16 48 == 0) d.g 3
  needShape (decide (d.space ∈ spaces)) d.g 2
  needShape (decide (d.ty ∈ types)) d.g 1

/-- R145: a buffer base and stride are multiples of the element size. -/
def Desc.aligned (d : Desc) : Try Unit :=
  needShape (d.space == 3 || (d.addr.toNat % d.e == 0 && d.stride % d.e == 0)) d.g 4

/-- R145: the elements up to M[r][c] lie in the descriptor's buffer. -/
def Desc.bounds (d : Desc) (r c : Nat) : Try Unit :=
  if d.space = 3 then .ok ()
  else need (decide (d.at_ r c < Config.bufSize d.space)) (.trap .bufferBounds (.ofNat 64 (d.at_ r c)))

/-- The descriptor in a register pair. -/
def State.desc (s : State) (g : Nat) : Desc := ⟨g, s.g g, s.g (g + 1)⟩

/-- The registers of a descriptor pair, which blocks and never traps (R138). -/
def pairSrc (g : Nat) : List Src := [⟨g, false⟩, ⟨g + 1, false⟩]

/-- R334, R337: the elements of `e` bytes at the offsets `as` of a buffer, by accesses that touch those at `all`. -/
def State.readElemsOf (s : State) (buf e : Nat) (all as : List Nat) : Try (List Nat × State) :=
  let bytes := fun (as : List Nat) => as.flatMap fun a => span a e
  match s.readLanes s.cur.1 buf (bytes all) (bytes as) with
  | .ok (bs, s) => .ok ((List.range as.length).map fun i => numLE ((bs.drop (e * i)).take e), s)
  | .error o => signal .eccUncorrected (.ofNat 64 (buf * 2 ^ 16 + o))

/-- The bytes of an element at each of some addresses, from a buffer: through the arbiter, corrected (R334, R337). -/
def State.readElems (s : State) (buf e : Nat) (as : List Nat) : Try (List Nat × State) := s.readElemsOf buf e as as

/-- R93: the elements of the column strip of width `e` that holds the one at an offset. -/
def stripElems (e a : Nat) : List Nat := (span (a / 256 - a / 256 % (32 / e)) (32 / e)).map fun r => 256 * r + a % 256

/-- R136: elements of an operand; one of column orientation is fetched with its column strip. -/
def State.readFetched (s : State) (d : Desc) (as : List Nat) : Try (List Nat × State) :=
  s.readElemsOf d.space d.e (if d.col then ((as.map (stripElems d.e)).eraseDups.flatten) else as) as

/-- Writes elements of `e` bytes as the engine does (R97). -/
def State.writeElems (s : State) (buf e : Nat) (xs : List (Nat × Nat)) : State :=
  s.modBufs s.cur.1 fun b => b.writeEngine buf (xs.flatMap fun x => placed x.1 (bytesLE e x.2))

/-! ## Sharing the engine (R138 to R140) -/

/-- R142: MRP from its fields. -/
def mrpWord (pcw end_ ti ks k : Nat) : Word :=
  .ofNat 64 (2 ^ 63 + pcw % 2048 * 2 ^ 48 + end_ % 32 * 2 ^ 40 + ti % 16 * 2 ^ 32 + ks % 2 ^ 16 * 2 ^ 16 + k % 2 ^ 16)

/-- R140: a context's matrix instruction names a group that another task's multiply holds. -/
def Plot.onHeld (x : Plot) (c : Nat) : Bool := (x.ctx c).mul.names.any fun t => match (x.group (x.base t)).held with
  | some k => k != c
  | none => false

/-- R138, R140: a context that may be granted the engine: it waits for nothing else. -/
def Plot.canMul (x : Plot) (c : Nat) : Bool :=
  (x.ctx c).live && !(x.ctx c).halted && decide (x.sched.spilling ≠ some c) && !x.onHeld c && decide ((x.ctx c).block.map (·.why) = some .engine)

/-- R138: of the waiting contexts, with one that attempts now, the one of greatest TASKPRI, the first in order among equals. -/
def Plot.nextMul (x : Plot) (self : Option Nat) : Option Nat :=
  (x.engine.waiting.filter fun c => decide (c < 4) && (some c == self || x.canMul c)).foldl (fun b c => match b with
    | none => some c
    | some k => if (x.ctx k).csr.taskpri < (x.ctx c).csr.taskpri then some c else some k) none

/-- R139: the multiply that has the engine is to yield it: a context of greater TASKPRI waits for it, or its context has been chosen for spill, or
is to halt. -/
def Plot.mustYield (x : Plot) (c : Nat) : Bool :=
  (x.engine.waiting.any fun k => decide (k < 4) && x.canMul k && decide ((x.ctx c).csr.taskpri < (x.ctx k).csr.taskpri)) ||
    decide (x.sched.spilling = some c) || (x.ctx c).haltReq

/-- R140: the current context leaves the engine: it neither runs, waits nor holds a group. The flags of a multiply are set and counted (R45, R51;
log entry 65). -/
def State.release (s : State) : State :=
  let (p, c) := s.cur
  let s := s.raise p c s.me.mul.flags
  (s.modPlot p (·.leaveEngine c)).modMe Ctx.dropMul

/-- R139, R146: the multiply of a context yields the engine at a k-step boundary: MRP records the point, its group is held, and it waits ahead of
its equals; of two such, the one that yielded last goes first (log entry 71). A port word that it took goes back, for the re-issue takes it
again (log entry 81). A context that is to halt halts. -/
def Plot.yieldMul (x : Plot) (c : Nat) : Plot :=
  let y := x.ctx c
  match y.mul.point with
  | some q =>
    if x.engine.running ≠ some c || !q.stepped then x
    else
      let x := (x.unpop y.mul.popped).setCtx c { y.dropMul with
        mul := { MulWork.none with flags := y.mul.flags, names := y.mul.names }
        block := y.block.map fun b => { b with why := .engine }
        quantum := none
        csr := { y.csr with mrp := mrpWord q.pcw q.end_ q.ti q.ks q.kb }
        halted := y.halted || y.haltReq, haltReq := false }
      let x := { x with engine := { running := none, waiting := c :: x.engine.waiting.filter (· != c) } }
      x.modGroup q.base fun g => { g with held := some c }
  | none => x

/-- R138: the current context has attempted a matrix instruction, which names groups. -/
def State.joinMul (s : State) (names : List Nat) : State :=
  let c := s.cur.2
  (s.modPlot s.cur.1 fun x =>
    let ws := x.engine.waiting
    { x with engine := { x.engine with waiting := if c ∈ ws || x.engine.running = some c then ws else ws ++ [c] } }).modMe fun y =>
      { y with mul := { y.mul with names := names } }

/-- R138 to R140: a matrix instruction: the checks of its sources, the waits for a group that another context holds and for the context's own
writes through the remote port (R113), the wait for the engine, and then its effect. -/
def matrixOp (srcs : List Src) (dsts : List Nat) (names : State → List Nat) (body : State → Try State) (s : State) : Res :=
  match checkRegs s srcs dsts with
  | .error (.block w) => .next ((s.joinMul []).blocked w)
  | .error e => s.finish (.error e)
  | .ok () =>
    let c := s.cur.2
    let ns := names s
    let s := s.joinMul ns
    match ns.find? fun b => match (s.myPlot.group b).held with
      | some k => k != c
      | none => false with
    | some b => .next (s.blocked (.heldGroup b))
    | none =>
      if s.me.ownStore then .next (s.blocked .ownStore) else
      let mine := match s.myPlot.engine.running with
        | some k => k == c
        | none => s.myPlot.nextMul (some c) == some c
      if !mine then .next (s.blocked .engine)
      else match body s with
        | .ok t => .next t
        | .error (.block w) => .next (s.blocked w)
        | .error (.trap k v) => .next (s.trap k v)

/-! ## Multiplies (R144 to R151) -/

/-- A multiply: what its operands say. -/
structure Mul where
  var : Nat
  a : Desc
  b : Desc
  ctl : Word
  base : Nat
  g : Group
  vfmt : Word
  deriving DecidableEq, Repr

/-- R144: K, row0, and the guard. -/
def Mul.k (m : Mul) : Nat := fldw m.ctl 0 16
/-- R144 -/
def Mul.row0 (m : Mul) : Nat := fldw m.ctl 16 8
/-- R144 -/
def Mul.gbuf (m : Mul) : Nat := fldw m.ctl 48 2
/-- R144 -/
def Mul.goff (m : Mul) : Nat := fldw m.ctl 32 16

/-- R137: the class of an operand type: 0 f8, 1 h, 2 f, 3 integer. -/
def mulClass (ty : Nat) : Nat := if ty = 11 || ty = 12 then 0 else if ty = 8 then 1 else if ty = 9 then 2 else 3

/-- R145: the TILE-SHAPE checks of a multiply, in order. -/
def Mul.shapes (m : Mul) (gk : Nat) (isBase : Bool) : Try Unit := do
  needShape isBase 0 5
  needShape (fldw m.ctl 50 14 == 0 && fldw m.ctl 24 8 == 0 && (m.var == 1 || fldw m.ctl 32 18 == 0)) gk 3
  m.a.check [0, 3] [0, 4, 8, 9, 11, 12] false
  m.b.check (if m.var = 2 then [1] else [1, 3]) [0, 4, 8, 9, 11, 12] (m.var == 2)
  needShape (mulClass m.a.ty == mulClass m.b.ty && (mulClass m.a.ty == 3) == m.g.i32) m.a.g 1
  m.a.aligned
  m.b.aligned
  needShape (m.var != 2 || m.k % 8 == 0) gk 6
  needShape (m.var != 1 || m.gbuf != 3) gk 2

/-- R146: the tiles of the group that hold a row below `end_` and not below row0, in index order, as numbers in the group. -/
def Mul.list (m : Mul) (end_ : Nat) : List Nat :=
  (List.range m.g.tiles).filter fun q =>
    let r := 4 * (q / (m.g.cols + 1))
    decide (m.row0 < r + 4) && decide (r < end_) && decide (m.row0 < end_)

/-- R145: the bounds of the operands that a multiply reads. -/
def Mul.inBounds (m : Mul) (end_ : Nat) : Try Unit :=
  if m.k = 0 || (m.list end_).isEmpty then .ok ()
  else do
    m.a.bounds (end_ - 1) (m.k - 1)
    m.b.bounds ((if m.var = 2 then m.k / 2 else m.k) - 1) (m.g.n - 1)
    if m.var = 2 then
      let o := m.b.metaOff + m.g.n * (m.k / 8) - 1
      need (decide (o < Config.bufSize m.b.space)) (.trap .bufferBounds (.ofNat 64 o))

/-- R145, R146: the guard word of mma.g: its offset is checked, then it is read. -/
def State.guardWord (s : State) (m : Mul) : Try (Nat × State) := do
  need (m.goff % 8 == 0 && decide (m.goff < Config.bufSize m.gbuf)) (.trap .bufferBounds (.ofNat 64 m.goff))
  let (ws, s) ← s.readElems m.gbuf 8 [m.goff]
  .ok (ws.headD 0, s)

/-- R136: an operand's elements, from its buffer or from the streamed bytes. -/
def State.operand (s : State) (d : Desc) (rcs : List (Nat × Nat)) : Try (List Nat × State) :=
  let as := rcs.map fun x => d.at_ x.1 x.2
  if d.space = 3 then
    .ok (as.map fun a => numLE ((span a d.e).map fun i => ((s.me.mul.bytes.find? fun b => b.1 == i).map (·.2)).getD 0), s)
  else s.readFetched d as

/-- R151: the metadata nibble of group `g` of column `j`, at an offset of the buffer. -/
def metaAt (d : Desc) (k g j : Nat) : Nat := d.metaOff + j * (k / 8) + g / 2

/-- R43, R44: one step of one element: the accumulator's code and the flags. -/
def accStep (i32 : Bool) (fa fb : Fmt) (c a b : Nat) : Nat × Nat :=
  if i32 then
    match fa.value a, fb.value b with
    | .fin na ma _, .fin nb mb _ =>
      let p : Int := if na != nb then -((ma * mb : Nat) : Int) else (ma * mb : Nat)
      (((c : Int) + p) % 2 ^ 32 |>.toNat, 0)
    | _, _ => (c, 0)
  else round fmtF 0 false false (Num.fma 0 (fa.value a) (fb.value b) (fmtF.value c))

/-- R146, Step(tile, k): the rows of the list's tile `q`, all 8 columns; the tile is written back. For mmas the step covers
4 dense k (R151). -/
def State.mulStep (s : State) (m : Mul) (end_ q k : Nat) : Try State := do
  let rows := (span (4 * (q / (m.g.cols + 1))) 4).filter fun i => decide (m.row0 ≤ i) && decide (i < end_)
  let cols := span (8 * (q % (m.g.cols + 1))) 8
  let t := m.base + q
  let fa := m.a.f m.vfmt
  let fb := m.b.f m.vfmt
  let kks := if m.var = 2 then [k, k + 1, k + 2, k + 3] else [k]
  let (as, s) ← s.operand m.a (rows.flatMap fun i => kks.map fun k => (i, k))
  let (bs, s) ← s.operand m.b (cols.flatMap fun j => (if m.var = 2 then [k / 2, k / 2 + 1] else [k]).map fun r => (r, j))
  let (ms, s) ← if m.var = 2 then s.readElems m.b.space 1 (cols.map (metaAt m.b m.k (k / 4))) else .ok ([], s)
  let (cs, s) ← s.readElems 2 4 ((List.range 32).map fun x => 128 * t + 4 * x)
  let aAt := fun (i d : Nat) => match rows.findIdx? (· == i) with
    | some n => as[n * kks.length + d]?.getD 0
    | none => 0
  let el := fun (x c : Nat) =>
    let i := 4 * (q / (m.g.cols + 1)) + x / 8
    let j := x % 8
    if !(decide (m.row0 ≤ i) && decide (i < end_)) then (c, 0)
    else if m.var = 2 then
      let nib := (ms[j]?.getD 0) / (if k / 4 % 2 = 0 then 1 else 16) % 16
      let (c, f1) := accStep m.g.i32 fa fb c (aAt i (nib % 4)) (bs[2 * j]?.getD 0)
      let (c, f2) := accStep m.g.i32 fa fb c (aAt i (nib / 4)) (bs[2 * j + 1]?.getD 0)
      (c, f1 ||| f2)
    else accStep m.g.i32 fa fb c (aAt i 0) (bs[j]?.getD 0)
  let rs := cs.zipIdx.map fun x => el x.2 x.1
  let s := s.writeElems 2 4 (rs.zipIdx.map fun x => (128 * t + 4 * x.2, x.1.1))
  let fl := rs.foldl (fun f x => f ||| x.2) 0
  .ok (s.modMe fun x => { x with mul := { x.mul with flags := x.mul.flags ||| fl } })

/-- Writes MRP of the current context. -/
def State.setMrp (s : State) (w : Word) : State := s.modMe fun x => { x with csr := { x.csr with mrp := w } }

/-- How the fetch of a block's lines stands (R147). -/
inductive Lines where
  /-- all lines of the block, or the first that fails with its cause and address, and none before it is missing -/
  | ready (fails : Option (Nat × Cause × Nat))
  | wait (w : Wait)

/-- The dense k that a step covers: 4 for mmas (R151). -/
def Mul.per (m : Mul) : Nat := if m.var = 2 then 4 else 1

/-- R147: the streamed elements that step `k` reads, its line; a step of mmas reads those of 4 k (log entry 76). -/
def Mul.line (m : Mul) (end_ k : Nat) : List (Nat × Nat) :=
  (if m.a.space = 3 then (List.range end_).flatMap fun i =>
    if m.row0 ≤ i then (List.range m.per).map fun d => (m.a.at_ i (k + d), m.a.e) else [] else []) ++
  (if m.b.space = 3 then (List.range m.g.n).map fun j => (m.b.at_ k j, m.b.e) else [])

/-- An element's accesses: whole, or byte by byte where it would cross from one stack to the next (R112). -/
def pieces (va e : Nat) : List (Nat × Nat) :=
  if va % 4096 + e ≤ 4096 then [(va, e)] else (span va e).map fun a => (a, 1)

/-- R147, R110: one access of a streamed line: it has come, it has failed, its translation is missing, or it is sent. -/
def State.fetchPiece (s : State) (va n : Nat) : State × Option Wait :=
  let mul := s.me.mul
  let fail := fun (s : State) => s.modMe fun x => { x with mul := { x.mul with failed := x.mul.failed ++ [(va, .loadFault)] } }
  if (span va n).all fun i => mul.bytes.any fun b => b.1 == i then (s, none)
  else if mul.failed.any fun f => f.1 == va then (s, none)
  else if s.me.outst.any fun o => match o.act with
    | .stream a => a == va
    | _ => false then (s, some .stream)
  else if 2 ^ 56 ≤ va || s.me.xfault = some (va / 2 ^ 16) then (fail s, none)
  else match s.myPlot.lookup va with
    | none => (s, some (.translation (va / 2 ^ 16)))
    | some e =>
      if !e.rd then (fail s, none)
      else
        let t := e.target_ va
        let (dst, sp, buf) := e.place t
        let s := s.modPlot s.cur.1 (·.touch e)
        let (id, s) := s.fresh
        let s := s.await_ ⟨id, sp, false, .stream va, .ofNat 64 va⟩
        (s.sendMine .req dst (.acc ⟨s.who id, buf, t, .load n⟩), some .stream)

/-- R147: the lines of a block from `k` on, in ascending order. -/
def State.fetchLines (s : State) (m : Mul) (end_ : Nat) : List Nat → State × Lines
  | [] => (s, .ready none)
  | k :: ks =>
    let ps := (m.line end_ k).flatMap fun x => pieces (x.1 % 2 ^ 64) x.2
    let (s, w) := ps.foldl (fun (r : State × Option Wait) x =>
      let (s, w) := r.1.fetchPiece x.1 x.2
      (s, match r.2 with | some v => some v | none => w)) (s, none)
    match w with
    | some w => (s, .wait w)
    | none =>
      let bad := s.me.mul.failed.filter fun f => ps.any fun x => x.1 == f.1
      match bad with
      | [] => fetchLines s m end_ ks
      | f :: rest =>
        let f := rest.foldl (fun f g => if g.1 < f.1 then g else f) f
        (s, .ready (some (k, f.2, f.1)))

/-- What stops a run of steps. -/
inductive Ran where
  | all (s : State) (budget : Option Nat)
  /-- at the k-step boundary after a step of a tile: the next step of it -/
  | pause (s : State) (t k : Nat)
  | fails (s : State) (t k : Nat) (c : Cause) (v : Word)

/-- R146: steps of tiles of the list, as (index in the list, tile, k), while the budget lasts (log entry 8): at least one. -/
def State.runSteps (s : State) (m : Mul) (end_ : Nat) : List (Nat × Nat × Nat) → Option Nat → Ran
  | [], n => .all s n
  | (t, q, k) :: rest, n =>
    match s.mulStep m end_ q k with
    | .ok s' => match n with
      | some 0 | some 1 => .pause s' t (k + m.per)
      | _ => runSteps s' m end_ rest (n.map (· - 1))
    | .error (.trap c v) => .fails s t k c v
    | .error (.block _) => .pause s t k

/-- R146: the steps of a block: tiles from `ti` on, the first from `ks` on. -/
def blockSteps (l : List Nat) (s kb ke ti ks : Nat) : List (Nat × Nat × Nat) :=
  l.zipIdx.flatMap fun x =>
    if x.2 < ti then []
    else
      let k0 := if x.2 = ti then max ks kb else kb
      (List.range ((ke - k0 + s - 1) / s)).map fun n => (x.2, x.1, k0 + s * n)

/-- The multiply has the engine, stands at a point, and goes on at the context's next turn. -/
def State.keepMul (s : State) (q : MulPoint) (w : Wait) : State :=
  let c := s.cur.2
  ((s.modPlot s.cur.1 fun x => { x with engine := { running := some c, waiting := x.engine.waiting.filter (· != c) } }).modMe fun y =>
    { y with mul := { y.mul with point := some q } }).blocked w

/-- R139: the multiply of the current context yields, if it is to and stands at a k-step boundary. -/
def State.yieldIf (s : State) : State :=
  if s.myPlot.mustYield s.cur.2 then s.modPlot s.cur.1 (·.yieldMul s.cur.2) else s

/-- R146: the blocks of a multiply from a point on; the first argument bounds the blocks. -/
def State.mulBlocks (m : Mul) : Nat → State → MulPoint → Option Nat → State
  | 0, s, _, _ => s
  | fuel + 1, s, q, n =>
    if m.k ≤ q.kb then (s.setMrp (putw s.me.csr.mrp 63 1 0)).release.retire
    else
      let ke := min m.k (32 * (q.kb / 32 + 1))
      let l := m.list q.end_
      let steps := (List.range ((ke - q.kb + m.per - 1) / m.per)).map fun i => q.kb + m.per * i
      match s.fetchLines m q.end_ steps with
      | (s, .wait w) => s.keepMul { q with stepped := false } w
      | (s, .ready fails) =>
        match (if q.fresh then none else fails) with
        -- a continuation begun inside the block: no step runs, and MRP keeps its record
        | some (_, c, va) => s.trap c (.ofNat 64 va)
        | none =>
          let ke' := match fails with
            | some (kf, _, _) => kf
            | none => ke
          match s.runSteps m q.end_ (blockSteps l m.per q.kb ke' q.ti q.ks) n with
          | .pause s t k =>
            (s.keepMul { q with ti := t, ks := k, stepped := true } (if s.myPlot.mustYield s.cur.2 then .engine else .steps)).yieldIf
          -- R337: the tiles written stay, and MRP records the step that could not be taken (log entry 77)
          | .fails s t k c v => (s.setMrp (mrpWord q.pcw q.end_ t k q.kb)).trap c v
          | .all s n =>
            match fails with
            | some (kf, c, va) => (s.setMrp (mrpWord q.pcw q.end_ 0 kf kf)).trap c (.ofNat 64 va)
            | none =>
              let s := s.modMe fun y => { y with mul := { y.mul with bytes := [], failed := [] } }
              mulBlocks m fuel s { q with kb := ke, ti := 0, ks := 0, fresh := true } n

/-- R61: the control word of a multiply: read at its issue, a port's word popped, and kept while the multiply has the engine. -/
def State.controlWord (s : State) (k : Nat) : Word × State :=
  match s.me.mul.ctl with
  | some w => (w, s)
  | none =>
    let (w, s) := s.takeG k
    (w, s.modMe fun y => { y with mul := { y.mul with ctl := some w, popped := if isPort k then [(k - 60, w)] else [] } })

/-- R144 to R149: a multiply. The group becomes live where R146's text has it: before the streamed lines are fetched (log entry 82). -/
def mulOp_ (var : Nat) (a b k c : BitVec 6) (s : State) : Res :=
  matrixOp (pairSrc (regG a) ++ pairSrc (regG b) ++ (if s.me.mul.ctl.isSome then [] else [⟨regG k, false⟩])) []
    (fun s => [s.myPlot.base c.toNat])
    (fun s => do
      let (ctl, s) := s.controlWord (regG k)
      let x := s.myPlot
      let m : Mul := ⟨var, s.desc (regG a), s.desc (regG b), ctl, c.toNat, x.group c.toNat, s.me.csr.vfmt⟩
      m.shapes (regG k) (x.isBase c.toNat)
      let pcw := s.ipc.toNat / 4
      let mrp := s.me.csr.mrp
      let cont := bitw mrp 63 && fldw mrp 48 11 == pcw
      let (gw, s) ← if var = 1 && !cont && s.me.mul.point.isNone then s.guardWord m else .ok (0, s)
      let q : MulPoint := match s.me.mul.point with
        | some q => q
        | none =>
          if cont then
            let (kb, ti, ks) := (fldw mrp 0 16, fldw mrp 32 4, fldw mrp 16 16)
            ⟨c.toNat, pcw, fldw mrp 40 5, kb, ti, ks, decide (ti = 0) && decide (ks ≤ kb), false⟩
          else ⟨c.toNat, pcw, if var = 1 then min m.g.r gw else m.g.r, 0, 0, 0, true, false⟩
      m.inBounds q.end_
      if m.k = 0 || (m.list q.end_).isEmpty then .ok (s.setMrp (putw mrp 63 1 0)).release.retire
      -- R139: what has come up since the last step
      else if q.stepped && s.myPlot.mustYield s.cur.2 then .ok (s.blocked .engine).yieldIf
      else
        let s := s.modPlot s.cur.1 fun x => x.modGroup c.toNat fun g => { g with live := true }
        let n := if s.myPlot.mustYield s.cur.2 then some 1 else s.budget.head?
        let s := { s with budget := s.budget.tail }
        .ok (s.mulBlocks m (m.k / 32 + 2) q n)) s

/-- R144, mma. -/
def execMma (a b k c : BitVec 6) (s : State) : Res := mulOp_ 0 a b k c s
/-- R144, R149, mma.g. -/
def execMmaG (a b k c : BitVec 6) (s : State) : Res := mulOp_ 1 a b k c s
/-- R144, R151, mmas. -/
def execMmas (a b k c : BitVec 6) (s : State) : Res := mulOp_ 2 a b k c s

/-! ## Control instructions (R152 to R157) -/

/-- R153: the groups with a tile in a range, by base. -/
def Plot.touched (x : Plot) (b n : Nat) : List Nat := ((span b n).map x.base).eraseDups

/-- R153: the new group of an mcfg word. -/
def cfgGroup (w : Word) : Group := ⟨fldw w 8 2, fldw w 10 2, bitw w 12, false, none⟩

/-- R153: the group exists exactly so. -/
def Plot.sameGroup (x : Plot) (b : Nat) (g : Group) : Bool :=
  x.isBase b && (x.group b).rows == g.rows && (x.group b).cols == g.cols && (x.group b).i32 == g.i32

/-- R153: forms a group; the other tiles of the touched groups become single tiles of their type. -/
def Plot.formGroup (x : Plot) (b : Nat) (g : Group) : Plot :=
  let ts := (x.touched b g.tiles).flatMap fun k => (x.groupTiles k).map fun t => (t, (x.group k).i32)
  let x := ts.foldl (fun x y => { x with
    tiles := Sparse.set 0 x.tiles y.1 0, groups := Sparse.set Group.reset x.groups y.1 ⟨0, 0, y.2, false, none⟩ }) x
  let x := (List.range g.tiles).foldl (fun x d => { x with
    tiles := Sparse.set 0 x.tiles (b + d) d, groups := Sparse.set Group.reset x.groups (b + d) Group.reset }) x
  { x with groups := Sparse.set Group.reset x.groups b g }

/-- R153: mcfg and mcfg.d. The tile range (reason 0x05) is looked at before the reserved bits (0x03): DEDUCED, log entry 35. -/
def mcfgOp (a : BitVec 6) (d : Bool) (s : State) : Res :=
  let word := fun (s : State) => (s.takeG (regG a)).1
  matrixOp [⟨regG a, false⟩] []
    (fun s =>
      let w := word s
      let b := fldw w 0 6
      let g := cfgGroup w
      if 64 < b + g.tiles || (!d && s.myPlot.sameGroup b g) then [] else s.myPlot.touched b g.tiles)
    (fun s => do
      let (w, s) := s.takeG (regG a)
      let b := fldw w 0 6
      let g := cfgGroup w
      needShape (decide (b + g.tiles ≤ 64)) (regG a) 5
      needShape (fldw w 13 51 == 0 && fldw w 6 2 == 0) (regG a) 3
      let x := s.myPlot
      if x.sameGroup b g then .ok (if d then s.clearGroup b else s).release.retire
      else
        let live := (x.touched b g.tiles).filter fun k => (x.group k).live
        if !d && !live.isEmpty then signal .tileLive (.ofNat 64 (live.foldl min 64))
        else
          let s := if d then (x.touched b g.tiles).foldl State.clearGroup s else s
          .ok (s.modPlot s.cur.1 fun x => x.formGroup b g).release.retire) s

/-- R153, mcfg. -/
def execMcfg (a : BitVec 6) (s : State) : Res := mcfgOp a false s
/-- R153, mcfg.d. -/
def execMcfgD (a : BitVec 6) (s : State) : Res := mcfgOp a true s

/-- The group named by the low six bits of a control register. -/
def lowGroup (a : BitVec 6) (s : State) : List Nat := [s.myPlot.base (fldw (s.takeG (regG a)).1 0 6)]

/-- R154, mzero. Reason 0x05 before 0x03 (DEDUCED, log entry 35). -/
def execMzero (a : BitVec 6) (s : State) : Res :=
  matrixOp [⟨regG a, false⟩] [] (lowGroup a) (fun s => do
    let (w, s) := s.takeG (regG a)
    needShape (s.myPlot.isBase (fldw w 0 6)) (regG a) 5
    needShape (fldw w 6 58 == 0) (regG a) 3
    .ok (s.clearGroup (fldw w 0 6)).release.retire) s

/-- R155: mdrain and mdrain.z. Reason 0x05 before 0x03, and rm (0x08) after the descriptor and its alignment (DEDUCED, log entry 35). Where the
elements of the destination overlap, the spec gives no order of the writes: they are made with i and then j ascending, and the later one stays
(DESIGN CHOICE, log entry 95). -/
def mdrainOp (a b : BitVec 6) (z : Bool) (s : State) : Res :=
  matrixOp (⟨regG a, false⟩ :: pairSrc (regG b)) [] (lowGroup a) (fun s => do
    let (w, s) := s.takeG (regG a)
    let base := fldw w 0 6
    let g := s.myPlot.group base
    let d := s.desc (regG b)
    let rm := fldw w 16 3
    needShape (s.myPlot.isBase base) (regG a) 5
    needShape (fldw w 20 44 == 0 && fldw w 6 10 == 0) (regG a) 3
    d.check [0, 1] (if g.i32 then [0, 1, 2, 4, 5, 6] else [8, 9, 11, 12]) false
    d.aligned
    needShape (rm != 5 && rm != 6) (regG a) 8
    d.bounds (g.r - 1) (g.n - 1)
    let rcs := (List.range g.r).flatMap fun i => (List.range g.n).map fun j => (i, j)
    let (cs, s) ← s.readElems 2 4 (rcs.map fun x => (g.elem base x.1 x.2).2)
    let mode := if rm = 7 then fldw s.me.csr.fpcsr 8 3 else rm
    let rs := cs.map fun c => convert (if g.i32 then .int 32 true else fmtF) (d.f s.me.csr.vfmt) mode (bitw w 19) false c
    let s := s.writeElems d.space d.e ((rcs.zip rs).map fun x => (d.at_ x.1.1 x.1.2, x.2.1))
    let s := s.raise s.cur.1 s.cur.2 (rs.foldl (fun f x => f ||| x.2) 0)
    .ok (if z then s.clearGroup base else s).release.retire) s

/-- R155, mdrain. -/
def execMdrain (a b : BitVec 6) (s : State) : Res := mdrainOp a b false s
/-- R155, mdrain.z. -/
def execMdrainZ (a b : BitVec 6) (s : State) : Res := mdrainOp a b true s

/-- R156, mdrain.v: a long-latency producer; the row travels as an answer to the plot. -/
def execMdrainV (d : BitVec 4) (a : BitVec 6) (s : State) : Res :=
  matrixOp [⟨regG a, false⟩] [regV d] (lowGroup a) (fun s => do
    let (w, s) := s.takeG (regG a)
    needShape (fldw w 10 54 == 0 && fldw w 6 2 == 0) (regG a) 3
    let (cs, s) ← s.readElems 2 32 [128 * fldw w 0 6 + 32 * fldw w 8 2]
    let (id, s) := s.fresh
    let s := s.await_ ⟨id, .other, false, .vec d.toNat (List.replicate 32 true) false, w⟩
    let s := s.sendMine .rsp (.plot (s.plotId s.cur.1)) (.rsp (s.who id) (.data (bytesLE 32 (cs.headD 0)) 0 false))
    .ok s.release.retire) s

/-- R157: the address of element `x` of a scale vector. -/
def Desc.scaleAt (d : Desc) (x : Nat) : Nat := d.addr.toNat + (if d.col then x * d.stride else x * d.e)

/-- R157, R145: the bounds of a scale vector of `n` elements. -/
def Desc.scaleBounds (d : Desc) (n : Nat) : Try Unit :=
  need (decide (d.scaleAt (n - 1) < Config.bufSize d.space)) (.trap .bufferBounds (.ofNat 64 (d.scaleAt (n - 1))))

/-- R46: the scale of an element. -/
def scaleOf (z : Bool) (x y : Num) : Num := if z && !x.isNan && !y.isNan then x.mulz y else x.mul y

/-- R46: the update of an element. DESIGN CHOICE (log entry 64): a signalling NaN scale sets no NV under .z where T is zero. -/
def scaleStep (z : Bool) (c t : Nat) (x y : Num) : Nat × Nat :=
  let sc := scaleOf z x y
  let tv := fmtF.value t
  round fmtF 0 false false (Num.add 0 (fmtF.value c) (if z then tv.mulz sc else tv.mul sc))

/-- R157: the update of the elements of a group, in order: each is read before it is written. -/
def State.scaleElem (s : State) (z : Bool) (tOff cOff : Nat) (x y : Num) : Try State := do
  let (ts, s) ← s.readElems 2 4 [tOff]
  let (cs, s) ← s.readElems 2 4 [cOff]
  let (r, fl) := scaleStep z (cs.headD 0) (ts.headD 0) x y
  let s := s.writeElems 2 4 [(cOff, r)]
  .ok (s.modMe fun m => { m with mul := { m.mul with flags := m.mul.flags ||| fl } })

/-- R157: mscale and mscale.z. Reason 0x05 before 0x03 (DEDUCED, log entry 35); the other checks in the order of the text here (DESIGN CHOICE, log
entry 104). -/
def mscaleOp (d a b : BitVec 6) (z : Bool) (s : State) : Res :=
  matrixOp (pairSrc (regG d) ++ [⟨regG a, false⟩] ++ pairSrc (regG b)) []
    (fun s => let w := (s.takeG (regG a)).1; [s.myPlot.base (fldw w 8 6), s.myPlot.base (fldw w 0 6)])
    (fun s => do
      let (w, s) := s.takeG (regG a)
      let x := s.myPlot
      let tb := fldw w 8 6
      let cb := fldw w 0 6
      let gt := x.group tb
      let gc := x.group cb
      let da := s.desc (regG d)
      let db := s.desc (regG b)
      needShape (x.isBase tb && x.isBase cb && gt.rows == gc.rows && gt.cols == gc.cols) (regG a) 5
      needShape (fldw w 14 50 == 0 && fldw w 6 2 == 0) (regG a) 3
      da.check [0, 1] [9, 11, 12] false
      db.check [0, 1] [9, 11, 12] false
      needShape (!gt.i32 && !gc.i32) (regG a) 1
      da.aligned
      db.aligned
      da.scaleBounds gc.r
      db.scaleBounds gc.n
      let (sa, s) ← s.readFetched da ((List.range gc.r).map da.scaleAt)
      let (sb, s) ← s.readFetched db ((List.range gc.n).map db.scaleAt)
      let v := s.me.csr.vfmt
      let s ← ((List.range gc.r).flatMap fun i => (List.range gc.n).map fun j => (i, j)).foldlM (fun s ij =>
        s.scaleElem z (gt.elem tb ij.1 ij.2).2 (gc.elem cb ij.1 ij.2).2
          ((da.f v).value (sa[ij.1]?.getD 0)) ((db.f v).value (sb[ij.2]?.getD 0))) s
      .ok (s.modPlot s.cur.1 fun x => x.modGroup cb fun g => { g with live := true }).release.retire) s

/-- R157, mscale. -/
def execMscale (d a b : BitVec 6) (s : State) : Res := mscaleOp d a b false s
/-- R157, mscale.z. -/
def execMscaleZ (d a b : BitVec 6) (s : State) : Res := mscaleOp d a b true s

/-- R150: the magnitude of x is larger than that of y: a NaN is larger than every number. -/
def largerMag (x y : Num) : Bool := !y.isNan && (x.isNan || y.abs.lt x.abs)

/-- R150: the indices of the two elements of largest magnitude among four, in ascending order; the lower index among
equals. -/
def keepTwo (xs : List Num) : Nat × Nat :=
  let best := fun (skip : Option Nat) => (xs.zipIdx.filter fun x => some x.2 != skip).foldl (fun (b : Option (Num × Nat)) x =>
    match b with
    | none => some x
    | some y => if largerMag x.1 y.1 then some x else some y) none
  let i := ((best none).map (·.2)).getD 0
  let j := ((best (some i)).map (·.2)).getD 0
  (min i j, max i j)

/-- R150: one group of one column. -/
def State.compGroup (s : State) (src dst : Desc) (f : Fmt) (k g j : Nat) : Try State := do
  let (cs, s) ← s.readFetched src ((span (4 * g) 4).map fun r => src.at_ r j)
  let (i0, i1) := keepTwo (cs.map f.value)
  let s := s.writeElems dst.space dst.e [(dst.at_ (2 * g) j, cs[i0]?.getD 0), (dst.at_ (2 * g + 1) j, cs[i1]?.getD 0)]
  let o := metaAt dst k g j
  let nib := i0 + 4 * i1
  let old := (s.myPlot.bufs.byte dst.space o).toNat
  .ok (s.writeElems dst.space 1 [(o, if g % 2 = 0 then old / 16 * 16 + nib else nib * 16 + old % 16)])

/-- R150, mcomp. The P and X fields of the two descriptors are compared as they stand, for every type, and a difference reports the register
of b with reason 0x01: DESIGN CHOICE, log entry 70. The order of the checks is DESIGN CHOICE, log entry 104. -/
def execMcomp (d a b : BitVec 6) (s : State) : Res :=
  matrixOp (⟨regG d, false⟩ :: (pairSrc (regG a) ++ pairSrc (regG b))) [] (fun _ => []) (fun s => do
    let (w, s) := s.takeG (regG d)
    let k := fldw w 0 16
    let l := fldw w 16 16
    let src := s.desc (regG a)
    let dst := s.desc (regG b)
    needShape (fldw w 32 32 == 0) (regG d) 3
    src.check [0, 1] [0, 4, 8, 9, 11, 12] false
    dst.check [0, 1] [0, 4, 8, 9, 11, 12] true
    needShape (src.ty == dst.ty && src.p == dst.p && src.x == dst.x) (regG b) 1
    src.aligned
    dst.aligned
    needShape (k % 8 == 0 && k != 0 && l != 0) (regG d) 6
    src.bounds (k - 1) (l - 1)
    dst.bounds (k / 2 - 1) (l - 1)
    let o := dst.metaOff + l * (k / 8) - 1
    need (decide (o < Config.bufSize dst.space)) (.trap .bufferBounds (.ofNat 64 o))
    let f := src.f s.me.csr.vfmt
    let s ← ((List.range l).flatMap fun j => (List.range (k / 4)).map fun g => (g, j)).foldlM
      (fun s x => s.compGroup src dst f k x.1 x.2) s
    .ok s.release.retire) s

end Sys2Proof.Machine
end

