-- ==== Sys2Proof/Machine/Stat.lean ====
section
/-!
DEFINITION. Statistic records and the statistics instructions (08, R160 to R177; 02, R47, R48).
-/

namespace Sys2Proof.Machine

open Sys2Proof

/-- R47: the fields of a record; the numbers are binary32 codes. -/
structure Stat where
  n : Nat
  mean : Nat
  m2 : Nat
  e : Bool
  z : Bool
  v : Bool
  o : Bool
  i : Bool
  deriving DecidableEq, Repr

/-- R47 -/
def statOf (x : S128) : Stat :=
  let k := x.toNat
  ⟨fld k 0 32, fld k 32 32, fld k 64 32, flag k 96, flag k 97, flag k 98, flag k 99, flag k 100⟩

/-- R47, R48: a record as it is written: an empty one in its one form. -/
def Stat.code (r : Stat) : S128 :=
  if r.e then emptyRecord
  else .ofNat 128 (r.n + 2 ^ 32 * r.mean + 2 ^ 64 * r.m2 + 2 ^ 97 * bit r.z + 2 ^ 98 * bit r.v + 2 ^ 99 * bit r.o + 2 ^ 100 * bit r.i)

/-- A computation that gathers flags. -/
abbrev Flagged := StateM Nat

/-- R41: adds flags. -/
def addFlags (fl : Nat) : Flagged Unit := fun f => ((), f ||| fl)

/-- R161: Round(f, x, RNE), without FTZ. -/
def rnd (x : Num) : Flagged Nat := fun f => let (c, g) := round fmtF 0 false false x; (c, f ||| g)

/-- The value of a binary32 code. -/
def val32 (c : Nat) : Num := fmtF.value c

/-- A rounded sum. -/
def addR (a b : Num) : Flagged Nat := rnd (Num.add 0 a b)
/-- A rounded difference. -/
def subR (a b : Num) : Flagged Nat := rnd (Num.add 0 a b.negate)
/-- A rounded product. -/
def mulR (a b : Num) : Flagged Nat := rnd (a.mul b)
/-- A rounded quotient. -/
def divR (a b : Num) : Flagged Nat := do
  let (q, dz) := a.div b
  addFlags dz
  rnd q

/-- One. -/
def one32 : Num := .fin false 1 0

/-- A value is -0. -/
def Num.isNegZero (x : Num) : Bool := x.isZero && x.neg

/-- A value is an infinity. -/
def Num.isInf : Num → Bool
  | .inf _ => true
  | _ => false

/-- R163: n' is not the exact count, or passes 2^24. -/
def overCount (n' : Nat) (exact : Num) : Bool :=
  !(val32 n').eqv exact || (!(val32 n').isNan && (Num.fin false 1 24).lt (val32 n'))

/-- R163: the signs of zero of the mean and m2. -/
def Stat.zeros (r : Stat) : Stat :=
  { r with
    mean := if (val32 r.mean).isZero then (if r.z then 0x80000000 else 0) else r.mean
    m2 := if (val32 r.m2).isZero then 0 else r.m2 }

/-- R163: Fix. -/
def Stat.fix (r : Stat) (n mean m2 : Nat) (exact x : Num) : Stat :=
  Stat.zeros { n := n, mean := mean, m2 := m2, e := false, o := r.o || overCount n exact, z := r.z && x.isNegZero,
               v := r.v || x.isNan, i := r.i || x.isInf }

/-- R162, R164: the first element of a record, with its weight. -/
def Stat.firstOf (x : Num) (w : Nat) : Flagged Stat := do
  let m ← rnd x
  pure { n := w, mean := m, m2 := 0, e := false, o := false, z := x.isNegZero, v := x.isNan, i := x.isInf }

/-- R162: Upd. -/
def Stat.upd (r : Stat) (x : Num) : Flagged Stat :=
  if r.e then Stat.firstOf x 0x3F800000
  else do
    let exact := Num.add 0 (val32 r.n) one32
    let n ← rnd exact
    let d ← subR x (val32 r.mean)
    let q ← divR (val32 d) (val32 n)
    let mean ← addR (val32 r.mean) (val32 q)
    let e ← subR x (val32 mean)
    let p ← mulR (val32 d) (val32 e)
    let m2 ← addR (val32 r.m2) (val32 p)
    pure (r.fix n mean m2 exact x)

/-- R164: UpdW. -/
def Stat.updW (r : Stat) (x w : Num) : Flagged Stat :=
  if w.isZero then pure r
  else if w.neg || w.isNan || w.isInf then do
    addFlags flNV
    pure r
  else if r.e then do
    let n ← rnd w
    Stat.firstOf x n
  else do
    let exact := Num.add 0 (val32 r.n) w
    let n ← rnd exact
    let d ← subR x (val32 r.mean)
    let q ← divR w (val32 n)
    let p ← mulR (val32 q) (val32 d)
    let mean ← addR (val32 r.mean) (val32 p)
    let e ← subR x (val32 mean)
    let wd ← mulR w (val32 d)
    let t ← mulR (val32 wd) (val32 e)
    let m2 ← addR (val32 r.m2) (val32 t)
    pure (r.fix n mean m2 exact x)

/-- R165: Merge. -/
def Stat.merge (a b : Stat) : Flagged Stat :=
  if a.e then pure b
  else if b.e then pure a
  else do
    let exact := Num.add 0 (val32 a.n) (val32 b.n)
    let n ← rnd exact
    let d ← subR (val32 b.mean) (val32 a.mean)
    let t ← divR (val32 b.n) (val32 n)
    let dt ← mulR (val32 d) (val32 t)
    let mean ← addR (val32 a.mean) (val32 dt)
    let dd ← mulR (val32 d) (val32 d)
    let da ← mulR (val32 dd) (val32 a.n)
    let c ← mulR (val32 da) (val32 t)
    let mm ← addR (val32 a.m2) (val32 b.m2)
    let m2 ← addR (val32 mm) (val32 c)
    pure (Stat.zeros { n := n, mean := mean, m2 := m2, e := false, z := a.z && b.z, v := a.v || b.v, i := a.i || b.i,
                       o := a.o || b.o || overCount n exact })

/-- R165: Merge of two records as stored, and its flags. -/
def mergeRec (a b : S128) : S128 × Nat :=
  let (r, fl) := (Stat.merge (statOf a) (statOf b)).run 0
  (r.code, fl)

/-- R168: m2 / d; a zero variance is +0. -/
def Stat.variance (r : Stat) (d : Num) : Flagged Nat := do
  let q ← divR (val32 r.m2) d
  pure (if (val32 q).isZero then 0 else q)

/-- R168: MSQ. -/
def Stat.msq (r : Stat) : Flagged Nat := do
  let q ← r.variance (val32 r.n)
  let p ← mulR (val32 r.mean) (val32 r.mean)
  addR (val32 q) (val32 p)

/-- R168: 1/√y of a code, rounded once. -/
def rsqrtR (y : Nat) : Flagged Nat := do
  let (x, dz) := specialNum 1 (val32 y)
  addFlags dz
  rnd x

/-- R168: a drain by its option (0 COUNT, 1 SUM, 2 MEAN, 3 VARP, 4 VARS, 5 MSQ, 6 RSTD, 7 RRMS) with ε. -/
def Stat.drain (r : Stat) (opt eps : Nat) : Flagged Nat :=
  if r.e then pure (if opt ≤ 1 then 0 else 0x7FE00000)
  else match opt with
    | 0 => rnd (val32 r.n)
    | 1 => do
      let x ← mulR (val32 r.n) (val32 r.mean)
      pure (if (val32 x).isZero then (if r.z then 0x80000000 else 0) else x)
    | 2 => rnd (val32 r.mean)
    | 3 => r.variance (val32 r.n)
    | 4 => do
      let d ← subR (val32 r.n) one32
      r.variance (val32 d)
    | 5 => r.msq
    | 6 => do
      let q ← r.variance (val32 r.n)
      let y ← addR (val32 q) (val32 eps)
      rsqrtR y
    | _ => do
      let q ← r.msq
      let y ← addR (val32 q) (val32 eps)
      rsqrtR y

/-- The result of an s register, written later (R176). -/
def State.laterS (s : State) (d : BitVec 4) (r : Stat) : State := s.later (regS d) (r.code.setWidth 256) false

/-- R171: the elements of the active lanes, in ascending order, enter a record. -/
def updAll (m : Vf) (g : Word) (xs : List (Num × Num)) (weighted : Bool) (r : Stat) : Flagged Stat :=
  xs.zipIdx.foldlM (fun r x =>
    if m.active g x.2 then (if weighted then r.updW x.1.1 x.1.2 else r.upd x.1.1) else pure r) r

/-- R171: supd and supdw. -/
def supdOp (d : BitVec 4) (srcs : List (BitVec 4 × Bool)) (y : BitVec 4) (weighted : Bool) (s : State) : Res :=
  s.finish (do
    let m := modVf s.me.pair
    checkRegs s (srcs.map (fun x => ⟨regV x.1, x.2⟩) ++ m.extra none (some (regS d))) [regS d]
    let f := fmtIn m s.me.csr.vfmt y.toNat
    let lane := fun (k : Nat) => match srcs[k]? with
      | some r => (vlanes (tyW y) (s.v r.1.toNat)).map f.value
      | none => []
    let xs := lane 0
    let ws := if weighted then lane 1 else xs
    let (r, fl) := (updAll m (s.g m.mask) (xs.zip ws) weighted (statOf (s.sreg d.toNat))).run 0
    .ok ((s.laterS d r).raise s.cur.1 s.cur.2 fl).retire)

/-- R171, supd. -/
def execSupd (d a : BitVec 4) (y : BitVec 4) (t : Bool) (s : State) : Res := supdOp d [(a, t)] y false s
/-- R171, supdw. -/
def execSupdw (d a b : BitVec 4) (y : BitVec 4) (t u : Bool) (s : State) : Res := supdOp d [(a, t), (b, u)] y true s

/-- R172: supd.row and supd.col: one access of one square, even when the mask is all zeros. -/
def supdBuf (d : BitVec 4) (b : BitVec 6) (x : BitVec 2) (y : BitVec 4) (t col : Bool) (s : State) : Res :=
  s.finish (do
    let m := modVf s.me.pair
    checkRegs s (⟨regG b, t⟩ :: m.extra none (some (regS d))) [regS d]
    let (o, s) := s.takeG (regG b)
    let w := tyW y
    vecBounds x.toNat col (w / 8) o
    let g := s.g m.mask
    let ps := activeBytes m g col (w / 8) o.toNat
    s.watch x.toNat true false (ps.map (·.1))
    let (bs, s) ← s.readOwnLanes x.toNat (accessBytes col (w / 8) o.toNat) (ps.map (·.1))
    let got := (ps.map (·.2)).zip bs
    let all := (List.range 32).map fun i => ((got.find? fun z => z.1 == i).map (·.2)).getD 0
    let f := fmtIn m s.me.csr.vfmt y.toNat
    let xs := (vlanes w (.ofNat 256 (numLE all))).map f.value
    let (r, fl) := (updAll m g (xs.zip xs) false (statOf (s.sreg d.toNat))).run 0
    .ok ((s.laterS d r).raise s.cur.1 s.cur.2 fl).retire)

/-- R172, supd.row. -/
def execSupdRow (d : BitVec 4) (b : BitVec 6) (x : BitVec 2) (y : BitVec 4) (t : Bool) (s : State) : Res :=
  supdBuf d b x y t false s
/-- R172, supd.col. -/
def execSupdCol (d : BitVec 4) (b : BitVec 6) (x : BitVec 2) (y : BitVec 4) (t : Bool) (s : State) : Res :=
  supdBuf d b x y t true s

/-- R173, smrg. The old destination is a source, checked last (R160). -/
def execSmrg (d a b : BitVec 4) (t u : Bool) (s : State) : Res :=
  s.finish (do
    checkRegs s [⟨regS a, t⟩, ⟨regS b, u⟩, ⟨regS d, false⟩] [regS d]
    let (r, fl) := mergeRec (s.sreg a.toNat) (s.sreg b.toNat)
    .ok ((s.later (regS d) (r.setWidth 256) false).raise s.cur.1 s.cur.2 fl).retire)

/-- R173, sclr. -/
def execSclr (d : BitVec 4) (s : State) : Res :=
  s.finish (do
    checkRegs s [] [regS d]
    .ok (s.later (regS d) (emptyRecord.setWidth 256) false).retire)

/-- R173: sput: half `h` of a v register. -/
def sputOp (d a : BitVec 4) (t : Bool) (h : Nat) (s : State) : Res :=
  s.finish (do
    checkRegs s [⟨regV a, t⟩] [regS d]
    let x := (s.v a.toNat).extractLsb' (128 * h) 101
    .ok (s.later (regS d) (x.setWidth 256) false).retire)

/-- R173, sput.lo. -/
def execSputLo (d a : BitVec 4) (t : Bool) (s : State) : Res := sputOp d a t 0 s
/-- R173, sput.hi. -/
def execSputHi (d a : BitVec 4) (t : Bool) (s : State) : Res := sputOp d a t 1 s

/-- R173: sget: half `h` of a v register; the other half keeps its value. -/
def sgetOp (d a : BitVec 4) (t : Bool) (h : Nat) (s : State) : Res :=
  s.finish (do
    checkRegs s [⟨regS a, t⟩, ⟨regV d, false⟩] [regV d]
    let x := (s.sreg a.toNat).toNat % 2 ^ 101
    let old := s.v d.toNat
    let lo := old.toNat % 2 ^ 128
    let hi := old.toNat / 2 ^ 128
    .ok (s.later (regV d) (.ofNat 256 (if h = 0 then x + 2 ^ 128 * hi else lo + 2 ^ 128 * x)) false).retire)

/-- R173, sget.lo. -/
def execSgetLo (d a : BitVec 4) (t : Bool) (s : State) : Res := sgetOp d a t 0 s
/-- R173, sget.hi. -/
def execSgetHi (d a : BitVec 4) (t : Bool) (s : State) : Res := sgetOp d a t 1 s

/-- R168, R170: ε of an instruction: the low half of the register its op4 names. -/
def State.eps (s : State) (m : Vf) : Nat := (s.g m.op4).toNat % 2 ^ 32

/-- The register op4 names as a source, if it names one. -/
def Vf.op4Src (m : Vf) : Option Nat := if m.op4 = 0 then none else some m.op4

/-- R174, sdrain. -/
def execSdrain (d a : BitVec 4) (t : Bool) (o : BitVec 3) (s : State) : Res :=
  s.finish (do
    let m := modVf s.me.pair
    checkRegs s (⟨regS a, t⟩ :: m.extra m.op4Src (if m.merges then some (regV d) else none)) [regV d]
    let (r, fl) := ((statOf (s.sreg a.toNat)).drain o.toNat (s.eps m)).run 0
    let (v, fl) := m.blend (s.g m.mask) 32 (s.v d.toNat) (List.replicate 8 (r, fl))
    .ok ((s.later (regV d) v false).raise s.cur.1 s.cur.2 fl).retire)

/-- R175: one lane of snorm. -/
def snormLane (f : Fmt) (z sat : Bool) (mu rs c : Nat) : Nat × Nat :=
  let (d, fl) := (subR (f.value c) (val32 mu)).run 0
  let p := if z then (val32 d).mulz (val32 rs) else (val32 d).mul (val32 rs)
  let (r, fl') := round f 0 sat false p
  (r, fl ||| fl')

/-- R175: snorm and snorm.z. -/
def snormOp (d a b : BitVec 4) (y : BitVec 4) (t u z : Bool) (s : State) : Res :=
  s.finish (do
    let m := modVf s.me.pair
    checkRegs s ([⟨regV a, t⟩, ⟨regS b, u⟩] ++ m.extra m.op4Src (if m.merges then some (regV d) else none)) [regV d]
    let f := fmtIn m s.me.csr.vfmt y.toNat
    let r := statOf (s.sreg b.toNat)
    let w := tyW y
    let rs := if r.e then List.replicate (256 / w) (f.nan, 0)
      else
        let (mu, f1) := (r.drain 2 0).run 0
        let (sd, f2) := (r.drain 6 (s.eps m)).run 0
        (vlanes w (s.v a.toNat)).map fun c =>
          let (x, fl) := snormLane f z m.sat mu sd c
          (x, fl ||| f1 ||| f2)
    let (v, fl) := m.blend (s.g m.mask) w (s.v d.toNat) rs
    .ok ((s.later (regV d) v false).raise s.cur.1 s.cur.2 fl).retire)

/-- R175, snorm. -/
def execSnorm (d a b : BitVec 4) (y : BitVec 4) (t u : Bool) (s : State) : Res := snormOp d a b y t u false s
/-- R175, snorm.z. -/
def execSnormZ (d a b : BitVec 4) (y : BitVec 4) (t u : Bool) (s : State) : Res := snormOp d a b y t u true s

end Sys2Proof.Machine
end

