-- ==== Sys2Proof/Machine/Translate.lean ====
section
/-!
DEFINITION. Page tables and the translation service (05, R108 to R111; 11, R245).
-/

namespace Sys2Proof.Machine

open Sys2Proof

/-- A field's copy of the bound-region table, for a tenant. -/
def State.regionsOf (s : State) (f tenant : Nat) : List Region :=
  (Sparse.get Field.reset s.fields f).regions.filter fun r => r.tenant == tenant

/-- The owner of the granule of an HBM target address; 0 is none (R380). -/
def State.owner (s : State) (t : Nat) : Nat := Sparse.get 0 s.host.granules (t / 2 ^ 30)

/-- The 8 bytes of HBM at an address, as a number. -/
def State.hbm8 (s : State) (t : Nat) : Nat := numLE (Sparse.getN 0 s.mem.hbm t 8)

/-- R110: an HBM address that the partition may use: it exists and its granule is the partition's. -/
def State.owns (s : State) (tenant t : Nat) : Bool := decide (t < Config.hbmBytes) && s.owner t == tenant && tenant != 0

/-- R109: a page-table entry's fields. -/
def pteAddr (e : Nat) : Nat := fld e 16 32 * 2 ^ 16

/-- R109, R110: the page of a leaf at a level, for a virtual address; none where the leaf is not allowed. -/
def leafOf (s : State) (tenant va lvl e : Nat) : Option Tlb :=
  let size := fld e 2 2
  let ty := fld e 4 2
  let bytes := match size with
    | 0 => 2 ^ 16
    | 1 => 2 ^ 21
    | _ => 2 ^ 30
  let t := pteAddr e
  if fld e 8 8 ≠ 0 || (ty ≠ 1 && fld e 48 16 ≠ 0) || lvl < 2 || size = 3 || ty = 3 then none
  else if (lvl = 3 && size = 2) || (lvl = 2 && size ≠ 2) then none
  else if t % bytes ≠ 0 then none
  else if (ty = 0 && !s.owns tenant t) || (ty = 1 && Config.hbmBytes ≤ t) then none
  else some { va := va / bytes * bytes, bytes := bytes, target := t, ty := ty, pkg := fld e 48 16, rd := bitw (.ofNat 64 e) 6,
              wr := bitw (.ofNat 64 e) 7, region := none, tenant := tenant, page := bytes }

/-- R108: the walk from a table at a level; the levels still to come are a list. -/
def walkFrom (s : State) (tenant va : Nat) : List Nat → Nat → Option Tlb
  | [], _ => none
  | lvl :: rest, table =>
    let idx := fld va (46 - 10 * lvl) 10
    let a := table + 8 * idx
    if !s.owns tenant a then none
    else
      let e := s.hbm8 a
      if e % 2 = 0 then none
      else if fld e 1 1 = 1 then leafOf s tenant va lvl e
      else if lvl = 3 || fld e 2 14 ≠ 0 || fld e 48 16 ≠ 0 then none
      else walkFrom s tenant va rest (pteAddr e)

/-- R108, R306: the walk of a virtual address from PTROOT. -/
def State.walk (s : State) (tenant : Nat) (ptroot : Word) (va : Nat) : Option Tlb :=
  if !bitw ptroot 0 then none else walkFrom s tenant va [0, 1, 2, 3] (fldw ptroot 16 32 * 2 ^ 16)

/-- R245: the translation as it is installed: 64 KiB pieces where it overlaps a bound region, with the region's record. -/
def State.withRegion (s : State) (f va : Nat) (e : Tlb) : Tlb :=
  let rs := s.regionsOf f e.tenant
  if rs.any fun r => decide (r.base < e.va + e.bytes) && decide (e.va < r.base + r.bytes) then
    let v := va / 2 ^ 16 * 2 ^ 16
    { e with va := v, bytes := 2 ^ 16, target := e.target + (v - e.va),
             region := (rs.find? fun r => decide (r.base ≤ v) && decide (v < r.base + r.bytes)).map (·.target) }
  else e

/-- R111: the service's answer: its TLB, or a walk. -/
def State.service (s : State) (p va : Nat) : Option Tlb :=
  let x := s.plot p
  let f := fieldOf p
  match (s.fields |> fun m => (Sparse.get Field.reset m f).tlb.find? fun e =>
      e.tenant == x.tenant && decide (e.va ≤ va) && decide (va < e.va + e.bytes)) with
  | some e => some e
  | none => (s.walk x.tenant x.csr.ptroot va).map (s.withRegion f va)

/-- R280: the translations of every page of a range of a copy, which the service makes at issue; the first address that
fails raises the fault. `tyOk` are the memory types allowed. -/
def State.rangePages (s : State) (va n : Nat) (load store : Bool) (f : Cause) (tyOk : Nat → Bool) : Try (List Tlb) :=
  (pagesOf va (min (max n 1) (2 ^ 56 - va))).foldlM (fun acc pg =>
    let a := max va (pg * 2 ^ 16)
    match s.service s.cur.1 a with
    | none => signal f (.ofNat 64 a)
    | some e =>
      if (load && !e.rd) || (store && !e.wr) || !tyOk e.ty then signal f (.ofNat 64 a)
      else .ok (if acc.contains e then acc else acc ++ [e])) []

end Sys2Proof.Machine
end

