-- ==== Sys2Proof/Machine/Serve.lean ====
section
/-!
DEFINITION. The places that serve accesses: remote ports, base dies, headworks 0 and CXL (05, R97 to R112; 11, R235,
R236, R250; 14, R337, R338; 15, R344 to R347); the port links (04, R74), the translation service (05, R111) and the
answers (03, R59; 05, R106).
-/

namespace Sys2Proof.Machine

open Sys2Proof

/-! ## Packets as steps take them -/

/-- A step on the packet with an index. Nothing happens where there is no such packet, where an earlier packet of its
stream is under way (R18), or where the step is not this packet's. -/
def State.onMsg (s : State) (k : Nat) (f : State → Packet → Option State) : Res :=
  match s.first k with
  | none => .next s
  | some m => match f (s.takeMsg k) m with
    | some t => .next t
    | none => .next s

/-- R21: a packet that does not carry a plot's partition is discarded and counted (R332 class 13). -/
def State.mismatchAt (s : State) (p : Nat) : State :=
  (s.modPlot p fun x => { x with mismatch := x.mismatch + 1 }).countAt p 13

/-- R21: the tenant of a packet is the plot's, or 0. -/
def Plot.takes (x : Plot) (tenant : Nat) : Bool := tenant == 0 || tenant == x.tenant

/-- A packet at a plot of this package: on a mismatch `miss` says what beside the count (R21). -/
def State.atPlot (s : State) (m : Packet) (miss : State → State) (f : State → Nat → State) : Option State :=
  match m.dst with
  | .plot id =>
    if id / 2 ^ 20 ≠ s.pkg then none
    else
      let p := id % 2 ^ 20
      some (if (s.plot p).takes m.tenant then f s p else miss (s.mismatchAt p))
  | _ => none

/-- The answer to a request, from where the request arrived. -/
def State.reply (s : State) (m : Packet) (w : Who) (r : Rsp) : State := s.push ⟨.rsp, m.dst, .plot w.plot, m.tenant, .rsp w r⟩

/-! ## HBM -/

/-- R235: a headgate record. `bad` says that MODE is 3 or that a field marked zero is not (R236). -/
structure GateRec where
  mode : Nat
  nsh : Nat
  grants : Nat
  xholder : Word
  bnd : Bool
  base : Nat
  len : Nat
  waitq : Nat
  hpend : Word
  refused : Nat
  bad : Bool
  deriving DecidableEq, Repr

/-- R235: the record of the sector at a target address. -/
def State.gateRec (s : State) (t : Nat) : GateRec :=
  let w := fun i => s.hbm8 (t + 8 * i)
  { mode := fld (w 0) 62 2, nsh := fld (w 0) 32 16, grants := fld (w 0) 0 32, xholder := .ofNat 64 (w 1), bnd := flag (w 2) 63,
    base := fld (w 2) 16 40, len := fld (w 2) 0 16, waitq := fld (w 3) 0 32, hpend := .ofNat 64 (w 4), refused := fld (w 5) 0 32,
    bad := fld (w 0) 62 2 == 3 || fld (w 0) 48 14 != 0 || fld (w 2) 56 7 != 0 || fld (w 3) 32 32 != 0 || fld (w 5) 32 32 != 0 ||
      w 6 != 0 || w 7 != 0 }

/-- R236: a record is active. -/
def GateRec.active (r : GateRec) : Bool := r.mode != 0 || r.bnd || r.waitq != 0 || r.hpend != 0

/-- R236: ordinary writes to the sector of a byte are discarded: the headgate unit has an active record there (DEDUCED,
log entry 20: what an ordinary write leaves in a sector makes no record active). -/
def State.gated (s : State) (t : Nat) : Bool := Sparse.get false s.mem.gate (t / 64)

/-- R338: a byte lies in a word of HBM that cannot be corrected. -/
def State.hbmBad (s : State) (t : Nat) : Bool := Sparse.get false s.mem.bad (t / 8)

/-- Bytes of HBM. -/
def State.hbmRead (s : State) (t n : Nat) : List Byte := Sparse.getN 0 s.mem.hbm t n

/-- Writes bytes of HBM whatever they are: a word that is written whole reads right again. -/
def Memory.write (m : Memory) (bs : List (Nat × Byte)) : Memory :=
  let ws := (bs.map fun b => b.1 / 8).eraseDups.filter fun w => (span (8 * w) 8).all fun a => bs.any fun b => b.1 == a
  { m with hbm := bs.foldl (fun h b => Sparse.set 0 h b.1 b.2) m.hbm
           bad := ws.foldl (fun m w => Sparse.set false m w false) m.bad }

/-- R236: an ordinary write to HBM. -/
def State.hbmWrite (s : State) (bs : List (Nat × Byte)) : State :=
  { s with mem := s.mem.write (bs.filter fun b => !s.gated b.1) }

/-- R99: sets the full/empty bit of the sector of an address. -/
def State.setSector (s : State) (t : Nat) (empty : Bool) : State :=
  { s with mem := { s.mem with fe := Sparse.set false s.mem.fe (t / 64) empty } }

/-- R99: an engine's write to HBM sets full each sector in which it writes a byte. -/
def State.hbmEngine (s : State) (bs : List (Nat × Byte)) : State :=
  bs.foldl (fun s b => s.setSector b.1 false) (s.hbmWrite bs)

/-! ## Atomic operations (R249) -/

/-- R249: the new memory value of an AMO and its flags. -/
def amoNew (op old : Nat) (a b : Word) : Nat × Nat :=
  let o : Word := .ofNat 64 old
  match op with
  | 0 => ((o + a).toNat, 0)
  | 1 => (a.toNat, 0)
  | 2 => (if o = a then b.toNat else old, 0)
  | 3 => (if a.slt o then a.toNat else old, 0)
  | 4 => (if o.slt a then a.toNat else old, 0)
  | 5 => (min old a.toNat, 0)
  | 6 => (max old a.toNat, 0)
  | 7 => ((o &&& a).toNat, 0)
  | 8 => ((o ||| a).toNat, 0)
  | 9 => ((o ^^^ a).toNat, 0)
  | 10 => round fmtF 0 false false (Num.add 0 (fmtF.value old) (fmtF.value (fld a.toNat 0 32)))
  | 11 => round fmtD 0 false false (Num.add 0 (fmtD.value old) (fmtD.value a.toNat))
  | _ =>
    let (r, fl) := mergeRec (.ofNat 128 old) (.ofNat 128 (a.toNat + 2 ^ 64 * b.toNat))
    (r.toNat, fl)

/-- R249: the width of an operation at the place that serves it. -/
def amoBytes (op : Nat) : Nat := if op = 10 then 4 else if op = 12 then 16 else 8

/-- R249: an AMO on bytes: the new bytes, and the answer. -/
def amoOn (op : Nat) (a b : Word) (old : List Byte) : List Byte × Rsp :=
  let (v, fl) := amoNew op (numLE old) a b
  (bytesLE old.length v, .data old fl false)

/-! ## Remote ports (R107, R344) -/

/-- The BADDR of an access at a plot (R7). -/
def Acc.baddr (a : Acc) (plot : Nat) : Word := .ofNat 64 (3 * 2 ^ 62 + plot * 2 ^ 26 + a.buf * 2 ^ 24 + a.addr)

/-- R103: a synchronising load (0 ldsync, 1 ldfe) is served at a plot: the word is read and, for ldfe, emptied. -/
def State.portGive (s : State) (p : Nat) (m : Packet) (a : Acc) (fe : Bool) : State :=
  match s.readBuf p a.buf (span a.addr 8) with
  | .error _ => s.reply m a.who (.trap .loadFault (a.baddr (s.plotId p)))
  | .ok (bs, s) =>
    let s := if fe then s.modBufs p fun b => b.setEmpty a.buf (a.addr / 8) true else s
    s.reply m a.who (.data bs 0 false)

/-- R103: two accesses wait for one bit of a remote port. -/
def sameBit (p : Nat) (a : Acc) (e : Acc × Nat × Nat) : Bool := e.2.1 == p && e.1.buf == a.buf && e.1.addr / 8 == a.addr / 8

/-- R116: the bytes of a vector row from a buffer or a memory: what is not read is 0. -/
def laneBytes (act : List Nat) (byte : Nat → Byte) : List Byte := (List.range 32).map fun i => if i ∈ act then byte i else 0

/-- R106: an access is a write, of which its sender hears twice where the far end can reject it. -/
def Acc.told (a : Acc) : Bool :=
  match a.op with
  | .store _ => true
  | .sync op _ => decide (2 ≤ op)
  | _ => false

/-- A write whose sender has the acceptance, and that is not performed yet. -/
def State.wasAccepted (s : State) (a : Acc) : Bool := s.checked.any fun e => e.1 == a.who

/-- R106, R344, R21: the tenant check of a write that has reached the place that serves it, if it is such a write and has not been
checked: the acceptance leaves and the write stays to be performed, or it is refused. Earlier packets of its stream have been served or
checked, so that the order in which writes are accepted is one in which they reach the place (R18). -/
def State.checkIn (s : State) (k : Nat) (here : Endpoint → Bool) : Option State :=
  match s.net[k]? with
  | none => none
  | some m => match m.body with
    | .acc a =>
      let passed := fun (e : Packet) => match e.body with
        | .acc b => s.wasAccepted b
        | _ => false
      if !a.told || !here m.dst || s.wasAccepted a || (s.net.take k).any (fun e => decide (e.stream = m.stream) && !passed e) then none
      else
        let yes := { s with checked := s.checked ++ [(a.who, m.dst)] }.reply m a.who .accept
        match m.dst with
        | .plot id => some (if (s.plot (id % 2 ^ 20)).takes m.tenant then yes else ((s.takeMsg k).mismatchAt (id % 2 ^ 20)).reply m a.who .reject)
        | .peer _ =>
          some (if m.tenant == 0 || s.owns m.tenant a.addr then yes
            else { s.takeMsg k with mismatch := s.mismatch + 1 }.reply m a.who .reject)
        | _ => none
    | _ => none

/-- R344: a write is performed: its acknowledgement leaves. -/
def State.written (s : State) (m : Packet) (a : Acc) : State :=
  { s with checked := s.checked.filter fun e => e.1 != a.who }.reply m a.who (.words [] 0)

/-- R21, R106: an access is refused for its partition: it is discarded, and its sender is told. -/
def State.refuse (s : State) (m : Packet) (a : Acc) : State :=
  { s with checked := s.checked.filter fun e => e.1 != a.who }.reply m a.who .reject

/-- R344: the access is the next one in a remote port's order: no accepted write before it is still to be performed. -/
def State.portTurn (s : State) (dst : Endpoint) (w : Who) : Bool :=
  match s.checked.find? fun e => e.2 == dst with
  | some e => e.1 == w
  | none => true

/-- R344: a remote port performs an access in class 3. -/
def State.portServe (s : State) (p : Nat) (m : Packet) (a : Acc) : State :=
  match a.op with
  | .load n =>
    match s.readBuf p a.buf (span a.addr n) with
    | .error _ => s.reply m a.who (.trap .loadFault (a.baddr (s.plotId p)))
    | .ok (bs, s) => s.reply m a.who (.data bs 0 false)
  | .lanes act =>
    match s.readLanes p a.buf (span a.addr 32) (act.map (a.addr + ·)) with
    | .error _ => s.reply m a.who (.trap .loadFault (a.baddr (s.plotId p)))
    | .ok (_, t) => t.reply m a.who (.data (laneBytes act fun i => (s.plot p).bufs.byte a.buf (a.addr + i)) 0 false)
  | .store bs => (s.modBufs p fun b => b.writeEngine a.buf (bs.map fun x => (a.addr + x.1, x.2))).written m a
  | .sync op w =>
    if op = 2 then (s.modBufs p fun b => b.writeEngine a.buf (placed a.addr (bytesLE 8 w.toNat))).written m a
    else if op = 3 then (s.modBufs p fun b => b.setEmpty a.buf (a.addr / 8) true).written m a
    else if (s.plot p).bufs.wordEmpty a.buf (a.addr / 8) || s.parkedPort.any (sameBit p a) then
      if (s.parkedPort.filter fun e => e.2.1 == p).length < Config.portParks then
        { s with parkedPort := s.parkedPort ++ [(a, p, m.tenant)] }
      else { s with resend := s.resend ++ [(s.now + Config.resendAfter, m)] }
    else s.portGive p m a (op == 1)
  | .amo op x y =>
    match s.readBuf p a.buf (span a.addr (amoBytes op)) with
    | .error _ => s.reply m a.who (.trap .loadFault (a.baddr (s.plotId p)))
    | .ok (old, s) =>
      let (new, r) := amoOn op x y old
      (s.modBufs p fun b => b.writeEngine a.buf (placed a.addr new)).reply m a.who r

/-- R344, R95: an engine that uses a plot's buffer comes after the writes that the plot's remote port has accepted: they are performed. -/
def State.settlePort (s : State) (plot : Nat) : State :=
  (s.checked.filter fun e => e.2 == .plot plot).foldl (fun s e =>
    match s.net.findIdx? fun m => (match m.body with
      | .acc a => a.who == e.1
      | _ => false) with
    | some k => match s.net[k]? with
      | some m => match m.body with
        | .acc a => (s.takeMsg k).portServe (plot % 2 ^ 20) m a
        | _ => s
      | none => s
    | none => s) s

/-- An access is an AMO. -/
def Acc.isAmo (a : Acc) : Bool := match a.op with
  | .amo _ _ _ => true
  | _ => false

/-- A plot of this package. -/
def State.portHere (s : State) : Endpoint → Bool
  | .plot id => id / 2 ^ 20 == s.pkg
  | _ => false

/-- R107, R344, R21: a remote port accepts a write, or performs an access that is no AMO and whose turn it is. -/
def execRemotePortAccess (k : Nat) (s : State) : Res :=
  match s.checkIn k s.portHere with
  | some t => .next t
  | none => s.onMsg k fun t m => match m.body with
    | .acc a =>
      if a.isAmo || !t.portTurn m.dst a.who || (a.told && !t.wasAccepted a) then none
      else t.atPlot m (·.refuse m a) (fun t p => t.portServe p m a)
    | _ => none

/-! ## Base dies (R99, R103, R345, R346) -/

/-- R103: a synchronising load is served at a base die. -/
def State.dieGive (s : State) (m : Packet) (a : Acc) (fe : Bool) : State :=
  let bs := s.hbmRead a.addr 8
  let bad := s.hbmBad a.addr
  (if fe then s.setSector a.addr true else s).reply m a.who (.data bs 0 bad)

/-- R345: a base die performs an access. -/
def State.dieServe (s : State) (m : Packet) (a : Acc) : State :=
  match a.op with
  | .load n => s.reply m a.who (.data (s.hbmRead a.addr n) 0 ((span a.addr n).any s.hbmBad))
  | .lanes act =>
    s.reply m a.who (.data (laneBytes act fun i => Sparse.get 0 s.mem.hbm (a.addr + i)) 0 (act.any fun i => s.hbmBad (a.addr + i)))
  | .store bs => (s.hbmWrite (bs.map fun x => (a.addr + x.1, x.2))).written m a
  | .sync op w =>
    if op = 2 then ((s.hbmWrite (placed a.addr (bytesLE 8 w.toNat))).setSector a.addr false).written m a
    else if op = 3 then (s.setSector a.addr true).written m a
    else if Sparse.get false s.mem.fe (a.addr / 64) || s.parked.any fun e => e.1.addr / 64 == a.addr / 64 then
      if (s.parked.filter fun e => stackOf e.1.addr == stackOf a.addr).length < Config.baseParks then
        { s with parked := s.parked ++ [(a, m.tenant)] }
      else { s with resend := s.resend ++ [(s.now + Config.resendAfter, m)] }
    else s.dieGive m a (op == 1)
  | .amo op x y =>
    let old := s.hbmRead a.addr (amoBytes op)
    -- R338: an uncorrectable word poisons the result; the word is left as it is (log entry 13)
    if (span a.addr (amoBytes op)).any s.hbmBad then s.reply m a.who (.data old 0 true)
    else
      let (new, r) := amoOn op x y old
      (s.hbmWrite (placed a.addr new)).reply m a.who r

/-- The package that a packet comes from. -/
def Packet.from_ (m : Packet) : Option Nat := match m.src with
  | .plot id => some (id / 2 ^ 20)
  | .peer pkg => some pkg
  | _ => none

/-- R346: every earlier access of the connection (package and tenant) has been performed: none is under way to this package's base dies,
and none is parked there. -/
def State.peerTurn (s : State) (k : Nat) (m : Packet) : Bool :=
  match m.dst with
  | .peer _ =>
    !((s.net.take k).any fun e => decide (e.cls = .req) && e.tenant == m.tenant && e.from_ == m.from_ && match e.dst with
      | .peer _ => true
      | _ => false) &&
    (m.from_ == some s.pkg || !s.parked.any fun e => m.from_ == some (e.1.who.plot / 2 ^ 20) && e.2 == m.tenant)
  | _ => true

/-- Bytes that an access touches. -/
def Acc.range (a : Acc) : List Nat := match a.op with
  | .load n => span a.addr n
  | .lanes act => act.map (a.addr + ·)
  | .store bs => bs.map fun b => a.addr + b.1
  | .sync _ _ => span a.addr 8
  | .amo op _ _ => span a.addr (amoBytes op)

/-- Two accesses share a byte. -/
def Acc.meets (a b : Acc) : Bool := a.range.any fun x => x ∈ b.range

/-- An access of a task that comes before another of its accesses to a byte of it (R113). -/
def Acc.before (b a : Acc) : Bool := b.who.plot == a.who.plot && b.who.task == a.who.task && decide (b.who.id < a.who.id) && b.meets a

/-- R103: a synchronising load of a sector. -/
def Acc.waitsOn (b a : Acc) : Bool := match b.op with
  | .sync op _ => decide (op < 2) && b.addr / 64 == a.addr / 64
  | _ => false

/-- A packet is an access to HBM of this package that meets a condition. -/
def Packet.hbmAcc (k : Packet) (f : Acc → Bool) : Bool := match k.body, k.dst with
  | .acc b, .base _ => f b
  | .acc b, .peer _ => f b
  | _, _ => false

/-- R113, R342, R345: a base die may perform an access: its task's earlier accesses to its bytes have been performed; and, of its stream, so
have the earlier synchronising loads of its sector where it is one (R103). -/
def State.dieTurn (s : State) (k : Nat) (m : Packet) (a : Acc) : Bool :=
  !(s.net.any fun e => e.hbmAcc (·.before a)) && !(s.parked.any fun e => e.1.before a) && !(s.resend.any fun e => e.2.hbmAcc (·.before a)) &&
    !(a.waitsOn a && (s.net.take k).any fun e => decide (e.stream = m.stream) && e.hbmAcc (·.waitsOn a))

/-- R345, R346, R104, R21: an access at a base die, or at the peer's base die, once it is its turn. The memory's owner is compared. -/
def State.atDie (s : State) (k : Nat) (m : Packet) (a : Acc) : Option State :=
  let here := match m.dst with
    | .base _ => true
    | .peer pkg => pkg == s.pkg && (!a.told || s.wasAccepted a)
    | _ => false
  if !here || !s.peerTurn k m || !s.dieTurn k m a then none
  else if m.tenant == 0 || s.owns m.tenant a.addr then some (s.dieServe m a)
  else some ({ s with mismatch := s.mismatch + 1 }.refuse m a)

/-- R286, R287, R346: a piece of a PUTS is performed here, or a piece asked by a GET is read in its turn; a foreign tenant is refused. -/
def State.pieceAt (s : State) (m : Packet) (turn : Bool) : Option State :=
  let own := fun (as : List Nat) => m.tenant == 0 || as.all fun a => s.owns m.tenant a
  let refused := { s with mismatch := s.mismatch + 1 }
  match m.body with
  | .copyOut f w bs full =>
    if own (bs.map (·.1)) then
      let t := full.foldl (fun t a => t.setSector a false) (s.hbmWrite bs)
      some (t.push ⟨.rsp, m.dst, m.src, m.tenant, .copyAck f w true⟩)
    else some (refused.push ⟨.rsp, m.dst, m.src, m.tenant, .copyAck f w false⟩)
  | .copyAsk f w pos as =>
    if !turn then none
    else if !own as then some (refused.push ⟨.rsp, m.dst, m.src, m.tenant, .copyIn f w pos none⟩)
    else if as.any s.hbmBad then some (s.push ⟨.rsp, m.dst, m.src, m.tenant, .copyIn f w pos none⟩)
    else some (s.push ⟨.chi, m.dst, m.src, m.tenant, .copyIn f w pos (some (as.map fun a => Sparse.get 0 s.mem.hbm a))⟩)
  | _ => none

/-- This package, as a peer. -/
def State.peerHere (s : State) : Endpoint → Bool
  | .peer pkg => pkg == s.pkg
  | _ => false

/-- R345, R346, R106: a base die accepts a peer's write, or performs a load, store or synchronising access whose turn it is. -/
def execBaseDieAccess (k : Nat) (s : State) : Res :=
  match s.checkIn k s.peerHere with
  | some t => .next t
  | none => s.onMsg k fun t m => match m.body with
    | .acc a => if a.isAmo then none else t.atDie k m a
    | _ => t.pieceAt m (s.peerTurn k m)

/-- R103: how a parked load at a base die is answered: its home, as the request found it. -/
def State.parkedMsg (s : State) (e : Acc × Nat) : Packet :=
  ⟨.req, .plot e.1.who.plot, if e.1.who.plot / 2 ^ 20 = s.pkg then .base (stackOf e.1.addr) else .peer s.pkg, e.2, .acc e.1⟩

/-- The operation of a synchronising access is ldfe. -/
def Acc.empties (a : Acc) : Bool := match a.op with
  | .sync op _ => op == 1
  | _ => false

/-- R103: a parked load is served: its bit is full and it is the first that waits for it. The numbers count the base dies'
first and then the remote ports'. -/
def execParkedRequestServe (k : Nat) (s : State) : Res :=
  match s.parked[k]? with
  | some e =>
    if Sparse.get false s.mem.fe (e.1.addr / 64) || (s.parked.take k).any fun x => x.1.addr / 64 == e.1.addr / 64 then .next s
    else .next ({ s with parked := s.parked.eraseIdx k }.dieGive (s.parkedMsg e) e.1 e.1.empties)
  | none =>
    let j := k - s.parked.length
    match s.parkedPort[j]? with
    | none => .next s
    | some (a, p, tn) =>
      if (s.plot p).bufs.wordEmpty a.buf (a.addr / 8) || (s.parkedPort.take j).any (sameBit p a) then .next s
      else
        let m : Packet := ⟨.req, .plot a.who.plot, .plot (s.plotId p), tn, .acc a⟩
        .next ({ s with parkedPort := s.parkedPort.eraseIdx j }.portGive p m a a.empties)

/-- R103, R239: a request that found no room is sent again after 256 cc. -/
def execRequestResend (k : Nat) (s : State) : Res :=
  match s.resend[k]? with
  | none => .next s
  | some (t, m) => if s.now < t then .next s else .next ({ s with resend := s.resend.eraseIdx k }.push m)

/-! ## HOST (R104, R347) -/

/-- Writes bytes of host memory. -/
def State.hostWrite (s : State) (bs : List (Nat × Byte)) : State :=
  { s with mem := { s.mem with host := bs.foldl (fun h b => Sparse.set 0 h b.1 b.2) s.mem.host } }

/-- R347: a HOST access takes effect, and its answer leaves from headworks 0. -/
def State.hostServe (s : State) (a : Acc) (tenant : Nat) : State :=
  let m : Packet := ⟨.req, .plot a.who.plot, .head 0, tenant, .acc a⟩
  match a.op with
  | .load n => s.reply m a.who (.data (Sparse.getN 0 s.mem.host a.addr n) 0 false)
  | .lanes act => s.reply m a.who (.data (laneBytes act fun i => Sparse.get 0 s.mem.host (a.addr + i)) 0 false)
  | .store bs => (s.hostWrite (bs.map fun x => (a.addr + x.1, x.2))).reply m a.who (.words [] 0)
  | .amo op x y =>
    let (new, r) := amoOn op x y (Sparse.getN 0 s.mem.host a.addr (amoBytes op))
    (s.hostWrite (placed a.addr new)).reply m a.who r
  -- R103: host memory has no bits; no synchronising access leaves a plot for it
  | .sync _ _ => s.reply m a.who .reject

/-- R104, R347: headworks 0 takes a HOST access, which takes effect on CXL completion. -/
def execHostRequest (k : Nat) (s : State) : Res :=
  s.onMsg k fun s m => match m.body, m.dst with
    | .acc a, .head 0 => some { s with host := { s.host with cxl := s.host.cxl ++ [(a, m.src, m.tenant)] } }
    | _, _ => none

/-- R347, R379, R375: a CXL completion; numbers beyond the accesses name connection states that spill. The access takes effect, after earlier ones
that touch its bytes, and its answer carries its sender's tenant (R21). A result of the proxy is followed by its status word. -/
def execCxlCompletion (k : Nat) (s : State) : Res :=
  match s.host.cxl[k]? with
  | none => match s.link.spills[k - s.host.cxl.length]? with
    | some (a, bs) => .next ({ s with link := { s.link with spills := s.link.spills.eraseIdx (k - s.host.cxl.length) } }.hostWrite (placed a bs))
    | none => .next s
  | some (a, src, tenant) =>
    if (s.host.cxl.take k).any fun e => e.1.meets a then .next s
    else
      let t := { s with host := { s.host with cxl := s.host.cxl.eraseIdx k } }
      match src with
      | .damkar =>
        let t : State := match a.op with
          | .store bs => t.hostWrite (bs.map fun x => (a.addr + x.1, x.2))
          | _ => t
        match t.host.results.find? fun r => r.1 == a.addr with
        | some (r, w) => .next { t with host := { t.host with
            results := t.host.results.filter fun e => e != (r, w)
            cxl := t.host.cxl ++ [(⟨⟨0, 0, 0⟩, 4, r + 8, .store (placed 0 (bytesLE 8 w.toNat))⟩, .damkar, 0)] } }
        | none => .next t
      | _ => .next (t.hostServe a tenant)

/-- R250: the place that serves an AMO performs it: a remote port, a base die, a peer's base die, or headworks 0. -/
def execAmoServe (k : Nat) (s : State) : Res :=
  s.onMsg k fun t m => match m.body with
    | .acc a =>
      if !a.isAmo then none
      else match m.dst with
        | .plot _ =>
          if !t.portTurn m.dst a.who then none
          else t.atPlot m (·.refuse m a) (fun t p => t.portServe p m a)
        | .head 0 => if t.host.cxl.any fun e => e.1.meets a then none else some (t.hostServe a m.tenant)
        | _ => t.atDie k m a
    | _ => none

/-! ## Answers, port words, translations, the engine -/

/-- Writes the register of a number of R60. -/
def Regs.setAny (x : Regs) (r : Nat) (v : V256) : Regs :=
  if r < 64 then x.setGv r (v.setWidth 64)
  else if r < 80 then x.setVv (r - 64) v
  else x.setSv (r - 80) (v.setWidth 128)

/-- R79, R61: a multi-cycle result is written to its register, or into its slot. -/
def execMulticycleResult (p c k : Nat) (s : State) : Res :=
  let x := s.ctx p c
  match x.multi[k]? with
  | none => .next s
  | some r =>
    let s := s.modCtx p c fun x => { x with multi := x.multi.eraseIdx k }
    let s := if r.div then s.modPlot p (fun x => { x with divBusy := none }) else s
    if isPort r.reg then
      .next (s.modPlot p fun x => { x with outq := Sparse.set [] x.outq (r.reg - 60) ((x.outbound (r.reg - 60)).map fun e =>
        if e.id = r.slot && e.word.isNone then { e with word := some (r.val.setWidth 64) } else e) })
    else .next (s.modCtx p c fun x => { x with regs := x.regs.setAny r.reg r.val })

/-- The task of an answer is held for this very answer. -/
def State.heldFor (s : State) (w : Who) : Bool :=
  let x := s.plot (w.plot % 2 ^ 20)
  match x.find w.task with
  | none => false
  | some pl => match (x.at_ pl).hold with
    | some h => h.id == w.id
    | none => false

/-- R59, R63, R249: an answer reaches a task that is not held for it. -/
def execLongLatencyResponse (k : Nat) (s : State) : Res :=
  s.onMsg k fun s m => match m.body, m.cls with
    | .rsp w r, .rsp => if s.heldFor w then none else s.atPlot m id (fun s _ => s.answer w r)
    | _, _ => none

/-- R240: the answer of a headgate unit is a grant: it names the record's target, its virtual address, and the mode. -/
def Rsp.isGrant : Rsp → Bool
  | .words [_, _, _] _ => true
  | _ => false

/-- R274: an answer with an element reaches the plot; for a task that is gone the element goes back to the weir it came from. -/
def State.poolArrive (s : State) (m : Packet) (w : Who) (r : Rsp) (q : Nat) (e : Elem) : State :=
  match (s.plot (w.plot % 2 ^ 20)).find w.task with
  | some _ => s.answer w r
  | none => s.push ⟨.req, m.dst, m.src, m.tenant, .unput q e⟩

/-- R106, R238, R261, R281, R324: an answer, or one of the acknowledgements awaited, reaches a task that is held for it. -/
def execHeldAccessResponse (k : Nat) (s : State) : Res :=
  s.onMsg k fun s m => match m.body, m.cls with
    | .rsp w r, .rsp => if s.heldFor w then s.atPlot m id (fun s _ => s.answer w r) else none
    | .gateAns w r, _ => if r.isGrant then none else s.atPlot m id (fun s _ => match r with
        | .trap _ _ => s.answer w r
        | _ => s.ackOne w)
    | .poolAns w r q e, _ => s.atPlot m id (fun s _ => s.poolArrive m w r q e)
    | .bindAck w, _ => s.atPlot m id (fun s _ => s.ackOne w)
    | .sysAck w, _ => s.atPlot m id (fun s _ => s.ackOne w)
    | _, _ => none

/-- R224: the answer to an await. -/
def execAwaitAnswer (k : Nat) (s : State) : Res :=
  s.onMsg k fun s m => match m.body, m.cls with
    | .rsp w r, .clo => s.atPlot m id (fun s _ => s.answer w r)
    | _, _ => none

/-- R10: the port of the neighbour that leads back. -/
def opposite (dir : Nat) : Nat := (dir + 2) % 4

/-- R74, R21: the first word of an outbound queue goes to the neighbour, while its queue has room. -/
def execPortWordTransfer (p dir : Nat) (s : State) : Res :=
  match neighbour p dir, (s.plot p).outbound dir with
  | some q, ⟨_, some w⟩ :: rest =>
    let y := s.plot q
    if 8 ≤ (y.inbound (opposite dir)).length then .next s
    else
      let s := s.modPlot p fun x => { x with outq := Sparse.set [] x.outq dir rest }
      if y.tenant ≠ (s.plot p).tenant then .next (s.mismatchAt q)
      else .next (s.modPlot q fun y => { y with inq := Sparse.set [] y.inq (opposite dir) (y.inbound (opposite dir) ++ [w]) })
  | _, _ => .next s

/-- R111: the service's answer to a miss: it enters the micro-TLB and the field's TLB (a full one drops the entry that was installed first: log
entry 66), or every task that waits for the page, in a context or spilled (R186), takes the fault at its next attempt (R110). -/
def execTranslationComplete (p k : Nat) (s : State) : Res :=
  match (s.plot p).xreq[k]? with
  | none => .next s
  | some (_, page) =>
    let ts := ((s.plot p).xreq.filter fun e => e.2 == page).map (·.1)
    let ans := s.service p (page * 2 ^ 16)
    let s := s.modPlot p fun x => { x with xreq := x.xreq.filter fun e => e.2 != page }
    match ans with
    | some e =>
      let s := s.modPlot p fun x => { x with utlb := (e :: x.utlb).take 16 }
      let t := (Sparse.get Field.reset s.fields (fieldOf p)).tlb
      .next { s with fields := Sparse.modify Field.reset s.fields (fieldOf p) fun f =>
        { f with tlb := if e ∈ t then t else (e :: t).take 32768 } }
    | none => .next (ts.foldl (fun s n => s.modTask p n fun x => { x with xfault := some page }) s)

/-- R138: the free engine is granted. -/
def execEngineGrant (p : Nat) (s : State) : Res :=
  let e := (s.plot p).engine
  match e.running, (s.plot p).nextMul none with
  | none, some c => .next (s.modPlot p fun x => { x with engine := { running := some c, waiting := e.waiting.filter (· != c) } })
  | _, _ => .next s

end Sys2Proof.Machine
end

