-- ==== Sys2Proof/Machine/Sched.lean ====
section
/-!
DEFINITION. The plot scheduler (09, R178 to R203): ready tasks and their order, task starts, spills and restores, the floor
tick, sleeps, furrow joins and time-outs, and the end of a quantum. The order in which contexts issue is in
Sys2Proof/Machine/Select.lean.
-/

namespace Sys2Proof.Machine

open Sys2Proof

/-! ## Ready tasks -/

/-- R140: the instruction of a context, or of an image, names a group that another task's multiply holds. -/
def Plot.namesHeld (x : Plot) (y : Ctx) : Bool := y.mul.names.any fun t => match (x.group (x.base t)).held with
  | some k => !(if k < 4 then (x.ctx k).csr.taskid == y.csr.taskid else k == 4 + y.csr.taskid)
  | none => false

/-- The condition of a block has cleared. A yielded multiply waits for the engine and counts as ready;
a context whose instruction names a held group counts as blocked (R140). -/
def Plot.cleared (x : Plot) (y : Ctx) : Wait → Bool
  | .source r => if isPort r then !(x.inbound (r - 60)).isEmpty else !y.regs.isEmpty r
  | .word buf i =>
    !(match buf with
      | 0 => Sparse.get false x.bufs.ea i
      | 1 => Sparse.get false x.bufs.ew i
      | _ => Sparse.get false x.bufs.ec i)
  | .multi r => !y.multi.any fun m => m.reg == r
  | .dest r => !y.pending r
  | .port dir => decide ((x.outbound dir).length < 8)
  | .divider => x.divBusy.isNone
  | .credit | .boundary => true
  | .engine => x.hasYielded y || (!x.namesHeld y && match x.engine.running with
    | some k => (x.ctx k).csr.taskid == y.csr.taskid
    | none => true)
  | .steps => true
  -- the queues are on other plots: see `State.noteFollow`
  | .followQueue => false
  | .ownStore => !y.ownStore
  | .follow => y.furrow.leader.isNone || !y.furrow.queue.isEmpty
  | .heldGroup t => match (x.group t).held with
    | some k => (x.ctx k).csr.taskid == y.csr.taskid && decide (k < 4)
    | none => true
  | .translation va => (x.utlb.any fun e => decide (e.va / 2 ^ 16 ≤ va) && decide (va < (e.va + e.bytes) / 2 ^ 16)) || y.xfault.isSome
  | .record => x.freeRec.isSome
  | .copyRecord => decide (y.copies.length < 8)
  | .fence scope => !y.outst.any (fenceWaits scope)
  | .release ids => !y.outst.any (fenceWaits 3) && !y.copies.any fun c => !c.failed && ids.contains c.id
  | .barrier => !x.atBarrier
  | .stream => !y.outst.any fun o => match o.act with
    | .stream _ => true
    | _ => false

/-- R182: a context, or an image, is not blocked. -/
def Plot.canIssue (x : Plot) (y : Ctx) : Bool :=
  !y.ended && !y.halted && y.hold.isNone && (y.furrow.leader.isNone || !y.furrow.queue.isEmpty) && match y.block with
    | some b => x.cleared y b.why
    | none => true

/-- R198: a leader whose followers have no room is blocked, and goes on when they have. -/
def State.noteFollow (s : State) (p : Nat) : State :=
  let full := fun (y : Ctx) => y.furrow.followers.any fun f => decide (16 ≤ (s.ctx f.1 f.2).furrow.queue.length)
  let mark := fun (y : Ctx) => match y.block with
    | none =>
      if full y && y.live && y.hold.isNone && y.pair.isNone then { y with block := some ⟨.followQueue, s.now⟩, issued := true, quantum := none }
      else y
    | some b => if b.why = .followQueue && !full y then { y with block := none, readySince := s.now, issued := false } else y
  let x := s.plot p
  if ((List.range 4).map x.ctx ++ x.sched.images.map (·.1)).all fun y => y.furrow.followers.isEmpty then s
  else s.modPlot p fun x =>
    let x := (List.range 4).foldl (fun x c => if (x.ctx c).live then x.setCtx c (mark (x.ctx c)) else x) x
    { x with sched := { x.sched with images := x.sched.images.map fun i => (mark i.1, i.2) } }

/-- R185: the address after BASE does not show images; their number is what R188 counts. -/
def Plot.slots (x : Plot) : Nat := fldw x.csr.cistern 52 12

/-- R189, R186, R198: what the plot notices as cycles pass: a context whose block has cleared, an image whose condition has
cleared, a follower that has no entry and is in follow wait (R198), a leader that stalls its followers. -/
def Plot.refresh (x : Plot) (now : Nat) : Plot :=
  let stalls := fun (y : Ctx) => y.furrow.lead && (decide (0 < y.handlers) || y.halted)
  let wait := fun (y : Ctx) =>
    if y.furrow.leader.isSome && y.furrow.queue.isEmpty && y.hold.isNone && y.block.isNone && y.pair.isNone && !y.ended then
      { y with block := some ⟨.follow, now⟩, issued := true, quantum := none }
    else y
  let mark := fun (y : Ctx) =>
    let since := if stalls y then some (y.furrow.stall.getD now) else none
    { y with furrow := { y.furrow with stall := since } }
  let x := (List.range 4).foldl (fun x c =>
    let y := wait (x.ctx c)
    if y.live then x.setCtx c (mark (if y.issued && y.block.isSome && !y.goesOn && x.canIssue y then { y with readySince := now, issued := false } else y))
    else x) x
  let busy := (List.range 4).any (fun c => (x.ctx c).live) || x.queues.any fun q => !q.2.isEmpty
  { x with sched := { x.sched with
      idleSince := if busy then now else x.sched.idleSince
      images := x.sched.images.map fun i => match i.2 with
        | some _ => i
        | none => if x.canIssue i.1 then (i.1, some now) else i } }

/-- A waiting ready task: its priority, when it became ready, and where it is: a message (0, channel, place in the queue), an
image (1, TASKID, 0), or a context (2, CTXID, 0). -/
structure Cand where
  pri : Nat
  ready : Nat
  kind : Nat
  num : Nat
  idx : Nat
  deriving DecidableEq, Repr

/-- R187: the order among ready tasks, whatever their priority. -/
def Cand.age (x : Cand) : List Nat := [x.ready, x.kind, x.num, x.idx]

/-- R184, R187: the order among ready tasks. -/
def Cand.key (x : Cand) : List Nat := (7 - x.pri) :: x.age

/-- R180: the priority of a queued message. -/
def Queued.pri (q : Queued) (c : Chan) : Nat := match q with
  | .inv i => i.pri.getD c.pri
  | .raw _ _ => c.pri

/-- R180, R187: the waiting ready tasks in the channel queues. -/
def Plot.messages (x : Plot) : List Cand :=
  (List.range 64).flatMap fun k =>
    let c := x.chan k
    if c.blk then [] else (x.queue k).zipIdx.map fun q => ⟨q.1.2.pri c, max q.1.1 c.unblocked, 0, k, q.2⟩

/-- R186, R187: the waiting ready tasks in images. -/
def Plot.spilled (x : Plot) : List Cand :=
  x.sched.images.filterMap fun i => i.2.map fun t => ⟨i.1.csr.taskpri, t, 1, i.1.csr.taskid, 0⟩

/-- R189: the task that the floor tick chose, while it still waits: a message that a recv has taken no longer does. -/
def Plot.floorTask (x : Plot) : Option Cand :=
  match x.sched.floorWaiter with
  | some w => (x.messages ++ x.spilled).find? fun c => (if c.kind = 0 then 2 * c.num else 2 * c.num + 1) == w && decide (c.idx = 0)
  | none => none

/-- R184: the ready task that waits first. The one that the floor tick chose goes before all (R189). -/
def Plot.best (x : Plot) : Option Cand :=
  match x.floorTask with
  | some c => some c
  | none => firstBy Cand.key (x.messages ++ x.spilled)

/-- R181: a free context; the lowest-numbered is taken (DESIGN CHOICE, log entry 14). -/
def Plot.freeCtx (x : Plot) : Option Nat := (List.range 4).find? fun c => !(x.ctx c).live

/-- R189: the chosen task has its context: the quantum begins. -/
def Plot.floorGo (x : Plot) (c : Nat) (w : Nat) : Plot :=
  if x.sched.floorWaiter = some w then
    { x.setCtx c { x.ctx c with quantum := some 256 } with sched := { x.sched with floorWaiter := none } }
  else x

/-! ## Task start (R181, R215, R130, R243, R331) -/

/-- R181, R130, R331: the CSRs of a task that starts from a channel. -/
def State.startCsrs (s : State) (p k pri : Nat) : Csrs :=
  let x := s.plot p
  let n := x.sched.serial
  let r : Csrs := { Csrs.reset with
    taskid := n, taskpri := pri
    rngkeylo := x.csr.seedlo ^^^ .ofNat 64 (s.plotId p)
    rngkeyhi := x.csr.seedhi ^^^ .ofNat 64 n }
  if bitw x.tmpl.mask k then { r with bka := x.tmpl.bka, wpa := x.tmpl.wpa, wpm := x.tmpl.wpm, dbgctl := x.tmpl.dbgctl } else r

/-- R181, R215: the registers of a task that starts from a message. -/
def Queued.regs (q : Queued) : Regs :=
  let set := fun (r : Regs) (d : Nat) (w : Word) => r.setGv d w
  match q with
  | .raw ws sender => set ((ws.zipIdx.foldl (fun r a => set r (3 + a.2) a.1)) Regs.reset) 13 (.ofNat 64 (fldw sender 0 36))
  | .inv i =>
    let r := i.args.zipIdx.foldl (fun r a => set r (3 + a.2) a.1) Regs.reset
    let r := set r 11 (if i.mc then 0 else i.target)
    let r := set r 12 i.parent
    set r 13 (.ofNat 64 (fldw i.sender 0 36))

/-- R181: a task starts in a context of a plot from a message of a channel. The records whose entries the message carries go on naming the
invoker in XTASK and XPLOT (R243, R235; DESIGN CHOICE, log entry 89). -/
def State.startTask (s : State) (p c k : Nat) (q : Queued) (pri : Nat) : State :=
  let csr := s.startCsrs p k pri
  let (task, gates) : Task × List Gate := match q with
    | .raw _ sender => (⟨k, 0, 0, sender⟩, [])
    | .inv i => (⟨k, i.promise, i.parent, i.sender⟩, i.caps)
  let y : Ctx := { Ctx.empty with
    live := true, pc := .ofNat 64 (4 * ((s.plot p).chan k).epc), regs := q.regs, csr := csr, task := task, gates := gates,
    readySince := s.now }
  ({ s with started := Sparse.modify [] s.started p fun l => l ++ [Started.mk csr.taskid k task.promise] }.setCtx p c y).modPlot p fun x =>
    { x with sched := { x.sched with serial := x.sched.serial + 1 } }

/-- R181, R187: a ready queued message starts in a free context. -/
def execTaskStart (p : Nat) (s : State) : Res :=
  let s := s.modPlot p (·.refresh s.now)
  match (s.plot p).best, (s.plot p).freeCtx with
  | some b, some c =>
    if b.kind ≠ 0 then .next s
    else match (s.plot p).queue b.num |>.drop b.idx with
      | (_, q) :: _ =>
        let s := s.modPlot p fun x => x.setQueue b.num ((x.queue b.num).eraseIdx b.idx)
        .next ((s.startTask p c b.num q b.pri).modPlot p (·.floorGo c (2 * b.num)))
      | [] => .next s
  | _, _ => .next s

/-- R191: the context of an ended task frees once its results and held responses are in. -/
def execContextFree (p c : Nat) (s : State) : Res :=
  let x := s.ctx p c
  if x.live && x.ended && x.multi.isEmpty && x.hold.isNone then
    let s := match x.furrow.leader with
      | some (lp, task) => s.modTask lp task fun y => { y with furrow := { y.furrow with followers := y.furrow.followers.filter (· != (p, c)) } }
      | none => s
    .next (s.freeCtx p c)
  else .next s

/-! ## Spill and restore (R184 to R188) -/

/-- R184: the order among the contexts that may be spilled. -/
def Plot.victimKey (x : Plot) (c : Nat) : List Nat :=
  let y := x.ctx c
  let can := x.canIssue y
  let since := match y.hold, y.block with
    | some h, _ => h.since
    | none, some b => b.since
    | none, none => y.lastIssue
  [y.csr.taskpri, bit can, if can then y.lastIssue else since, c]

/-- R184: the candidate, for waiting tasks of at most a priority; none when the floor tick chooses (R189). A task in its quantum is no
candidate but for another floor tick: R184 applies to it again after the quantum (R189). -/
def Plot.victim (x : Plot) (pri : Option Nat) : Option Nat :=
  let ok := fun c => match pri with
    | none => true
    | some p => if x.canIssue (x.ctx c) then decide ((x.ctx c).csr.taskpri < p) else decide ((x.ctx c).csr.taskpri ≤ p)
  firstBy x.victimKey ((List.range 4).filter fun c => (x.ctx c).live && !(x.ctx c).ended && (pri.isNone || (x.ctx c).quantum.isNone) && ok c)

/-- R185, R188, R199, R139: a spill of a context starts, or meets a full cistern: SPILL-FULL is due then, unless it is already, or the last that was
raised named the same number. -/
def State.spillOf (s : State) (p c : Nat) : State :=
  let x := s.plot p
  let used := x.sched.images.length
  if x.slots ≤ used then
    if x.sched.lastSpillFull = some used || (List.range 4).any (fun c => (x.ctx c).due.spillFull.isSome) then s
    else s.modCtx p c fun y => { y with due := { y.due with spillFull := some (.ofNat 64 used) } }
  else
    let s := if (x.ctx c).furrow.leader.isSome then s.splitFollower p c 5 else s
    (s.countAt p 9).modPlot p fun x => { x.yieldMul c with sched := { x.sched with spilling := some c } }

/-- R184, R189: the plot considers a spill. -/
def State.considerSpill (s : State) (p : Nat) : State :=
  let x := s.plot p
  if x.freeCtx.isSome || x.sched.spilling.isSome then s
  else match x.best with
    | none => s
    | some b =>
      let pri := if x.floorTask.isSome then none else some b.pri
      match x.victim pri with
      | some c => s.spillOf p c
      | none => s

/-- R184, R185: a spill is considered. -/
def execSpill (p : Nat) (s : State) : Res := .next ((s.modPlot p (·.refresh s.now)).considerSpill p)

/-- R185: the free slot that the next image goes to: the lowest-numbered (DEDUCED, log entry 25). -/
def Sched.freeSlot (x : Sched) : Nat :=
  let used := (x.places.filter fun q => x.images.any fun i => i.1.csr.taskid == q.1).map (·.2)
  ((List.range (x.images.length + 1)).find? fun n => !used.contains n).getD x.images.length

/-- R323: the address of a slot of the cistern. -/
def Plot.slotAt (x : Plot) (n : Nat) : Nat := fldw x.csr.cistern 0 40 + 1536 * n

/-- R185: the image of a task is written to a slot of the plot's cistern. Its bytes are free (log entry 25); an active headgate
record is not overwritten (R236). -/
def State.writeImage (s : State) (p task n : Nat) : State :=
  let b := (s.plot p).slotAt n
  { s with mem := s.mem.write (((List.range 1536).map fun i => (b + i, Config.imageByte p task s.now i)).filter fun c => decide (c.1 < Config.hbmBytes) && !s.gated c.1) }

/-- R185: the image has been written and the context is free. It takes effect once multi-cycle results are in, at a boundary
that no pair crosses; a pair whose instruction holds its context has issued. A task that could issue became ready in that cycle (log entry 73). -/
def execSpillComplete (p : Nat) (s : State) : Res :=
  match (s.plot p).sched.spilling with
  | none => .next s
  | some c =>
    let y := s.ctx p c
    let done := fun (s : State) => s.modPlot p fun x => { x with sched := { x.sched with spilling := none } }
    if !y.live || y.ended then .next (done s)
    else if !y.multi.isEmpty || (y.pair.isSome && y.hold.isNone) || (s.plot p).engine.running = some c then .next s
    else
      let y := { y with furrow := { y.furrow with stall := if y.furrow.lead then some (y.furrow.stall.getD s.now) else none } }
      let n := (s.plot p).sched.freeSlot
      .next (done ((s.writeImage p y.csr.taskid n).modPlot p fun x =>
        let can := x.canIssue y
        let x := { x.setCtx c Ctx.empty with
          engine := { x.engine with waiting := x.engine.waiting.map fun k => if k = c then 4 + y.csr.taskid else k }
          groups := x.groups.map fun (g : Nat × Group) => (g.1, if g.2.held = some c then { g.2 with held := some (4 + y.csr.taskid) } else g.2) }
        { x with sched := { x.sched with images := x.sched.images ++ [(y, if can then some s.now else none)], places := x.sched.places ++ [(y.csr.taskid, n)] } }))

/-- R186: a spilled ready task comes back into a free context. -/
def execRestore (p : Nat) (s : State) : Res :=
  let s := s.modPlot p (·.refresh s.now)
  match (s.plot p).best, (s.plot p).freeCtx with
  | some b, some c =>
    -- R185: one spill or restore at a time
    if b.kind ≠ 1 || (s.plot p).sched.spilling.isSome then .next s
    else match (s.plot p).sched.images.find? fun i => i.1.csr.taskid == b.num with
      | none => .next s
      | some (y, _) =>
        .next (s.modPlot p fun x =>
          let x := x.setCtx c { y with readySince := b.ready, issued := false, furrow := { y.furrow with stall := none } }
          let x := { x with
            engine := { x.engine with waiting := x.engine.waiting.map fun k => if k = 4 + b.num then c else k }
            groups := x.groups.map fun (g : Nat × Group) => (g.1, if g.2.held = some (4 + b.num) then { g.2 with held := some c } else g.2)
            sched := { x.sched with asleep := false, sweep := x.sched.sweep || x.sched.asleep
                                    images := x.sched.images.filter fun i => i.1.csr.taskid != b.num, places := x.sched.places.filter fun q => q.1 != b.num } }
          x.floorGo c (2 * b.num + 1))
  | _, _ => .next s

/-! ## The floor tick and sleep (R189, R193) -/

/-- R201: deterministic mode. -/
def Plot.det (x : Plot) : Bool := bitw x.csr.detctl 0

/-- R189, R203: every 65,536 cc the ready task that has waited longest is granted a quantum. -/
def execFloorTick (p : Nat) (s : State) : Res :=
  let s := s.modPlot p (·.refresh s.now)
  let x := s.plot p
  if s.now % 65536 ≠ 0 || x.det || x.floorTask.isSome then .next s
  else
    let ctxs : List Cand := (List.range 4).filterMap fun c =>
      let y := x.ctx c
      if y.live && !y.issued && x.canIssue y then some ⟨y.csr.taskpri, y.readySince, 2, c, 0⟩ else none
    match firstBy Cand.age (x.messages ++ x.spilled ++ ctxs) with
    | none => .next s
    | some b =>
      if b.kind = 2 then .next (s.modCtx p b.num fun y => { y with quantum := some 256 })
      else
        let w := if b.kind = 0 then 2 * b.num else 2 * b.num + 1
        .next ((s.modPlot p fun x => { x with sched := { x.sched with floorWaiter := some w } }).considerSpill p)

/-- R193: a sleep ends at its wake time: its instruction retires. The wait of a late copy's default action (R314) only ends.
Numbers below 4 are contexts, the others images. -/
def execSleepWake (p k : Nat) (s : State) : Res :=
  let pl := if k < 4 then Place.ctx k else .image (k - 4)
  let y := (s.plot p).at_ pl
  match y.hold with
  | some ⟨.sleep wake, _, _, _, _, left, _⟩ =>
    if s.now < wake then .next s
    else
      let t := s.modPlot p fun x => x.put pl { y with hold := none, readySince := s.now, issued := false } (some s.now)
      .next (if left = 1 then t else t.retireTask p pl)
  | _ => .next s

/-! ## Furrows (R197 to R199) -/

/-- R197: a join request reaches the leader's plot. -/
def execFollowJoin (k : Nat) (s : State) : Res :=
  match s.first k with
  | none => .next s
  | some m =>
    match m.body, m.dst with
    | .join w ctx _ tval, .plot id =>
      if id / 2 ^ 20 ≠ s.pkg then .next s
      else
        let t := s.takeMsg k
        let q := id % 2 ^ 20
        let p := w.plot % 2 ^ 20
        let refuse := fun (s : State) => s.push ⟨.rsp, m.dst, .plot w.plot, m.tenant, .rsp w .reject⟩
        if m.tenant ≠ 0 && m.tenant ≠ (t.plot q).tenant then
          .next (refuse ((t.modPlot q fun x => { x with mismatch := x.mismatch + 1 }).countAt q 13))
        else match (List.range 4).find? fun c => (t.ctx q c).live && !(t.ctx q c).ended && (t.ctx q c).furrow.lead with
          | none => .next (refuse t)
          | some lc =>
            match (t.plot p).find w.task with
            | some (.ctx c) =>
              let t := t.modCtx q lc fun y => { y with furrow := { y.furrow with followers := y.furrow.followers ++ [(p, c)] } }
              let t := t.modCtx p c fun y => { y with
                hold := none
                furrow := { y.furrow with leader := some (q, (t.ctx q lc).csr.taskid), ofs := toInt 5 true (fldw tval 0 5), queue := [] } }
              .next (t.retireTask p (.ctx c))
            | some (.image i) =>
              -- R199: a spilled context follows nobody
              let t := t.modPlot p fun x => x.put (.image i) { x.at_ (.image i) with
                hold := none, furrow := { (x.at_ (.image i)).furrow with lcause := 5 } } none
              let _ := ctx
              .next (t.retireTask p (.image i))
            | none => .next t
    | _, _ => .next s

/-- R199: a follower splits when its leader's stall lasts beyond 65,536 cc. -/
def execFurrowTimeoutSplit (p c : Nat) (s : State) : Res :=
  match (s.ctx p c).furrow.leader with
  | none => .next s
  | some (lp, task) =>
    let s := s.modPlot lp (·.refresh s.now)
    let since := match (s.plot lp).find task with
      | some pl => ((s.plot lp).at_ pl).furrow.stall
      | none => none
    match since with
    | some t => if 65536 < s.now - t then .next (s.splitFollower p c 6) else .next s
    | none => .next s

/-! ## Quanta (R202) -/

/-- R202: the instructions of a quantum. -/
def Plot.quantumLen (x : Plot) : Nat := max 256 (fldw x.csr.detq 0 20)

/-- R202: a context is empty, or blocked on an invocation delivery, a pool take, a headgate grant or an await; or on a pput, which waits for the end
of the quantum as they do (R275; DEDUCED, log entry 115). -/
def Plot.idleDet (x : Plot) (c : Nat) : Bool :=
  let y := x.ctx c
  !y.live || (match y.hold with
    | some h => match h.kind with
      | .await | .acquire _ _ _ | .take | .put => true
      | _ => false
    | none => match y.block with
      | some ⟨.source r, _⟩ => (List.range 64).any fun k => (x.chan k).recvs.any fun w => w.1.task == y.csr.taskid && w.2 == r
      | _ => false)

/-- R202: the plot's quantum is over. A free context for which a ready task waits does not count as empty: the task starts first (DESIGN
CHOICE, log entry 85). -/
def Plot.quantumOver (x : Plot) : Bool :=
  let noPair := (List.range 4).all fun c => (x.ctx c).pair.isNone
  noPair && (decide (x.quantumLen ≤ x.sched.retired) ||
    ((List.range 4).all fun c => !(x.ctx c).live || !x.canIssue (x.ctx c)) && (List.range 4).all x.idleDet &&
      !(x.freeCtx.isSome && x.best.isSome))

/-- The partition of a tenant. -/
def State.modPart (s : State) (tenant : Nat) (f : Part → Part) : State :=
  { s with host := { s.host with parts := s.host.parts.map fun q => if q.tenant = tenant then f q else q } }

/-- R202: a plot in deterministic mode ends its quantum. -/
def execQuantumEnd (p : Nat) (s : State) : Res :=
  let x := s.plot p
  if x.det && !x.sched.ended && x.quantumOver then
    .next ((s.modPlot p fun x => { x with sched := { x.sched with ended := true } }).modPart x.tenant fun q =>
      { q with endedPlots := if p ∈ q.endedPlots then q.endedPlots else q.endedPlots ++ [p] })
  else .next s

end Sys2Proof.Machine
end

