-- ==== Sys2Proof/Machine/Arrival.lean ====
section
/-!
DEFINITION. Invocations and messages on their way (09, R178, R179, R195; 10, R212 to R233; 14, R321, R322, R324): arrival at
a plot, the memory-side agent, the object directory, and the events of promise records.
-/

namespace Sys2Proof.Machine

open Sys2Proof

/-! ## Channel queues (R179, R233) -/

/-- R388: an arrival wakes a plot; a parity sweep runs before its first issue. -/
def Plot.wake (x : Plot) : Plot :=
  if x.sched.asleep then { x with sched := { x.sched with asleep := false, sweep := true } } else x

/-- R214, R218: an invocation has been accepted. -/
def State.tellAccepted (s : State) (src : Endpoint) : Queued → State
  | .inv i => s.notify src i
  | .raw _ _ => s

/-- The message as it waits after its acceptance: nobody is to be told again. -/
def Queued.taken : Queued → Queued
  | .inv i => .inv { i with path := [] }
  | .raw ws sender => .raw ws sender

/-- R179: a message joins its channel's queue, where a waiting recv may take it at once (R233). One that the agent returns counts as ready
from its return to the queue (R187; DESIGN CHOICE, log entry 86). -/
def State.enqueue (s : State) (p ch : Nat) (q : Queued) : State :=
  let s := (s.tellAccepted (.plot (s.plotId p)) q).modPlot p (·.wake)
  (s.modPlot p fun x => x.setQueue ch (x.queue ch ++ [(s.now, q.taken)])).serveAll p ch

/-- R179: a message that a channel takes: its queue holds 8, or the agent holds messages for it, and it goes to the agent. -/
def State.joinChannel (s : State) (p ch tenant : Nat) (q : Queued) : State :=
  let x := s.plot p
  if 8 ≤ x.qcnt ch || (x.chan ch).ov then
    (s.modPlot p fun x => x.modChan ch fun c => { c with ov := true }).push
      ⟨.inv, .plot (s.plotId p), .service (fieldOf p), tenant, .overflow p ch q⟩
  else s.enqueue p ch q

/-! ## Arrival (R214, R230) -/

/-- R230: the agent of a plot's field holds invocations for an object, or will hold one that is on its way. -/
def State.holdsObj (s : State) (p : Nat) (o : Word) : Bool :=
  ((s.field (fieldOf p)).agent.any fun e => match e with
    | .object o' _ => o' == o
    | _ => false) ||
  s.net.any fun m => match m.body with
    | .toAgent i => i.target == o
    | _ => false

/-- R230, R322: the new home of a moved object. -/
def Field.moved (f : Field) (o : Word) : Option Word := (f.dir.find? fun d => d.1 == o).map (·.2)

/-- R214: the checks of the channel, and the joining of its queue: the delivery, which in deterministic mode waits for the end of the
quantum (R203, R231). -/
def State.channelChecks (s : State) (p : Nat) (i : Inv) (now : Bool) : State :=
  let src := Endpoint.plot (s.plotId p)
  let c := (s.plot p).chan i.method
  if !c.en then (s.countAt p 12).breakOwn src i 0x19
  else if (if i.mc then c.objv else !c.objv || decide (c.slot ≠ oSlot i.target)) then s.breakOwn src i 0x19
  else if (s.plot p).det && !now then
    { s with deferred := s.deferred ++ [⟨i.sender.toNat, i.order, ⟨.inv, src, src, i.tenant, .inv i⟩⟩] }
  else s.joinChannel p i.method i.tenant (.inv i)

/-- R214, R230: an invocation has reached the plot of its OREF, or a member of its rectangle. -/
def State.arrive (s : State) (p : Nat) (i : Inv) (now : Bool) : State :=
  let src := Endpoint.plot (s.plotId p)
  if i.mc then s.channelChecks p i now
  else
    let o := (s.plot p).obj (oSlot i.target)
    match (s.field (fieldOf p)).moved i.target with
    | some _ => s.push ⟨.inv, src, .service (fieldOf p), i.tenant, .dirForward i⟩
    | none =>
      if !o.v || o.gen ≠ oGen i.target then s.breakOwn src i 0x19
      else if !o.res || s.holdsObj p i.target then s.push ⟨.inv, src, .service (fieldOf p), i.tenant, .toAgent i⟩
      else s.channelChecks p i now

/-- R216, R214: what a plot does with an invocation: it visits a record of the plot, or is delivered. -/
def State.invArrive (s : State) (p : Nat) (i : Inv) (now : Bool) : State :=
  match i.strict with
  | some (_, h) => s.recordArrive p h i
  | none =>
    if !i.mc && bitw i.target 0 then s.recordArrive p i.target i
    else s.arrive p i now

/-- R214, R216, R21: an invocation reaches a plot. -/
def execInvocationArrival (k : Nat) (s : State) : Res :=
  s.onMsg k fun s m => match m.body with
    | .inv i => s.atPlot m (fun s => s.breakOwn m.dst i 0x02) (fun s p => (s.modPlot p (·.wake)).invArrive p i false)
    | _ => none

/-- R179, R232, R21: a raw message reaches a plot. -/
def execRawMessageArrival (k : Nat) (s : State) : Res :=
  s.onMsg k fun s m => match m.body with
    | .raw ws sender ch => s.atPlot m id fun s p =>
        let s := s.modPlot p (·.wake)
        if !((s.plot p).chan ch).en then s.countAt p 12 else s.joinChannel p ch m.tenant (.raw ws sender)
    | _ => none

/-! ## The memory-side agent and the directory (R22, R179, R207, R230) -/

/-- R21: what another partition sent for a plot's queue, record or object is refused at the field service block, and counted. -/
def State.foreignAt (s : State) (dst : Endpoint) : Queued → State
  | .inv i => { s with mismatch := s.mismatch + 1 }.breakOwn dst i 0x02
  | .raw _ _ => { s with mismatch := s.mismatch + 1 }

/-- R230, R179, R207, R21: the agent appends an invocation or message to its list. For an object or a channel that is acceptance. One for an
object that has moved meanwhile goes on to its new home. -/
def execAgentListAppend (k : Nat) (s : State) : Res :=
  s.onMsg k fun s m => match m.dst with
    | .service f =>
      let add := fun (s : State) (e : AgentEnt) => s.modField f fun x => { x with agent := x.agent ++ [e] }
      let mine := fun (p : Nat) => (s.plot (p % 2 ^ 20)).takes m.tenant
      match m.body with
      | .toAgent i =>
        if !mine (hPlot i.target) then some (s.foreignAt m.dst (.inv i))
        else some (match (s.field f).moved i.target with
          | some new => s.forward m.dst { i with target := new }
          | none => add (s.notify m.dst i) (.object i.target { i with path := [] }))
      | .overflow p ch q =>
        if !mine p then some (s.foreignAt m.dst q) else some (add (s.tellAccepted m.dst q) (.chan p ch q.taken))
      | .recOverflow h i n => if !mine (hPlot h) then some (s.foreignAt m.dst (.inv i)) else some (add s (.record h i n))
      | _ => none
    | _ => none

/-- Two entries of the agent wait for one channel, record or object. -/
def AgentEnt.same : AgentEnt → AgentEnt → Bool
  | .chan p c _, .chan p' c' _ => p == p' && c == c'
  | .record h _ _, .record h' _ _ => h == h'
  | .object o _, .object o' _ => o == o'
  | _, _ => false

/-- R178: OV: the agent holds messages for a channel, or will hold one that is on its way. -/
def State.heldFor_ (s : State) (p ch : Nat) : Bool :=
  ((s.field (fieldOf p)).agent.any fun e => match e with
    | .chan p' c' _ => p' == p && c' == ch
    | _ => false) ||
  s.net.any fun m => match m.body with
    | .overflow p' c' _ => p' == p && c' == ch
    | _ => false

/-- R179, R207, R230, R21: the agent returns an entry, if it is the oldest of its channel, record or object and there is room; none where it
stays. What no longer carries the plot's partition is refused. -/
def State.agentBack (s : State) (f k : Nat) (now : Bool) : Option State :=
  match (s.field f).agent[k]? with
  | none => none
  | some e =>
    if ((s.field f).agent.take k).any e.same then none
    else
      let t := s.modField f fun x => { x with agent := x.agent.eraseIdx k }
      match e with
      | .chan p ch q =>
        if 8 ≤ (s.plot p).qcnt ch || ((s.plot p).det && !now) then none
        else
          let t := t.modPlot p fun x => x.modChan ch fun c => { c with ov := t.heldFor_ p ch }
          some (match q with
            | .inv i => if (s.plot p).takes i.tenant then t.enqueue p ch q else (t.mismatchAt p).breakOwn (.service f) i 0x02
            | .raw _ _ => t.enqueue p ch q)
      | .record h i n =>
        let p := hPlot h % 2 ^ 20
        let room := match (s.plot p).named h with
          | some r => r.takesAtOnce i || decide ((s.plot p).stored < Config.turnoutStore)
          | none => true
        if !room then none
        else if (s.plot p).takes i.tenant then some ((t.recordEnter p h i n).afterQueue p (hSlot h))
        else some ((t.mismatchAt p).breakOwn (.service f) i 0x02)
      | .object o i =>
        let p := hPlot o % 2 ^ 20
        let x := (s.plot p).obj (oSlot o)
        if !(x.v && x.res && x.gen == oGen o) || ((s.plot p).det && !now) then none
        else if (s.plot p).takes i.tenant then some (t.channelChecks p i now)
        else some ((t.mismatchAt p).breakOwn (.service f) i 0x02)

/-- R179, R207, R230: the agent returns the oldest entry of a channel, record or object as room frees. In deterministic mode a delivery
waits for the end of the quantum (R203). -/
def execAgentReturn (f k : Nat) (s : State) : Res :=
  match s.agentBack f k false with
  | some t => .next t
  | none => .next s

/-- R203: at the end of a quantum the agent of a field returns what the plots of a partition have room for, in list order; the first argument
bounds the entries looked at. -/
def agentBackAll (f : Nat) (mine : AgentEnt → Bool) : Nat → Nat → State → State
  | 0, _, s => s
  | n + 1, k, s =>
    match (s.field f).agent[k]? with
    | none => s
    | some e => match if mine e then s.agentBack f k true else none with
      | some t => agentBackAll f mine n k t
      | none => agentBackAll f mine n (k + 1) s

/-- R230, R217: the directory sends an invocation for a moved object on to its new home. -/
def execDirectoryForward (k : Nat) (s : State) : Res :=
  s.onMsg k fun s m => match m.body, m.dst with
    | .dirForward i, .service f =>
      if !(s.plot (hPlot i.target % 2 ^ 20)).takes m.tenant then some (s.foreignAt m.dst (.inv i))
      else some (match (s.field f).moved i.target with
        | some new => s.forward m.dst { i with target := new }
        | none => s.breakOwn m.dst i 0x19)
    | _, _ => none

/-- R322, R230: the directory of the old object's field records a mapping and acknowledges it. The agent's list goes to the
new home before any arrival there: to the agent of its field on this package, and by the network to another. -/
def execDirectoryMapUpdate (k : Nat) (s : State) : Res :=
  s.onMsg k fun s m => match m.body with
    | .dirMap old new w =>
      let p := hPlot old % 2 ^ 20
      let f := fieldOf p
      let here := match m.dst with
        | .service g => decide (g = f)
        | .plot id => decide (id / 2 ^ 20 = s.pkg)
        | _ => false
      if !here then none
      else if !(s.plot p).takes m.tenant then some { s with mismatch := s.mismatch + 1 }
      else
        let mine := (s.field f).agent.filterMap fun e => match e with
          | .object o i => if o = old then some { i with target := new } else none
          | _ => none
        let s := s.modField f fun x => { x with
          dir := (old, new) :: x.dir.filter fun d => d.1 != old
          agent := x.agent.filter fun e => match e with
            | .object o _ => o != old
            | _ => true }
        let s := if hPlot new / 2 ^ 20 = s.pkg then
            s.modField (fieldOf (hPlot new)) fun x => { x with agent := mine.map (fun i => AgentEnt.object new i) ++ x.agent }
          else mine.foldl (fun s i => s.push ⟨.inv, .service f, .plot (hPlot new), m.tenant, .inv i⟩) s
        some (s.push ⟨.sys, m.dst, .plot w.plot, m.tenant, .sysAck w⟩)
    | _ => none

/-- R195, R21: a request to set or clear BLK reaches its plot. -/
def execChannelBlockRequest (k : Nat) (s : State) : Res :=
  s.onMsg k fun s m => match m.body with
    | .chanBlock _ ch blk => s.atPlot m id fun s p => s.setBlk p ch blk
    | _ => none

/-- R324: a field service block applies an invalidation to its TLB and to its plots' micro-TLBs, and acknowledges it. -/
def execTlbInvalidate (k : Nat) (s : State) : Res :=
  s.onMsg k fun s m => match m.body, m.dst with
    | .tlbInv va w _ tenant, .service f =>
      let keep := fun (e : Tlb) => e.tenant != tenant || match va with
        | some a => e.va / e.page != a / e.page
        | none => false
      let s := s.modField f fun x => { x with tlb := x.tlb.filter keep }
      let s := { s with plots := s.plots.map fun (x : Nat × Plot) =>
        (x.1, if fieldOf x.1 = f then { x.2 with utlb := x.2.utlb.filter keep } else x.2) }
      some (s.push ⟨.sys, m.dst, .plot w.plot, m.tenant, .sysAck w⟩)
    | _, _ => none

/-! ## Promise records (R205 to R229) -/

/-- R216, R213: a settlement reaches its record. -/
def execSettlementArrival (k : Nat) (s : State) : Res :=
  s.onMsg k fun s m => match m.body with
    | .settle h st member => s.atPlot m id fun s p => s.settleRec p h st member m.src
    | _ => none

/-- R216: a settled record treats the first entry of its queue; a chained one the first that does not wait for a strict argument. -/
def execRecordQueueEntry (p r : Nat) (s : State) : Res :=
  let x := (s.plot p).rec_ r
  match x.queue.find? fun e => !(x.isChained && e.inv.strict.isSome) with
  | some e =>
    if !x.settled then .next s
    else .next (((s.modRec p r fun x => { x with queue := x.queue.erase e }).treat p r e).afterQueue p r)
  | none => .next s

/-- R218, R220: an acceptance notice reaches a plot that sent the invocation on, and is passed back along the chain, for a multicast
once every member has been accepted. -/
def execAcceptanceNotice (k : Nat) (s : State) : Res :=
  s.onMsg k fun s m => match m.body with
    | .accept ((h, n) :: rest) of_ => s.atPlot m id fun s p =>
        let more := match (s.plot p).named h with
          | some r => decide (n ∈ r.out.erase n)
          | none => false
        let s := match rest with
          | (h', _) :: _ => if more then s else s.push ⟨.clo, m.dst, .plot (hPlot h'), m.tenant, .accept rest of_⟩
          | [] => s
        match (s.plot p).named h with
        | none => s
        | some _ =>
          let s := (s.noteRec p (hSlot h) (.accepted n of_)).modRec p (hSlot h) fun r =>
            let through := r.through.erase n
            { r with out := r.out.erase n, through := through, via := if through.isEmpty then 0 else r.via }
          s.askAll p (hSlot h)
    | _ => none

/-- R219: the registration of a chained record reaches the next handle's record. A stale handle answers with its break. -/
def execChainRegistration (k : Nat) (s : State) : Res :=
  s.onMsg k fun s m => match m.body with
    | .register h from_ => s.atPlot m id fun s p =>
        match (s.plot p).named h with
        | none => s.push ⟨.clo, m.dst, .plot (hPlot from_), m.tenant, .collapse from_ (.broken (mkBreak h 0x19 0))⟩
        | some r => ((s.noteRec p (hSlot h) (.registration from_)).modRec p (hSlot h) fun r =>
            { r with asks := r.asks ++ [(r.seq, .record from_)] }).askStep p (hSlot h) (r.seq, .record from_)
    | _ => none

/-- R220, R227: the next record's answer: a chained record takes its result, or breaks one deeper. While invocations that it
forwarded are not accepted it keeps sending arrivals on. -/
def execChainCollapse (k : Nat) (s : State) : Res :=
  s.onMsg k fun s m => match m.body with
    | .collapse h st => s.atPlot m id fun s p =>
        match (s.plot p).named h with
        | none => s
        | some r => match r.st with
          | .chained q =>
            let st' := match st with
              | .broken b => .broken (deeper b)
              | st => st
            ((s.noteRec p (hSlot h) (.collapsed st')).modRec p (hSlot h) fun r => { r with
              st := st', via := if r.through.isEmpty then 0 else q, viaAt := r.seq }).afterSettle p (hSlot h)
          | _ => s
    | _ => none

/-- R225: an AWAIT request reaches its record. -/
def execAwaitRequest (k : Nat) (s : State) : Res :=
  s.onMsg k fun s m => match m.body with
    | .awaitReq h w => s.atPlot m id fun s p =>
        match (s.plot p).named h with
        | none => s.push ⟨.clo, m.dst, .plot w.plot, m.tenant, .rsp w (.words [mkBreak h 0x19 0, 1] 0)⟩
        | some r => ((s.noteRec p (hSlot h) (.await w)).modRec p (hSlot h) fun r => { r with asks := r.asks ++ [(r.seq, .task w)] }).askStep p (hSlot h) (r.seq, .task w)
    | _ => none

/-- R226: an hstat request reaches its record; the answer is a snapshot, in the RSP class (DESIGN CHOICE, log entry 114). -/
def execHstatRequest (k : Nat) (s : State) : Res :=
  s.onMsg k fun s m => match m.body with
    | .hstatReq h w => s.atPlot m id fun s p =>
        let t := match (s.plot p).named h with
          | some _ => s.noteRec p (hSlot h) (.hstat w)
          | none => s
        t.reply m w (.words [s.hstatWord p h] 0)
    | _ => none

/-- R206: a record becomes free. -/
def execRecordFree (p r : Nat) (s : State) : Res :=
  let x := (s.plot p).rec_ r
  let ended := match x.owner with
    | .task t => !(s.plot p).alive t
    | .host _ => false
    | .gone _ | .none => true
  let h := mkHandle (s.plotId p) r x.gen
  if ended && x.settled && !x.isChained && x.queue.isEmpty && x.asks.isEmpty && x.out.isEmpty && x.away.isEmpty && !s.holdsRec p h then
    .next (s.modRec p r fun x => { Record.reset with gen := x.gen })
  else .next s

end Sys2Proof.Machine
end

