-- ==== Sys2Proof/Machine/Care.lean ====
section
/-!
DEFINITION. What a plot's hardware does beside its instructions (14, R309, R321, R323, R332 to R336; 09, R178; 17, R388): threshold
windows, the watchdog, the scrubber, the rebuilding of a square, writes of the plot's CSRs, and retention.
-/

namespace Sys2Proof.Machine

open Sys2Proof

/-- R333: CNT returns to 0 when CYCLE is a multiple of WIN × 1,024; a window of 0 is none. ACT can fire again. -/
def execThresholdWindowReset (p k : Nat) (s : State) : Res :=
  let t := Sparse.get Thr.reset (s.plot p).thr k
  if t.win ≠ 0 && s.now % (t.win * 1024) = 0 then
    .next (s.modPlot p fun x => { x with thr := Sparse.set Thr.reset x.thr k { t with cnt := 0, fired := false } })
  else .next s

/-- R332 class 11: the cycle since which a task is blocked on one instruction. -/
def Ctx.blockedSince (y : Ctx) : Option Nat :=
  match y.hold, y.block with
  | some h, _ => some h.since
  | none, some b => if y.goesOn then none else some b.since
  | none, none => none

/-- R332, R253: a task blocked on one instruction for 2^24 cc is counted, once per such period. Numbers below 4 are contexts, the
others images. -/
def execWatchdog (p k : Nat) (s : State) : Res :=
  let y := (s.plot p).at_ (if k < 4 then Place.ctx k else .image (k - 4))
  match y.blockedSince with
  | none => .next s
  | some t =>
    let n := if y.watched.1 = t then y.watched.2 else 0
    if y.live && decide (n < (s.now - t) / 2 ^ 24) then
      let pl := if k < 4 then Place.ctx k else .image (k - 4)
      .next ((s.modPlot p fun x => x.put pl { y with watched := (t, n + 1) } none).countAt p 11)
    else .next s

/-- R336: the rows of a plot's buffers that hold a wrong symbol: buffer, square, row. -/
def Bufs.wrongRows (b : Bufs) : List (Nat × Nat × Nat) :=
  (b.errs.map fun e => (e.1 / 2 ^ 16, e.1 % 64, e.1 % 2 ^ 16 / 64 / 32)).eraseDups

/-- R336: a pass of the scrubber over the buffers of a plot. A read of a row that reads right changes nothing. -/
def execScrub (p : Nat) (s : State) : Res :=
  .next ((s.plot p).bufs.wrongRows.foldl (fun s r => s.correctRead p r.1 r.2.1 [r.2.2]) s)

/-- R335: a square has been rewritten from its reconstruction: what could be decoded reads right again. -/
def execSquareRebuildComplete (p k : Nat) (s : State) : Res :=
  let b := (s.plot p).bufs
  if k ∈ b.rebuilding then
    let buf := k / 64
    let q := k % 64
    let errs := (List.range 1024).foldl (fun m i => if (b.wrong buf i).all (· == q) then Sparse.set 0 m (errKey buf i q) 0 else m) b.errs
    .next (s.modBufs p fun b => { b with
      rebuilding := b.rebuilding.filter (· != k), errs := errs, corrections := Sparse.set 0 b.corrections k 0 })
  else .next s

/-- R309: a write to PTROOT also invalidates the plot's micro-TLB. -/
def execPtrootWrite (p : Nat) (w : Word) (s : State) : Res := .next (s.writePtroot p w)

/-- R321, R322: a write to OBJENT. -/
def execObjentWrite (p k : Nat) (w : Word) (s : State) : Res := .next (s.writeObjent p (k % 16) w)

/-- R178: a write to CHENT. -/
def execChentWrite (p k : Nat) (w : Word) (s : State) : Res := .next (s.writeChent p (k % 64) w)

/-- R323: a write to CISTERN. -/
def execCisternWrite (p : Nat) (w : Word) (s : State) : Res := .next (s.writeCistern p w)

/-- R335: a write to SQSTAT. -/
def execSqstatWrite (p : Nat) (w : Word) (s : State) : Res := .next (s.writeSqstat p w)

/-- R388: a plot with no task in any context and no queued message for 4,096 cc enters retention voltage. -/
def execRetentionEnter (p : Nat) (s : State) : Res :=
  let s := s.modPlot p (·.refresh s.now)
  let x := s.plot p
  if !x.sched.asleep && decide (x.sched.idleSince + 4096 ≤ s.now) then
    .next (s.modPlot p fun x => { x with sched := { x.sched with asleep := true } })
  else .next s

/-- R388: the parity sweep after a wake is over. What it found stands in the registers' parity, and shows at their first read
(R338). -/
def execParitySweepComplete (p : Nat) (s : State) : Res :=
  .next (s.modPlot p fun x => { x with sched := { x.sched with sweep := false } })

end Sys2Proof.Machine
end

