-- ==== Sys2Proof/Machine/Copy.lean ====
section
/-!
DEFINITION. CPY, PUTS, GET and the COLL instructions at the plot (13, R278 to R292); the flumes and sluices are in
Sys2Proof/Machine/Flume.lean and Sys2Proof/Machine/Sluice.lean.
-/

namespace Sys2Proof.Machine

open Sys2Proof

/-- R280: a source or destination word: its place. `tyOk` are the memory types it may have. -/
def State.locTry (s : State) (x : Word) (n : Nat) (store : Bool) (tyOk : Nat → Bool) (scratch : Bool) : Try Loc :=
  let f := if store then Cause.storeFault else .loadFault
  if isBaddr x then
    if scratch && s.baddrOk x 1 1 store then .ok (.scratch (bPlot x) (bBuf x) (bOff x)) else signal f x
  else if fldw x 56 8 ≠ 0 then signal f x
  else do .ok (.pages x.toNat (← s.rangePages x.toNat n (!store) store f tyOk))

/-- R280: the last byte of a range lies within 2^56 or within its buffer; the first address outside otherwise. -/
def rangeEnd (x : Word) (n : Nat) (f : Cause) : Try Unit :=
  if isBaddr x then
    if Config.bufSize (bBuf x) < bOff x + n then signal f (x + .ofNat 64 (Config.bufSize (bBuf x) - bOff x)) else .ok ()
  else if 2 ^ 56 < x.toNat + n then signal f (.ofNat 64 (2 ^ 56)) else .ok ()

/-- R246: the destination pages of a range meet a bound region without its record held exclusive: the first such address. -/
def State.capRange (s : State) (l : Loc) : Try Unit :=
  match l with
  | .scratch _ _ _ => .ok ()
  | .pages va ps =>
    match ps.find? fun e => match e.region with
      | some r => !s.me.holdsExcl r
      | none => false with
    | some e => signal .capability (.ofNat 64 (max va e.va))
    | none => .ok ()

/-- R277: the bytes queued at a flume. -/
def Flume.queued (f : Flume) : Nat := (f.copies.map fun c => c.len - c.pos).sum + (f.waiting.map fun c => c.len).sum

/-- A flume. -/
def State.flume (s : State) (k : Nat) : Flume := Sparse.get ⟨[], [], none⟩ s.flumes k

/-- R277: the flume a cpy uses: of the two of its stack, the one with fewer queued bytes. -/
def State.chooseFlume (s : State) (p : Nat) : Nat :=
  let k := logical p % 12
  if (s.flume (2 * k + 1)).queued < (s.flume (2 * k)).queued then 2 * k + 1 else 2 * k

/-- The virtual range of a destination, for R241; a buffer has none. -/
def Loc.virt (l : Loc) (n : Nat) : Nat × Nat :=
  match l with
  | .pages va _ => (va, va + n)
  | .scratch _ _ _ => (0, 0)

/-- R281, R61: the result register is written at the answer; its FE stays as it is till then (R59), and a port's slot is taken. -/
def State.takeSlot (s : State) (d id : Nat) : State := if isPort d then s.pushPort (d - 60) id none else s

/-- R283: the lowest number that no record of a context has. -/
def Ctx.freeCopy (x : Ctx) : Nat := ((List.range 8).find? fun n => !x.copies.any fun c => c.no == n).getD 8

/-- R281, R285: the command leaves for a flume, with a record, and the context is held until the acceptance. The record has
no promise before it. -/
def State.copySend (s : State) (c : CopyCmd) (d flume : Nat) : State :=
  let (id, s) := s.fresh
  let w := s.who id
  let s := s.holdFor (.flume c.lt (c.kind == 1) c.len) id [] 0 0
  let s := s.await_ ⟨id, .other, false, .take d, 0⟩
  let s := s.takeSlot d id
  let (lo, hi) := c.dst.virt c.len
  let r : CopyRec := { id := id, no := s.me.freeCopy, lt := c.lt, promise := 2 ^ 64, failed := false, late := false, dstLo := lo, dstHi := hi }
  let s := s.modMe fun x => { x with copies := x.copies ++ [r] }
  s.sendMine .req (.base (flume / 2)) (.copy { c with who := w } flume)

/-- R283: a free outstanding-copy record. -/
def State.recordTry_ (s : State) : Try Unit := need (decide (s.me.copies.length < 8)) (.block .copyRecord)

/-- R279 to R281: cpy and cpy.e; `fl` is the register that names the flume. -/
def cpyOp (d a : BitVec 6) (fl : Option (Nat × Bool)) (s : State) : Res :=
  s.finish (do
    let own := match fl with
      | some (r, u) => [⟨r, u⟩]
      | none => []
    checkRegs s (own ++ (span (regG a) 4).map fun r => ⟨r, false⟩) [regG d]
    s.recordTry_
    let (fw, s) := match fl with
      | some (r, _) => s.takeG r
      | none => (0, s)
    let x := s.g (regG a)
    let y := s.g (regG a + 1)
    let z := s.g (regG a + 2)
    let g := s.g (regG a + 3)
    let n := fldw z 0 32
    let mem := fun ty => ty == 0 || ty == 2
    let src ← s.locTry x n false mem true
    let dst ← s.locTry y n true mem true
    rangeEnd x n .loadFault
    rangeEnd y n .storeFault
    let guard ← if g = 0 then .ok none
      else if isBaddr g then
        if s.baddrOk g 8 8 false then .ok (some (Loc.scratch (bPlot g) (bBuf g) (bOff g))) else signal .loadFault g
      else if g.toNat % 8 ≠ 0 || fldw g 56 8 ≠ 0 then signal .loadFault g
      else match s.service s.cur.1 g.toNat with
        | none => signal .loadFault g
        | some e => if e.rd && e.ty == 0 then .ok (some (.pages g.toNat [e])) else signal .loadFault g
    need (fldw z 56 6 == 0 && fldw z 32 8 == 0 && !(guard.isSome && fldw z 40 16 == 0)) (.trap .storeFault z)
    need (fl.isNone || decide (fw.toNat < 24)) (.trap .storeFault fw)
    s.capRange dst
    s.fenceTry 4
    let k := if fl.isSome then fw.toNat else s.chooseFlume s.cur.1
    .ok (s.copySend {
        who := ⟨0, 0, 0⟩, kind := 0, src := src, dst := dst, len := n, ce := bitw z 63, lt := bitw z 62,
        guard := guard, unit := fldw z 40 16, signal := none, tenant := s.myPlot.tenant, peer := none } (regG d) k))

/-- R278, cpy. -/
def execCpy (d a : BitVec 6) (s : State) : Res := cpyOp d a none s
/-- R278, cpy.e. -/
def execCpyE (d a b : BitVec 6) (u : Bool) (s : State) : Res := cpyOp d a (some (regG b, u)) s

/-- The peer package of a location, if its first page is PEER. -/
def Loc.peer : Loc → Option Nat
  | .pages _ (e :: _) => if e.ty = 1 then some e.pkg else none
  | _ => none

/-- R285, puts. -/
def execPuts (d a : BitVec 6) (s : State) : Res :=
  s.finish (do
    checkRegs s ((span (regG a) 5).map fun r => ⟨r, false⟩) [regG d]
    s.recordTry_
    let x := s.g (regG a)
    let y := s.g (regG a + 1)
    let z := s.g (regG a + 2)
    let sa := s.g (regG a + 3)
    let so := s.g (regG a + 4)
    let n := fldw z 0 32
    let src ← s.locTry x n false (fun ty => ty == 0 || ty == 2) true
    let dst ← s.locTry y n true (fun ty => ty == 0 || ty == 1) false
    rangeEnd x n .loadFault
    rangeEnd y n .storeFault
    need (fldw z 36 2 == 0 && fldw z 40 24 == 0) (.trap .storeFault z)
    let op := fldw z 32 4
    let signal_ ← if bitw z 39 then .ok none
      else if op = 2 || 10 ≤ op then signal .storeFault z
      else if sa.toNat % 8 ≠ 0 || fldw sa 56 8 ≠ 0 then signal .storeFault sa
      else match s.service s.cur.1 sa.toNat with
        | none => signal .storeFault sa
        | some e =>
          let l := Loc.pages sa.toNat [e]
          if e.rd && e.wr && (e.ty == 0 || e.ty == 1) && decide (l.peer = dst.peer) then .ok (some (op, l, so))
          else signal .storeFault sa
    s.capRange dst
    s.fenceTry 4
    .ok (s.copySend {
        who := ⟨0, 0, 0⟩, kind := 1, src := src, dst := dst, len := n, ce := false, lt := bitw z 38,
        guard := none, unit := 0, signal := signal_, tenant := s.myPlot.tenant, peer := dst.peer } (regG d) (s.chooseFlume s.cur.1)))

/-- R285, get. -/
def execGet (d a : BitVec 6) (s : State) : Res :=
  s.finish (do
    checkRegs s ((span (regG a) 3).map fun r => ⟨r, false⟩) [regG d]
    s.recordTry_
    let x := s.g (regG a)
    let y := s.g (regG a + 1)
    let z := s.g (regG a + 2)
    let n := fldw z 0 32
    let src ← s.locTry x n false (fun ty => ty == 0 || ty == 1) false
    let dst ← s.locTry y n true (fun ty => ty == 0) true
    rangeEnd x n .loadFault
    rangeEnd y n .storeFault
    need (fldw z 32 6 == 0 && fldw z 39 25 == 0) (.trap .storeFault z)
    s.capRange dst
    s.fenceTry 4
    .ok (s.copySend {
        who := ⟨0, 0, 0⟩, kind := 2, src := src, dst := dst, len := n, ce := false, lt := bitw z 38,
        guard := none, unit := 0, signal := none, tenant := s.myPlot.tenant, peer := src.peer } (regG d) (s.chooseFlume s.cur.1)))

/-- R290: the fields that the words of a coll decide alone: the operation, the zero bits, the block length. -/
def collFields (c l : Word) : Bool :=
  let op := fldw c 8 4
  fldw c 32 32 == 0 && fldw c 13 3 == 0 && decide (op ≤ 5) && fldw l 32 32 == 0 && decide (fldw l 0 32 ≤ 16 * 2 ^ 20) &&
    (if op = 0 then fldw l 0 32 == 0 else if op ≤ 2 then fldw l 0 32 % 8 == 0 else fldw l 0 32 % 16 == 0)

/-- R290: the source and destination bytes of an operation at a member of a package: `n` ranks, root, rank, and whether the
member is its package's lowest. -/
def collSizes (op n l root rank : Nat) (lowest : Bool) : Nat × Nat :=
  match op with
  | 1 => (if rank = root && lowest then l else 0, l)
  | 2 => (l, n * l)
  | 3 => (n * l, l)
  | 4 => (n * l, n * l)
  | 5 => (l, if rank = root then l else 0)
  | _ => (0, 0)

/-- R289 to R291, coll: the plot's checks, the wait of fence.pkg, and the request to the sluice. The ranks that the range
checks need are those of the communicator's entry (DEDUCED, log entry 11). -/
def execColl (d a : BitVec 6) (s : State) : Res :=
  s.finish (do
    checkRegs s ((span (regG a) 4).map fun r => ⟨r, false⟩) [regG d]
    let c := s.g (regG a)
    let x := s.g (regG a + 1)
    let y := s.g (regG a + 2)
    let l := s.g (regG a + 3)
    need (collFields c l) (.trap .storeFault c)
    let op := fldw c 8 4
    need (op != 0 || x == 0) (.trap .storeFault x)
    need (op != 0 || y == 0) (.trap .storeFault y)
    let k := s.comm (fldw c 0 8)
    let lowest := k.locals.head? == some (s.plotId s.cur.1)
    let (ns, nd) := collSizes op (k.npk + 1) (fldw l 0 32) (fldw c 16 16) k.rank lowest
    let hbm := fun ty => ty == 0
    let src ← if ns = 0 then .ok (Loc.pages x.toNat []) else s.locTry x ns false hbm true
    let dst ← if nd = 0 then .ok (Loc.pages y.toNat []) else s.locTry y nd true hbm true
    if ns ≠ 0 then rangeEnd x ns .loadFault
    if nd ≠ 0 then rangeEnd y nd .storeFault
    s.capRange dst
    s.fenceTry 3
    let (id, s) := s.fresh
    let s := s.holdFor .coll id [] c 0
    let s := s.await_ ⟨id, .other, false, .take (regG d), c⟩
    let s := s.takeSlot (regG d) id
    let r : CollReq := { who := s.who id, ctl := c, tval := x, src := src, dst := dst, len := fldw l 0 32, tenant := s.myPlot.tenant }
    .ok (s.sendMine .req (.head (fldw c 0 8 / 32 / 2)) (.coll r)))

/-- R292, collw. -/
def execCollw (d a : BitVec 6) (t : Bool) (s : State) : Res :=
  s.finish (do
    checkRegs s [⟨regG a, t⟩] [regG d]
    let (x, s) := s.takeG (regG a)
    let (id, s) := s.fresh
    let s := s.holdFor .collw id [] x 0
    let s := s.await_ ⟨id, .other, false, .take (regG d), x⟩
    let s := s.takeSlot (regG d) id
    .ok (s.sendMine .req (.head (fldw x 0 8 / 32 / 2)) (.collw (s.who id) x)))

end Sys2Proof.Machine
end

