-- ==== Sys2Proof/Machine/Pool.lean ====
section
/-!
DEFINITION. The POOL instructions (12, R260 to R266): what the plot does; the weirs are in
Sys2Proof/Machine/Weir.lean.
-/

namespace Sys2Proof.Machine

open Sys2Proof

/-- The word of the instruction under execution (R305: TVAL of PRIVILEGE). -/
def State.iword (s : State) : W32 := if s.me.pair.isSome then s.me.second else s.myPlot.wordFor s.me s.ipc.toNat

/-- R305, R71: a supervisor instruction in task mode raises PRIVILEGE. -/
def State.supervisor (s : State) : Try Unit := need s.me.sup (.trap .privilege (.ofNat 64 s.iword.toNat))

/-- R261: sends a request to the field's weir and holds the context until the answer. -/
def State.poolSend (s : State) (pool : Nat) (op : PoolOp) (ds : List Nat) (k : HoldKind) (v : Word) (n : Nat) : State :=
  let (id, s) := s.fresh
  let s := s.holdFor k id ds v n
  let s := s.await_ ⟨id, .other, false, .words ds, v⟩
  s.sendMine .req (.service (fieldOf s.cur.1)) (.pool (s.who id) pool op v)

/-- R262, pput. -/
def execPput (d a b : BitVec 6) (t u : Bool) (s : State) : Res :=
  s.finish (do
    checkRegs s [⟨regG a, t⟩, ⟨regG b, u⟩] [regG d]
    let (x, s) := s.takeG (regG a)
    let (v, s) := s.takeG (regG b)
    need (fldw x 38 26 == 0) (.trap .storeFault x)
    .ok (s.poolSend (fldw x 32 6) (.put (fldw x 0 32) v) [regG d] .put x 0))

/-- R260: the pool word of the other instructions: the number in [37:32], the other bits zero. -/
def poolOp (a : BitVec 6) (t : Bool) (ds : List Nat) (op : PoolOp) (k : HoldKind) (s : State) : Res :=
  s.finish (do
    checkRegs s [⟨regG a, t⟩] ds
    let (x, s) := s.takeG (regG a)
    need (fldw x 38 26 == 0 && fldw x 0 32 == 0) (.trap .loadFault x)
    .ok (s.poolSend (fldw x 32 6) op ds k x 0))

/-- R263, ptake: the value to d, the result word to d + 1. -/
def execPtake (d a : BitVec 6) (t : Bool) (s : State) : Res := poolOp a t [regG d, regG d + 1] (.take false) .take s
/-- R263, ptaken. -/
def execPtaken (d a : BitVec 6) (t : Bool) (s : State) : Res := poolOp a t [regG d, regG d + 1] (.take true) .take s
/-- R264, ppeek. -/
def execPpeek (d a : BitVec 6) (t : Bool) (s : State) : Res := poolOp a t [regG d] .peek .pool s
/-- R265, pstat. -/
def execPstat (d a : BitVec 6) (t : Bool) (s : State) : Res := poolOp a t [regG d] .stat .pool s

/-- R266: a configuration word has its zero fields zero, and PER is not 0. -/
def cfgOk (w : Word) : Bool := fldw w 54 9 == 0 && fldw w 24 8 == 0 && fldw w 14 2 == 0 && fldw w 16 8 != 0

/-- R266, pcfg: it retires when all sixteen weirs have acknowledged. For a pool of another partition TVAL is G[b], as R266 has it, and not G[a]
of R261's list (DEDUCED, log entry 91). -/
def execPcfg (a b : BitVec 6) (t u : Bool) (s : State) : Res :=
  s.finish (do
    s.supervisor
    checkRegs s [⟨regG a, t⟩, ⟨regG b, u⟩] []
    let (x, s) := s.takeG (regG a)
    let (w, s) := s.takeG (regG b)
    need (fldw x 38 26 == 0 && fldw x 0 32 == 0) (.trap .storeFault x)
    need (cfgOk w) (.trap .storeFault w)
    .ok (s.poolSend (fldw x 32 6) (.cfg w) [] .pcfg w 16))

end Sys2Proof.Machine
end

