-- ==== Sys2Proof/Machine/Unit.lean ====
section
/-!
DEFINITION. The headgate units and the barriers of the field service blocks (11, R235 to R254; 15, R350).
-/

namespace Sys2Proof.Machine

open Sys2Proof

/-! ## Records (R235) -/

/-- R235: the six words of a record. -/
def GateRec.words (r : GateRec) : List Nat :=
  [r.mode * 2 ^ 62 + r.nsh % 2 ^ 16 * 2 ^ 32 + r.grants % 2 ^ 32, r.xholder.toNat,
   bit r.bnd * 2 ^ 63 + r.base % 2 ^ 40 * 2 ^ 16 + r.len % 2 ^ 16, r.waitq % 2 ^ 32, r.hpend.toNat, r.refused % 2 ^ 32]

/-- R236: marks a sector as one that holds an active record, or not. -/
def Memory.markGate (m : Memory) (t : Nat) (active : Bool) : Memory := { m with gate := Sparse.set false m.gate (t / 64) active }

/-- R235: the unit writes a record; R236: while it is active, ordinary writes to it are discarded. -/
def State.setGateRec (s : State) (t : Nat) (r : GateRec) : State :=
  { s with mem := (s.mem.write (placed t (r.words.flatMap (bytesLE 8)))).markGate t r.active }

/-- R235, R242: a task as XTASK and XPLOT name it. -/
def holderWord (w : Who) : Word := .ofNat 64 (w.task % 2 ^ 28 * 2 ^ 36 + w.plot % 2 ^ 36)

/-- R201: the partition of a tenant runs in deterministic mode. -/
def State.detOf (s : State) (tenant : Nat) : Bool :=
  match s.host.parts.find? fun q => q.tenant == tenant with
  | some q => bitw q.detctl 0
  | none => false

/-! ## Grants (R239, R240) -/

/-- R240: the grant of a request. -/
def State.sendGrant (s : State) (r : GateReq) : State :=
  let excl := match r.op with
    | .acq e => e
    | _ => true
  s.push ⟨.sys, .base (stackOf r.target), .plot r.who.plot, r.tenant, .gateAns r.who (.words [.ofNat 64 r.target, r.va, .ofNat 64 (bit excl)] 0)⟩

/-- R240: the request at the head of a record's queue is granted, and with a shared one those that follow it; the first argument
bounds the grants. -/
def grantLoop : Nat → State → Nat → State
  | 0, s, _ => s
  | fuel + 1, s, t =>
    match s.gateQ.find? fun q => q.target == t with
    | none => s
    | some q =>
      let r := s.gateRec t
      let rest := { s with gateQ := s.gateQ.erase q }
      match q.op with
      | .acq false =>
        if r.mode = 0 || r.mode = 1 then
          let s := rest.setGateRec t { r with mode := 1, nsh := r.nsh + 1, grants := r.grants + 1, waitq := r.waitq - 1 }
          grantLoop fuel (s.sendGrant q) t
        else s
      | _ =>
        if r.mode = 0 then
          let s := rest.setGateRec t { r with mode := 2, xholder := holderWord q.who, grants := r.grants + 1, waitq := r.waitq - 1 }
          s.sendGrant q
        else s

/-- R240: an acq.x of the task that the record names as its exclusive holder, or as the target of a handover. -/
def GateRec.namesTask (r : GateRec) (w : Who) : Bool :=
  (r.mode == 2 && r.xholder == holderWord w) || (r.hpend != 0 && r.hpend == holderWord w)

/-- R240: such an acq.x that waits in the record's queue is granted at once. -/
def State.grantNamed (s : State) (t : Nat) : State :=
  (s.gateQ.filter fun q => q.target == t && q.op == .acq true && (s.gateRec t).namesTask q.who).foldl (fun s q =>
    let r := s.gateRec t
    ({ s with gateQ := s.gateQ.erase q }.setGateRec t { r with grants := r.grants + 1, waitq := r.waitq - 1 }).sendGrant q) s

/-- R240, R254: a record looks at its queue; in deterministic mode it does so when a quantum ends. -/
def State.grants (s : State) (t tenant : Nat) (now : Bool) : State :=
  if s.detOf tenant && !now then s
  else
    let s := s.grantNamed t
    grantLoop (s.gateQ.length + 1) s t

/-- R236: the answer to a GATE instruction that finds a record it cannot use. -/
def State.badRecord (s : State) (m : Packet) (r : GateReq) (v : Word) : State :=
  s.push ⟨.rsp, m.dst, .plot r.who.plot, m.tenant, .gateAns r.who (.trap .capability v)⟩

/-- R239, R240: an acquire reaches its unit. While the unit has no space for a request that waits, every other acquire is sent again, one
that its record could grant too (DESIGN CHOICE, log entry 88). -/
def State.acquireAt (s : State) (m : Packet) (q : GateReq) (excl now : Bool) : State :=
  let r := s.gateRec q.target
  if r.bad then s.badRecord m q q.va
  else if excl && r.namesTask q.who then
    (s.setGateRec q.target { r with grants := r.grants + 1 }).sendGrant q
  else if Config.gateParks ≤ (s.gateQ.filter fun e => stackOf e.target == stackOf q.target).length then
    { s with resend := s.resend ++ [(s.now + Config.resendAfter, m)] }
  else
    ({ s with gateQ := s.gateQ ++ [q] }.setGateRec q.target { r with waitq := r.waitq + 1 }).grants q.target q.tenant now

/-! ## Releases and handovers (R241, R242) -/

/-- R241: the record is released in the mode in which it is held. -/
def State.releaseAt (s : State) (t tenant : Nat) : State :=
  let r := s.gateRec t
  let r' := if r.mode = 1 then { r with mode := if r.nsh ≤ 1 then 0 else 1, nsh := r.nsh - 1 }
    else if r.mode = 2 then { r with mode := 0, xholder := 0, hpend := 0 }
    else r
  (s.setGateRec t r').grants t tenant false

/-- R242: a grant of a handover reaches the plot of its target: the named task's table takes it, or the plot refuses. An
acquire that waits counts as an entry of the table (DEDUCED, log entry 15). -/
def State.handTo (s : State) (va : Word) (t plot task tenant : Nat) : State × Bool :=
  let p := plot % 2 ^ 20
  let x := s.plot p
  let taken := fun (y : Ctx) => y.gates.length + (match y.hold with
    | some h => match h.kind with
      | .acquire _ _ _ => 1
      | _ => 0
    | none => 0)
  let fits := fun (y : Ctx) => y.gates.any (fun g => g.names t) || decide (taken y < 4) || match y.hold with
    | some h => match h.kind with
      | .acquire _ t' _ => t' == t && decide (y.gates.length < 4)
      | _ => false
    | none => false
  let ids := ((List.range 4).filter fun c => (x.ctx c).live && !(x.ctx c).ended).map (fun c => (x.ctx c).csr.taskid) ++
    x.sched.images.map fun i => i.1.csr.taskid
  match ids.find? fun n => n % 2 ^ 28 == task with
  | none => (s, false)
  | some n =>
    match x.find n with
    | none => (s, false)
    | some pl =>
      if x.takes tenant && fits (x.at_ pl) then
        (s.modTask p n fun y => { y with gates := ⟨va, t, true, none⟩ :: y.gates.filter fun g => !g.names t }, true)
      else (s, false)

/-- R242: the answer to a handover's grant reaches the unit: the holder changes, or the record is released and REFUSED counts. GRANTS counts what
R240 grants, and not this (DESIGN CHOICE, log entry 108). -/
def State.handAnswer (s : State) (t tenant : Nat) (ok : Bool) : State :=
  let r := s.gateRec t
  if ok then (s.setGateRec t { r with xholder := r.hpend, hpend := 0 }).grants t tenant false
  else (s.setGateRec t { r with refused := r.refused + 1, hpend := 0 }).releaseAt t tenant

/-- R242, R254: a handover reaches its unit: an acquire of its target that waits is granted (R240), and the grant leaves. A target word that
names no plot of this package is refused. -/
def State.handoverAt (s : State) (m : Packet) (q : GateReq) (w : Word) : State :=
  let r := s.gateRec q.target
  if r.bad then s.badRecord m q q.va
  else
    let s := s.setGateRec q.target { r with hpend := w }
    let s := s.push ⟨.rsp, m.dst, .plot q.who.plot, m.tenant, .gateAns q.who (.words [] 0)⟩
    let plot := fldw w 0 36
    if !plotOk plot || plot / 2 ^ 20 ≠ s.pkg then s.handAnswer q.target q.tenant false
    else
      let g : Packet := ⟨.sys, m.dst, .plot plot, q.tenant, .handGrant q.va q.target plot (fldw w 36 28)⟩
      if s.detOf q.tenant then { s with deferred := s.deferred ++ [⟨q.who.plot, q.who.id, g⟩] } else (s.push g).grantNamed q.target

/-! ## Bindings (R245) -/

/-- R245: the regions bound on the package, those on their way to the service blocks included. -/
def State.bound (s : State) : List Region :=
  ((s.fields.flatMap fun f => f.2.regions) ++ s.net.filterMap fun m => match m.body with
    | .bindChange r true _ _ => some r
    | _ => none).eraseDups

/-- Two regions of one partition overlap. -/
def Region.meets (a b : Region) : Bool := a.tenant == b.tenant && decide (a.base < b.base + b.bytes) && decide (b.base < a.base + a.bytes)

/-- R245: a binding reaches its unit. -/
def State.bindAt (s : State) (m : Packet) (q : GateReq) (w : Word) : State :=
  let r := s.gateRec q.target
  let base : Word := .ofNat 64 (fldw w 16 40 * 2 ^ 16)
  let new : Region := ⟨q.tenant, q.target, fldw w 16 40 * 2 ^ 16, (fldw w 0 16 + 1) * 2 ^ 16⟩
  let all := s.bound
  let tell := fun (s : State) (g : Region) (add : Bool) =>
    (List.range 16).foldl (fun s f => s.push ⟨.sys, m.dst, .service f, m.tenant, .bindChange g add f q.who⟩) s
  if r.bad then s.badRecord m q q.va
  else if w = 0 then
    let old : Region := ⟨q.tenant, q.target, r.base * 2 ^ 16, (r.len + 1) * 2 ^ 16⟩
    tell (s.setGateRec q.target { r with bnd := false, base := 0, len := 0 }) old false
  else if all.any fun g => g.meets new && g.target != q.target then s.badRecord m q base
  else if Config.regionTable ≤ all.length then s.badRecord m q base
  else if r.bnd then s.badRecord m q q.va
  else tell (s.setGateRec q.target { r with bnd := true, base := fldw w 16 40, len := fldw w 0 16 }) new true

/-! ## The events -/

/-- R21: a request to a headgate unit by what does not own the record's memory is discarded and counted, and its task hears of it. -/
def State.gateForeign (s : State) (m : Packet) (q : GateReq) : Option State :=
  if m.tenant == 0 || s.owns m.tenant q.target then none else some ({ s with mismatch := s.mismatch + 1 }.reply m q.who .reject)

/-- R239, R240, R242, R245: an acquire, a handover or a binding reaches its headgate unit. In deterministic mode an acquire
waits for the end of the quantum (R254). A handover by the target of another that is under way waits for that one's answer (DEDUCED, log
entry 87). -/
def execHeadgateRequest (k : Nat) (s : State) : Res :=
  s.onMsg k fun s m => match m.body with
    | .gate q => if q.op = .rel then none else match s.gateForeign m q with
      | some t => some t
      | none => match q.op with
      | .acq excl =>
        if s.detOf q.tenant then some { s with deferred := s.deferred ++ [⟨q.who.plot, q.who.id, m⟩] }
        else some (s.acquireAt m q excl false)
      | .handover w => if (s.gateRec q.target).hpend != 0 then none else some (s.handoverAt m q w)
      | .bind w => some (s.bindAt m q w)
      | .rel => none
    | _ => none

/-- R240: a grant reaches its task: it enters the table, and the acquire retires. For a task that is gone the plot releases the
record again. -/
def State.takeGrant (s : State) (w : Who) (t : Nat) (va : Word) (excl : Bool) (tenant : Nat) : State :=
  let p := w.plot % 2 ^ 20
  let gone := s.push ⟨.req, .plot w.plot, .base (stackOf t), tenant, .gate ⟨⟨w.plot, 0, 0⟩, 0, va, t, .rel, tenant⟩⟩
  match (s.plot p).find w.task with
  | none => gone
  | some pl =>
    let y := (s.plot p).at_ pl
    match y.hold with
    | some h =>
      if h.id ≠ w.id then gone
      else
        let gates := if y.gates.any fun g => g.names t then y.gates else y.gates ++ [⟨va, t, excl, none⟩]
        (s.modPlot p fun x => x.put pl { y with hold := none, gates := gates } none).retireTask p pl
    | none => gone

/-- R240: a grant reaches the requesting task. -/
def execHeadgateGrant (k : Nat) (s : State) : Res :=
  s.onMsg k fun s m => match m.body with
    | .gateAns w (.words [t, va, e] _) => s.atPlot m id fun s _ => s.takeGrant w t.toNat va (bitw e 0) m.tenant
    | _ => none

/-- R241, R242, R244: a release reaches its unit, or the answer to a handover's grant. A release by the target of a handover
under way waits for that answer (DEDUCED, log entry 87). -/
def execHeadgateRelease (k : Nat) (s : State) : Res :=
  s.onMsg k fun s m => match m.body with
    | .gate q => match q.op with
      | .rel =>
        match s.gateForeign m q with
        | some t => some t
        | none =>
          let r := s.gateRec q.target
          if r.bad then some (s.badRecord m q q.va)
          else if r.hpend != 0 then none
          else some ((s.releaseAt q.target q.tenant).push ⟨.rsp, m.dst, .plot q.who.plot, m.tenant, .gateAns q.who (.words [] 0)⟩)
      | _ => none
    | .handAns t ok _ _ =>
      some (if m.tenant == 0 || s.owns m.tenant t then s.handAnswer t m.tenant ok else { s with mismatch := s.mismatch + 1 })
    | _ => none

/-- R242: the plot's part of a handover's grant, with its answer; a plot of another partition discards and counts it (R21). -/
def State.handArrive (s : State) (m : Packet) (va : Word) (t plot task : Nat) : State :=
  if !(s.plot (plot % 2 ^ 20)).takes m.tenant then s.mismatchAt (plot % 2 ^ 20)
  else
    let (s, ok) := s.handTo va t plot task m.tenant
    s.push ⟨.sys, .plot plot, .base (stackOf t), m.tenant, .handAns t ok plot task⟩

/-- R242: a handover's grant reaches the target plot. -/
def execHandoverGrant (k : Nat) (s : State) : Res :=
  s.onMsg k fun s m => match m.body with
    | .handGrant va t plot task => some (s.handArrive m va t plot task)
    | _ => none

/-- R245: a field service block applies a change of a binding, and acknowledges it; one that does not carry the partition of the record's memory
is discarded and counted (R21). -/
def execHgbindChange (k : Nat) (s : State) : Res :=
  s.onMsg k fun s m => match m.body, m.dst with
    | .bindChange r add _ w, .service f =>
      if !(m.tenant == 0 || s.owns m.tenant r.target) then some { s with mismatch := s.mismatch + 1 }
      else
      let keep := fun (e : Tlb) => !(e.tenant == r.tenant && decide (e.va < r.base + r.bytes) && decide (r.base < e.va + e.bytes))
      let s := s.modField f fun x => { x with
        regions := (x.regions.filter fun g => g.target != r.target) ++ (if add then [r] else [])
        tlb := x.tlb.filter keep }
      let s := { s with plots := s.plots.map fun (x : Nat × Plot) =>
        (x.1, if fieldOf x.1 = f then { x.2 with utlb := x.2.utlb.filter keep } else x.2) }
      some (s.push ⟨.sys, m.dst, .plot w.plot, m.tenant, .bindAck w⟩)
    | _, _ => none

/-! ## Barriers (R252, R253) -/

/-- R253: an arrival at a barrier. The first sixteen rectangles are active; a further one waits. One whose rectangle holds a plot of another
partition is discarded and counted, and its bar faults (R21). -/
def execBarrierArrival (k : Nat) (s : State) : Res :=
  s.onMsg k fun s m => match m.body, m.dst with
    | .barArrive w rect, .service f =>
      if !(rectPlots rect).all fun p => (s.plot (p % 2 ^ 20)).takes m.tenant then
        some ({ s with mismatch := s.mismatch + 1 }.reply m w .reject)
      else
      let x := s.field f
      let bs := if x.barriers.any fun b => b.rect == rect then
          x.barriers.map fun b => if b.rect = rect then { b with count := b.count + 1, waiters := b.waiters ++ [w] } else b
        else x.barriers ++ [⟨rect, 1, ((x.gens.find? fun g => g.1 == rect).map (·.2)).getD 0, [w]⟩]
      some (s.modField f fun x => { x with barriers := bs })
    | _, _ => none

/-- R253: a complete barrier releases its waiters with its generation, which moves on. -/
def execBarrierRelease (f k : Nat) (s : State) : Res :=
  let x := s.field f
  match (x.barriers.take 16)[k]? with
  | none => .next s
  | some b =>
    let (_, h, n) := rectOf b.rect
    if b.count < h * n then .next s
    else
      let s := s.modField f fun x => { x with
        barriers := x.barriers.eraseIdx k
        gens := (b.rect, (b.gen + 1) % 256) :: x.gens.filter fun g => g.1 != b.rect }
      .next (b.waiters.foldl (fun s w =>
        s.push ⟨.rsp, .service f, .plot w.plot, (s.plot (w.plot % 2 ^ 20)).tenant, .rsp w (.words [.ofNat 64 b.gen] 0)⟩) s)

end Sys2Proof.Machine
end

