-- ==== Sys2Proof/Machine/Weir.lean ====
section
/-!
DEFINITION. The weirs of the field service blocks: the priority pools (12, R256 to R275).
-/

namespace Sys2Proof.Machine

open Sys2Proof

/-! ## Elements and their order (R257, R258) -/

/-- R258: an element's place in the order ≺. -/
def Elem.place (e : Elem) : List Nat := [e.key, e.time, e.field, e.seq]

/-- R258: ≺. -/
def Elem.before (a b : Elem) : Bool := lexLt a.place b.place

/-- R273: the order of age among overdue elements; of equally old ones the key, the field and the number decide (DESIGN CHOICE, log entry 111). -/
def Elem.age (e : Elem) : List Nat := [e.time, e.key, e.field, e.seq]

/-- R258: STAMP. -/
def Elem.stamp (e : Elem) : Nat := fld e.time 10 24

/-- R257: the entry of an element of a pool, as it is shown. -/
def Elem.entry (e : Elem) (pool : Nat) : BitVec 128 :=
  .ofNat 128 (e.val.toNat * 2 ^ 64 + pool % 64 * 2 ^ 58 + bit e.ovd * 2 ^ 57 + bit e.moved * 2 ^ 56 + e.stamp * 2 ^ 32 + e.key % 2 ^ 32)

/-- R259: the result word of an element held or stored by a weir. -/
def elemWord (e : Elem) (weir : Nat) (pul ovd : Bool) : Word :=
  .ofNat 64 (bit ovd * 2 ^ 63 + bit pul * 2 ^ 62 + weir * 2 ^ 56 + e.stamp * 2 ^ 32 + e.key)

/-- R259: a result word with ST ≠ 0. -/
def stWord (st : Nat) : Word := .ofNat 64 (st * 2 ^ 60)

/-- An entry put into a sorted list, before its equals. -/
def insertBy {α : Type} (le : α → α → Bool) (a : α) : List α → List α
  | [] => [a]
  | b :: t => if le a b then a :: b :: t else b :: insertBy le a t

/-- A list sorted by an order; equals keep their order. -/
def sortBy {α : Type} (le : α → α → Bool) (l : List α) : List α := l.foldr (insertBy le) []

/-- Elements in the order ≺. -/
def sortElems (l : List (Elem × Nat)) : List (Elem × Nat) := sortBy (fun a b => !b.1.before a.1) l

/-! ## Weirs, shards and summaries -/

/-- A pool's configuration at a weir. -/
def Weir.cfg (x : Weir) (q : Nat) : PoolCfg := Sparse.get PoolCfg.reset x.cfgs q

/-- A pool's shard at a weir. -/
def Weir.shard (x : Weir) (q : Nat) : Shard := Sparse.get Shard.reset x.shards q

/-- Changes the weir of a field. -/
def State.modWeir (s : State) (f : Nat) (g : Weir → Weir) : State := s.modField f fun x => { x with weir := g x.weir }

/-- The weir of a field. -/
def State.weir (s : State) (f : Nat) : Weir := (s.field f).weir

/-- Changes a shard. -/
def State.modShard (s : State) (f q : Nat) (g : Shard → Shard) : State :=
  s.modWeir f fun x => { x with shards := Sparse.set Shard.reset x.shards q (g (x.shard q)) }

/-- R269: the pulls of a weir that are outstanding. -/
def Weir.pulls (x : Weir) : Nat := (x.takes.filter (·.pulling)).length

/-- R23, R256: the free entries of a weir. -/
def Weir.free (x : Weir) : Nat :=
  Config.weirEntries - ((x.shards.map fun s => s.2.elems.length + s.2.moving.length).sum + x.pending.length)

/-- R267: the latest summary of a pool that a weir holds of a field. -/
def Shard.latest (x : Shard) (g : Nat) : Option Summary :=
  ((x.round ++ x.incoming).filter fun m => m.field == g).foldl (fun b m => match b with
    | none => some m
    | some a => if a.period ≤ m.period then some m else some a) none

/-- R267: the padded set, with the number of copies of each element and the weir that holds it. -/
def Shard.padded (x : Shard) : List (Elem × Nat × Nat) :=
  x.round.flatMap fun m => m.firsts.map fun e => (e.1, e.2, m.field)

/-- R267: the known set. -/
def Shard.known (x : Shard) : List (Elem × Nat × Nat) := x.padded ++ x.announced.map fun e => (e.1, 1, e.2.1)

/-- R257: the pool's entries in a weir: its elements, those on their way to another weir, and those of puts that have not completed. -/
def Weir.entries (x : Weir) (q : Nat) : List Elem :=
  (x.shard q).elems ++ (x.shard q).moving ++ (x.pending.filter fun p => p.pool == q).map (·.elem)

/-- The n-th entry of a list of elements in order, copies counted; none is ⊤. -/
def nth : Nat → List (Elem × Nat) → Option Elem
  | _, [] => none
  | n, (e, c) :: t => if n ≤ c then some e else nth (n - c) t

/-- R268: the PPBOUND-th element of a set. -/
def threshold (bound : Nat) (l : List (Elem × Nat × Nat)) : Option Elem := nth bound (sortElems (l.map fun e => (e.1, e.2.1)))

/-- An element precedes or equals a threshold. -/
def upTo (e : Elem) (t : Option Elem) : Bool := match t with
  | none => true
  | some x => !x.before e

/-- The first element of a shard. -/
def Shard.first (x : Shard) : Option Elem := firstBy Elem.place x.elems

/-- R266, R268: the PPBOUND of a weir's last complete round: the smallest under which a summary of it was sent. So it is the same at every
weir, and a greater one serves only once every weir announces under it (DEDUCED, log entry 92). -/
def Weir.bound (x : Weir) (q : Nat) : Nat := (x.shard q).round.foldl (fun b m => min b m.bound) (x.cfg q).bound

/-- R268: Tserve of a pool at a weir. -/
def Weir.tserve (x : Weir) (q : Nat) : Option Elem := threshold (x.bound q) (x.shard q).known

/-- R268: Tround of a pool at a weir. -/
def Weir.tround (x : Weir) (q : Nat) : Option Elem := threshold (x.bound q) (x.shard q).padded

/-- R262: an element is to be announced at weir `f`: it precedes Tround, that of a greater PPBOUND that is on its way included; or a summary of
the weir that cannot hold it is under way, so that only this lets R270's contract hold under the next round's Tround (DEDUCED, log entry 93). -/
def Weir.announces (x : Weir) (f q : Nat) (e : Elem) : Bool := (x.shard q).incoming.any (·.field == f) || match threshold (max (x.bound q) (x.cfg q).bound) (x.shard q).padded with
  | none => true
  | some t => e.before t

/-- R273: the overdue elements known to a weir, with the weir that holds each. -/
def Weir.overdue (x : Weir) (f q : Nat) : List (Elem × Nat) :=
  (((x.shard q).elems.filter (·.ovd)).map fun e => (e, f)) ++
    (x.shard q).round.filterMap fun m => if m.field = f then none else m.oldest.map fun e => (e, m.field)

/-! ## Answers -/

/-- An answer without an element. -/
def State.poolReply (s : State) (f tenant : Nat) (w : Who) (ws : List Word) : State :=
  s.push ⟨.rsp, .service f, .plot w.plot, tenant, .rsp w (.words ws 0)⟩

/-- R263: the answer of a take that received an element; it travels with it (R274). The weir counts a take served (R267). -/
def State.poolGive (s : State) (f q : Nat) (w : Who) (e : Elem) (weir : Nat) (ovd : Bool) : State :=
  (s.modShard f q fun x => { x with served := x.served + 1 }).push ⟨.rsp, .service f, .plot w.plot, ((s.weir f).cfg q).owner,
    .poolAns w (.words [e.val, elemWord e weir (weir != f) ovd] 0) q e⟩

/-- A weir removes an element for a take. The element stays in the known sets until the next round (R267, R270). -/
def State.removeElem (s : State) (f q : Nat) (e : Elem) : State :=
  s.modShard f q fun x => { x with elems := x.elems.erase e, takes := x.takes + 1 }

/-- The insertion time of an element: CYCLE, or the quantum (R275). -/
def State.poolTime (s : State) (tenant : Nat) : Nat :=
  match s.host.parts.find? fun p => p.tenant == tenant with
  | some p => if bitw p.detctl 0 then p.quantum * 1024 else s.now
  | none => s.now

/-- R273: an element is overdue under a configuration at a time. -/
def PoolCfg.overdue (c : PoolCfg) (t : Nat) (e : Elem) : Bool := c.age != 0 && decide (e.time + c.age * 1024 < t)

/-- R273: a weir sets OVD of the elements that are overdue, and of no other (PPAGE can change, R266). -/
def State.markOverdue (s : State) (f q : Nat) : State :=
  let c := (s.weir f).cfg q
  s.modShard f q fun x => { x with elems := x.elems.map fun e => { e with ovd := c.overdue (s.poolTime c.owner) e } }

/-! ## Serving a take (R263, R269, R272, R273) -/

/-- Changes the take of a task. -/
def State.modTake (s : State) (f : Nat) (w : Who) (g : Take → Take) : State :=
  s.modWeir f fun x => { x with takes := x.takes.map fun t => if t.who = w then g t else t }

/-- The take is served. -/
def State.dropTake (s : State) (f : Nat) (w : Who) : State := s.modWeir f fun x => { x with takes := x.takes.filter fun t => t.who != w }

/-- Sends a message from one weir to another. -/
def State.toWeir (s : State) (f g tenant : Nat) (m : WeirMsg) : State := s.push ⟨.sys, .service f, .service g, tenant, .weir m⟩

/-- R269: a pull leaves; while 16 are outstanding the take queues behind them. -/
def State.sendPull (s : State) (f g q : Nat) (w : Who) (ovd : Bool) : State :=
  if 16 ≤ (s.weir f).pulls then s.modTake f w fun t => { t with queued := true, refused := false }
  else (s.modTake f w fun t => { t with pulling := true, queued := false, refused := false }).toWeir f g
    ((s.weir f).cfg q).owner (.pull q f w ovd)

/-- R272: a collect over all weirs starts. -/
def State.startCollect (s : State) (f q : Nat) (w : Who) (n : Nat) : State :=
  let s := s.modTake f w fun t => { t with collecting := n, first := if n = 1 then [] else t.first, second := [] }
  (List.range 16).foldl (fun s g => s.toWeir f g ((s.weir f).cfg q).owner (.collect q f w)) s

/-- R269, R273, R272: the local weir tries to serve a take: an overdue element, its own first element under the threshold, a pull from the weir
that holds the first known element; and where none is known, emptiness agreement. -/
def State.tryTake (s : State) (f q : Nat) (w : Who) : State :=
  let s := s.markOverdue f q
  let x := s.weir f
  let sh := x.shard q
  match firstBy (fun e => Elem.age e.1) (x.overdue f q) with
  | some (e, g) =>
    if g = f then ((s.removeElem f q e).dropTake f w).poolGive f q w e f true
    else s.sendPull f g q w true
  | none =>
    let own := match sh.first with
      | some e => if upTo e (x.tserve q) then some e else none
      | none => none
    match own with
    | some e => ((s.removeElem f q e).dropTake f w).poolGive f q w e f false
    | none =>
      match firstBy (fun e => Elem.place e.1) sh.known with
      | some (_, _, g) => s.sendPull f g q w false
      | none =>
        match x.takes.find? fun t => t.who == w with
        | some t => if t.parked then s else s.startCollect f q w 1
        | none => s

/-- R263: a take may be tried: nothing is out for it, and of the parked takes of its pool it is the first. -/
def Weir.mayTake (x : Weir) (t : Take) : Bool :=
  !t.pulling && t.collecting == 0 && (!t.parked || (x.takes.find? fun u => u.parked && u.pool == t.pool).any fun u => u.who == t.who)

/-- R263, R269: the takes that wait at a weir and meet a condition are tried again, in their order of arrival. In deterministic mode takes are
served when a quantum ends (R275). -/
def State.retakes (s : State) (f : Nat) (which : Take → Bool) : State :=
  ((s.weir f).takes.map (·.who)).foldl (fun s w => match (s.weir f).takes.find? fun t => t.who == w with
    | some t =>
      if which t && (s.weir f).mayTake t && !s.detOf ((s.weir f).cfg t.pool).owner then s.tryTake f t.pool w else s
    | none => s) s

/-- R263: an element has been stored at or moved into a weir: its parked takes are tried again. -/
def State.tryParked (s : State) (f q : Nat) : State := s.retakes f fun t => t.pool == q && t.parked

/-- R263, R269: an announcement has reached a weir, or a round has completed there: its parked takes, and those whose pull was refused. -/
def State.tryTakes (s : State) (f q : Nat) : State := s.retakes f fun t => t.pool == q && (t.parked || t.refused)

/-! ## Puts (R262) -/

/-- The put of an element completes: it is in the pool, and its task, if there is one, has its answer. -/
def State.putDone (s : State) (f q : Nat) (w : Option Who) (e : Elem) (origin : Nat) : State :=
  let s := s.modShard f q fun x => { x with elems := x.elems ++ [e], puts := x.puts + 1 }
  let s := match w with
    | some w => s.poolReply f ((s.weir f).cfg q).owner w [elemWord e f (f != origin) false]
    | none => s
  s.tryParked f q

/-- R262: a weir stores an element, which completes its put, or is announced first where it precedes Tround. In deterministic mode, where it
is applied at the end of a quantum (R275), the announcement reaches the other weirs at once. -/
def State.keepElem (s : State) (f q : Nat) (e : Elem) (w : Option Who) (origin : Nat) : State :=
  let x := s.weir f
  let tn := (x.cfg q).owner
  let ann := x.announces f q e
  let s := s.modWeir f fun x => { x with seq := x.seq + 1 }
  if ann && s.detOf tn then
    ((List.range 16).foldl (fun s g => s.modShard g q fun y => { y with announced := y.announced ++ [(e, f, x.seq)] }) s).putDone f q w e origin
  else if ann then
    let s := s.modWeir f fun y => { y with pending := y.pending ++ [⟨x.seq, q, w, e, origin, 15⟩] }
    let s := s.modShard f q fun y => { y with announced := y.announced ++ [(e, f, x.seq)] }
    ((List.range 16).filter (· != f)).foldl (fun s g => s.toWeir f g tn (.announce q e f x.seq)) s
  else s.putDone f q w e origin

/-- R262: a weir stores the element of a put. -/
def State.storeElem (s : State) (f q key : Nat) (val : Word) (w : Who) (origin : Nat) : State :=
  let x := s.weir f
  s.keepElem f q ⟨key, val, s.poolTime (x.cfg q).owner, f, x.seq, false, false, (x.cfg q).inc⟩ (some w) origin

/-- R274: an element that no task could take is put back at a weir, with its place; it counts as put once more (R272), and is announced where a
put would be (R270). One of an earlier enabling of the pool is discarded (R266). A weir that is full tries again after 256 cc (R23; DESIGN
CHOICE, log entry 94). -/
def State.putBack (s : State) (f q : Nat) (e : Elem) : State :=
  let c := (s.weir f).cfg q
  if !(c.en && c.inc == e.inc) then s
  else if (s.weir f).free = 0 then
    { s with resend := s.resend ++ [(s.now + Config.resendAfter, ⟨.req, .service f, .service f, c.owner, .unput q e⟩)] }
  else s.keepElem f q e none f

/-- R262: the other weirs in the order in which a put is redirected to them; one of which no summary has come counts as full (DESIGN CHOICE, log
entry 110). -/
def Weir.others (x : Weir) (f q : Nat) : List Nat :=
  let key := fun g => [Config.weirEntries - ((x.shard q).latest g |>.map (·.free)).getD 0, g]
  sortBy (fun a b => !lexLt (key b) (key a)) ((List.range 16).filter (· != f))

/-- R262: a put at a weir that was redirected `next` as the list of weirs still to try. -/
def State.redirectTo (s : State) (f q key : Nat) (val : Word) (w : Who) (origin : Nat) (next : List Nat) : State :=
  match next with
  | [] =>
    let s := s.modWeir origin fun x => { x with redirects := x.redirects - 1 }
    s.poolReply origin ((s.weir origin).cfg q).owner w [stWord 2]
  | g :: rest => s.toWeir f g ((s.weir f).cfg q).owner (.redirect q key val w origin rest)

/-- R262: a put at its local weir. -/
def State.putAt (s : State) (f q key : Nat) (val : Word) (w : Who) : State :=
  let x := s.weir f
  if x.free = 0 then (s.modWeir f fun x => { x with redirects := x.redirects + 1 }).redirectTo f q key val w f (x.others f q)
  else s.storeElem f q key val w f

/-! ## The requests of plots -/

/-- R256, R21, R261: the checks of a request at its local weir: another partition's pool, and a disabled one. -/
def State.poolCheck (s : State) (m : Packet) (f q : Nat) (w : Who) (c : Cause) (v : Word) (off : List Word) (go : State → State) : State :=
  let k := (s.weir f).cfg q
  if k.en && k.owner != m.tenant then { s with mismatch := s.mismatch + 1 }.reply m w (.trap c v)
  else if !k.en then s.reply m w (.words off 0)
  else go s

/-- R262, R275: a put reaches its local weir; in deterministic mode it waits for the end of the quantum. -/
def execWeirPut (k : Nat) (s : State) : Res :=
  s.onMsg k fun s m => match m.body, m.dst with
    | .pool w q (.put key val) v, .service f =>
      some (if s.detOf m.tenant then { s with deferred := s.deferred ++ [⟨w.plot, w.id, m⟩] }
        else s.poolCheck m f q w .storeFault v [stWord 3] fun s => s.putAt f q key val w)
    | _, _ => none

/-- R21: what one weir tells another of a pool carries the pool's partition; another partition's is discarded and counted. -/
def State.weirForeign (s : State) (f q : Nat) (m : Packet) : Bool := ((s.weir f).cfg q).en && ((s.weir f).cfg q).owner != m.tenant

/-- R262: a redirected put reaches another weir. -/
def execPutRedirect (k : Nat) (s : State) : Res :=
  s.onMsg k fun s m => match m.body, m.dst with
    | .weir (.redirect q key val w origin next), .service f =>
      if s.weirForeign f q m then some { s with mismatch := s.mismatch + 1 }
      else if !((s.weir f).cfg q).en then
        some ((s.modWeir origin fun x => { x with redirects := x.redirects - 1 }).poolReply origin m.tenant w [stWord 3])
      else if (s.weir f).free = 0 then some (s.redirectTo f q key val w origin next)
      else some ((s.modWeir origin fun x => { x with redirects := x.redirects - 1 }).storeElem f q key val w origin)
    | _, _ => none

/-- R262, R267, R263: an announced element reaches a weir, which acknowledges it. -/
def execAnnouncement (k : Nat) (s : State) : Res :=
  s.onMsg k fun s m => match m.body, m.dst with
    | .weir (.announce q e g id), .service f =>
      if s.weirForeign f q m then some { s with mismatch := s.mismatch + 1 }
      else
        let s := if ((s.weir f).cfg q).en && ((s.weir f).cfg q).inc == e.inc then
          s.modShard f q fun x => { x with announced := x.announced ++ [(e, g, id)] } else s
        some ((s.toWeir f g m.tenant (.announceAck q id)).tryTakes f q)
    | _, _ => none

/-- R262: an acknowledgement of an announcement; the last completes the put. -/
def execAnnouncementAck (k : Nat) (s : State) : Res :=
  s.onMsg k fun s m => match m.body, m.dst with
    | .weir (.announceAck q id), .service f =>
      if s.weirForeign f q m then some { s with mismatch := s.mismatch + 1 }
      else match (s.weir f).pending.find? fun p => p.id == id && p.pool == q with
      | none => some s
      | some p =>
        if p.left ≤ 1 then
          some ((s.modWeir f fun x => { x with pending := x.pending.filter (· != p) }).putDone f q p.who p.elem p.origin)
        else some (s.modWeir f fun x => { x with pending := x.pending.map fun y => if y = p then { y with left := y.left - 1 } else y })
    | _, _ => none

/-- A take as it reaches its weir. -/
def Take.fresh (w : Who) (q : Nat) (n : Bool) (since : Nat) : Take :=
  { who := w, pool := q, n := n, pulling := false, queued := false, refused := false, parked := false, since := since, first := [], second := [],
    collecting := 0 }

/-- R263, R269, R274: a take reaches its local weir; or an element that a task could not take comes back with its place. -/
def execWeirTake (k : Nat) (s : State) : Res :=
  s.onMsg k fun s m => match m.body, m.dst with
    | .pool w q (.take n) v, .service f =>
      some (if s.detOf m.tenant then { s with deferred := s.deferred ++ [⟨w.plot, w.id, m⟩] }
        else s.poolCheck m f q w .loadFault v [0, stWord 3] fun s =>
          (s.modWeir f fun x => { x with takes := x.takes ++ [Take.fresh w q n 0] }).tryTake f q w)
    | .unput q e, .service f =>
      if s.weirForeign f q m then some { s with mismatch := s.mismatch + 1 } else some (s.putBack f q e)
    | _, _ => none

/-- R264: a peek. It pulls and serves nothing, so PUL and OVD are 0 (DEDUCED, log entry 21). -/
def execWeirPeek (k : Nat) (s : State) : Res :=
  s.onMsg k fun s m => match m.body, m.dst with
    | .pool w q .peek v, .service f =>
      some (s.poolCheck m f q w .loadFault v [stWord 3] fun s =>
        match firstBy (fun e => Elem.place e.1) ((s.weir f).shard q).known with
        | some (e, _, g) => s.reply m w (.words [elemWord e g false false] 0)
        | none => s.reply m w (.words [stWord 1] 0))
    | _, _ => none

/-- R265: the state word of a pool at a weir. It counts the elements that the weir has moved and whose receipt is not acknowledged (R271). -/
def Weir.stat (x : Weir) (f q : Nat) : Word :=
  let c := x.cfg q
  let sh := x.shard q
  let total := ((List.range 16).map fun g => ((sh.latest g).map (·.count)).getD 0).sum
  let waits := (x.takes.filter fun t => t.pool == q && t.parked).length
  .ofNat 64 (bit c.en * 2 ^ 63 + (c.bound - 1) * 2 ^ 48 + (sh.elems.length + sh.moving.length) % 2 ^ 15 * 2 ^ 32 + total % 2 ^ 20 * 2 ^ 12 +
    min waits 255 * 16 + min (x.overdue f q).length 15)

/-- R265: a pstat. A disabled pool is answered too. -/
def execWeirStat (k : Nat) (s : State) : Res :=
  s.onMsg k fun s m => match m.body, m.dst with
    | .pool w q .stat v, .service f =>
      let c := (s.weir f).cfg q
      if c.en && c.owner != m.tenant then some ({ s with mismatch := s.mismatch + 1 }.reply m w (.trap .loadFault v))
      else some (s.reply m w (.words [(s.weir f).stat f q] 0))
    | _, _ => none

/-! ## Configuration (R266) -/

/-- R266: the configuration of a word. -/
def cfgOf (w : Word) (owner inc : Nat) : PoolCfg := ⟨bitw w 63, owner, fldw w 0 14 + 1, fldw w 32 22, fldw w 16 8, inc⟩

/-- R266: a weir applies a configuration. -/
def State.applyCfg (s : State) (f q : Nat) (w : Word) (tenant : Nat) : State :=
  let c := (s.weir f).cfg q
  if !bitw w 63 then
    let x := s.weir f
    let gone := x.takes.filter fun t => t.pool == q
    let puts := x.pending.filter fun p => p.pool == q
    let s := gone.foldl (fun s t => s.poolReply f tenant t.who [0, stWord 3]) s
    let s := puts.foldl (fun s p => match p.who with
      | some w => s.poolReply f tenant w [stWord 3]
      | none => s) s
    s.modWeir f fun x => { x with
      cfgs := Sparse.set PoolCfg.reset x.cfgs q { PoolCfg.reset with inc := c.inc + 1 }
      shards := Sparse.set Shard.reset x.shards q Shard.reset
      takes := x.takes.filter fun t => t.pool != q
      pending := x.pending.filter fun p => p.pool != q }
  else if c.en then s.modShard f q fun x => { x with nextCfg := some w }
  else s.modWeir f fun x => { x with
    cfgs := Sparse.set PoolCfg.reset x.cfgs q (cfgOf w tenant c.inc)
    shards := Sparse.set Shard.reset x.shards q Shard.reset }

/-- R266: a configuration reaches the local weir, which passes it on to the others, or one of them. Each acknowledges it, or refuses it where
the pool is another partition's there (R256; with two partitions that enable one pool at once, DESIGN CHOICE, log entry 90). -/
def execWeirCfg (k : Nat) (s : State) : Res :=
  s.onMsg k fun s m => match m.body, m.dst with
    | .pool who q (.cfg w) v, .service f =>
      let c := (s.weir f).cfg q
      if c.en && c.owner != m.tenant then some ({ s with mismatch := s.mismatch + 1 }.reply m who (.trap .storeFault v))
      else
        let s := ((List.range 16).filter (· != f)).foldl (fun s g => s.toWeir f g m.tenant (.cfg q w who m.tenant)) s
        some ((s.applyCfg f q w m.tenant).push ⟨.rsp, m.dst, .plot who.plot, m.tenant, .sysAck who⟩)
    | .weir (.cfg q w who tenant), .service f =>
      if s.weirForeign f q m then some ({ s with mismatch := s.mismatch + 1 }.reply m who (.trap .storeFault w))
      else some ((s.applyCfg f q w tenant).push ⟨.sys, m.dst, .plot who.plot, m.tenant, .sysAck who⟩)
    | _, _ => none

/-! ## Summaries, rounds and moves (R267, R268, R271) -/

/-- R267: the summary of a pool at a weir. -/
def Weir.summary (x : Weir) (f q period : Nat) : Summary :=
  let sh := x.shard q
  let all := sortBy (fun a b => !b.before a) (x.entries q)
  let n := all.length
  { field := f, period := period, seq := x.seq, count := n,
    firsts := (all.take 8).zipIdx.map fun e => (e.1, if e.2 = 7 then n - 7 else 1)
    free := x.free, served := sh.served, parked := (x.takes.filter fun t => t.pool == q && t.parked).length,
    oldest := firstBy Elem.age (sh.elems.filter (·.ovd)), bound := (x.cfg q).bound }

/-- R271: after a round the weir moves elements that precede Tround, where it holds more than its share of those up to it, to the
weir with the most parked takes, or with the most takes served. -/
def State.rebalance (s : State) (f q : Nat) : State :=
  let x := s.weir f
  let sh := x.shard q
  let t := x.tround q
  let total := (sh.padded.map fun e => if upTo e.1 t then e.2.1 else 0).sum
  let share := (total + 15) / 16
  let mine := sortBy (fun a b => !b.before a) (sh.elems.filter fun e => match t with
    | none => true
    | some b => e.before b)
  let pick := fun (g : Summary → Nat) => (firstBy (fun (m : Summary) => [2 ^ 64 - g m, m.field]) sh.round).bind fun m =>
    if g m = 0 then none else some m
  let to_ := match pick (·.parked) with
    | some m => some m
    | none => pick (·.served)
  match to_ with
  | none => s
  | some r =>
    let es := (mine.take (min (min 8 (mine.length - share)) r.free)).map fun e => { e with moved := true }
    if r.field = f || es.isEmpty || !sh.moving.isEmpty then s
    else
      let s := s.modShard f q fun y => { y with
        elems := y.elems.filter fun e => !(es.any fun m => m.place == e.place), moving := es }
      s.toWeir f r.field (x.cfg q).owner (.move q es f)

/-- R268: an announcement is included in a round: the weir that made it counted it in its summary, or had given the element away by then. -/
def included (round : List Summary) (e : Elem × Nat × Nat) : Bool := round.any fun m => m.field == e.2.1 && decide (e.2.2 < m.seq)

/-- R267, R268: a summary is noted; the sixteenth of a period completes a round. In deterministic mode no element moves: a weir may move them
(R271). -/
def State.noteSummary (s : State) (f q : Nat) (m : Summary) : State :=
  let s := s.modShard f q fun x => { x with incoming := x.incoming.filter (fun a => !(a.field == m.field && a.period == m.period)) ++ [m] }
  let x := s.weir f
  let same := (x.shard q).incoming.filter fun a => a.period == m.period
  if same.length < 16 then s.retakes f fun t => t.pool == q && t.refused
  else
    let s := s.modShard f q fun y => { y with
      round := same
      incoming := y.incoming.filter fun a => decide (m.period < a.period)
      announced := y.announced.filter fun e => !included same e }
    (if s.detOf (x.cfg q).owner then s else s.rebalance f q).tryTakes f q

/-- R267, R266: every PER × 16 cc a weir broadcasts a summary of an enabled pool; a new configuration takes effect with that round. -/
def execWeirSummary (f q : Nat) (s : State) : Res :=
  let s := s.markOverdue f q
  let x := s.weir f
  let c := x.cfg q
  if !c.en || c.per = 0 || s.now % (c.per * 16) ≠ 0 then .next s
  else
    let period := s.now
    if ((x.shard q).incoming ++ (x.shard q).round).any fun m => m.field == f && m.period == period then .next s
    else
      let s := match (x.shard q).nextCfg with
        | some w => s.modWeir f fun x => { x with cfgs := Sparse.set PoolCfg.reset x.cfgs q (cfgOf w c.owner c.inc) }
        | none => s
      let m := (s.weir f).summary f q period
      let s := s.modShard f q fun y => { y with served := 0, nextCfg := none }
      let s := ((List.range 16).filter (· != f)).foldl (fun s g => s.toWeir f g c.owner (.summary q m)) s
      .next (s.noteSummary f q m)

/-- R267: a summary reaches a weir. -/
def execSummaryArrival (k : Nat) (s : State) : Res :=
  s.onMsg k fun s m => match m.body, m.dst with
    | .weir (.summary q sm), .service f =>
      if s.weirForeign f q m then some { s with mismatch := s.mismatch + 1 }
      else if ((s.weir f).cfg q).en then some (s.noteSummary f q sm) else some s
    | _, _ => none

/-- R271, R263, R23: moved elements reach a weir, which acknowledges those that it has an entry for; or the acknowledgement reaches the sender,
which keeps the others. -/
def execMoveArrival (k : Nat) (s : State) : Res :=
  s.onMsg k fun s m => match m.body, m.dst with
    | .weir (.move q es g), .service f =>
      if s.weirForeign f q m then some { s with mismatch := s.mismatch + 1 }
      else
        let inc := (es.map (·.inc)).headD 0
        let es := es.take (s.weir f).free
        let s := if ((s.weir f).cfg q).en then s.modShard f q fun x => { x with
            elems := x.elems ++ (es.filter fun e => e.inc == ((s.weir f).cfg q).inc).map fun e => { e with moved := false } } else s
        some ((s.toWeir f g m.tenant (.moveAck q es.length inc)).tryParked f q)
    | .weir (.moveAck q n inc), .service f =>
      if s.weirForeign f q m then some { s with mismatch := s.mismatch + 1 }
      else if inc ≠ ((s.weir f).cfg q).inc then some s
      else some (s.modShard f q fun x => { x with elems := x.elems ++ (x.moving.drop n).map fun e => { e with moved := false }, moving := [] })
    | _, _ => none

/-! ## Pulls and emptiness (R269, R272) -/

/-- R269, R273: a pull reaches the weir that holds the element it is after. -/
def execPull (k : Nat) (s : State) : Res :=
  s.onMsg k fun s m => match m.body, m.dst with
    | .weir (.pull q g w ovd), .service f =>
      if s.weirForeign f q m then some { s with mismatch := s.mismatch + 1 }
      else
      let s := s.markOverdue f q
      let x := s.weir f
      let e := if ovd then firstBy Elem.age ((x.shard q).elems.filter (·.ovd))
        else match (x.shard q).first with
          | some e => if upTo e (x.tserve q) then some e else none
          | none => none
      some (match e with
        | some e => (s.removeElem f q e).toWeir f g m.tenant (.pullAns q w (some e) f ovd)
        | none => s.toWeir f g m.tenant (.pullAns q w none f ovd))
    | _, _ => none

/-- R269: a pull's answer reaches the local weir: the take is served, or waits for the next summary or announcement; the takes that queue
behind the pulls are tried. An element for a take that is gone goes back into the pool; one of an earlier enabling is discarded (R266). -/
def execPullAnswer (k : Nat) (s : State) : Res :=
  s.onMsg k fun s m => match m.body, m.dst with
    | .weir (.pullAns q w e g ovd), .service f =>
      if s.weirForeign f q m then some { s with mismatch := s.mismatch + 1 }
      else
      let waits := (s.weir f).takes.any fun t => t.who == w && t.pool == q
      let s := match e with
        | some e =>
          if waits && e.inc == ((s.weir f).cfg q).inc then (s.dropTake f w).poolGive f q w e g ovd else s.putBack f q e
        | none => s.modTake f w fun t => { t with pulling := false, refused := true }
      some (s.retakes f (·.queued))
    | _, _ => none

/-- R272: a weir answers a collect. Its announcements and moves are those of the pool, its pulls and redirects those of every pool (DESIGN CHOICE,
log entry 112). -/
def execEmptinessCollect (k : Nat) (s : State) : Res :=
  s.onMsg k fun s m => match m.body, m.dst with
    | .weir (.collect q g w), .service f =>
      let x := s.weir f
      let sh := x.shard q
      let flying := (x.pending.filter fun p => p.pool == q).length + x.pulls + x.redirects + sh.moving.length
      if s.weirForeign f q m then some { s with mismatch := s.mismatch + 1 }
      else some (s.toWeir f g m.tenant (.collectAns q f w sh.puts sh.takes flying))
    | _, _ => none

/-- R272: the two collects agree that the pool is empty. -/
def Take.agreed (t : Take) : Bool :=
  let sort := fun (l : List (Nat × Nat × Nat × Nat)) => sortBy (fun a b => decide (a.1 ≤ b.1)) l
  let a := sort t.first
  let b := sort t.second
  a == b && (a.map fun c => c.2.1).sum == (a.map fun c => c.2.2.1).sum && (a ++ b).all fun c => c.2.2.2 == 0

/-- R272: an answer to a collect reaches the weir that asked; the sixteenth of the second decides. -/
def execCollectAnswer (k : Nat) (s : State) : Res :=
  s.onMsg k fun s m => match m.body, m.dst with
    | .weir (.collectAns q g w puts takes flying), .service f =>
      if s.weirForeign f q m then some { s with mismatch := s.mismatch + 1 }
      else match (s.weir f).takes.find? fun t => t.who == w && t.pool == q with
      | none => some s
      | some t =>
        let a := (g, puts, takes, flying)
        if t.collecting = 1 then
          let t' := { t with first := t.first ++ [a] }
          let s := s.modTake f w fun _ => t'
          some (if t'.first.length < 16 then s else s.startCollect f q w 2)
        else if t.collecting = 2 then
          let t' := { t with second := t.second ++ [a] }
          if t'.second.length < 16 then some (s.modTake f w fun _ => t')
          else if t'.agreed then
            if t.n then some ((s.dropTake f w).poolReply f m.tenant w [0, stWord 1])
            else some (s.modTake f w fun t => { t with parked := true, collecting := 0, first := [], second := [] })
          else some ((s.modTake f w fun t => { t with collecting := 0, first := [], second := [] }).tryTake f q w)
        else some s
    | _, _ => none

/-- R273: an element becomes overdue. The number is that of the pool and 64 times the element's place in the shard. -/
def execElementOverdue (f k : Nat) (s : State) : Res :=
  let q := k % 64
  let c := (s.weir f).cfg q
  match ((s.weir f).shard q).elems[k / 64]? with
  | none => .next s
  | some e =>
    if c.overdue (s.poolTime c.owner) e && !e.ovd then
      .next (s.modShard f q fun x => { x with elems := x.elems.set (k / 64) { e with ovd := true } })
    else .next s

/-! ## Deterministic mode (R203, R254, R275) -/

/-- R275: a put applied at the end of a quantum: at its local weir, or where R262 redirects it. -/
def State.detPut (s : State) (f q key : Nat) (val : Word) (w : Who) : State :=
  match (f :: (s.weir f).others f q).find? fun g => decide (0 < (s.weir g).free) with
  | some g => s.storeElem g q key val w f
  | none => s.poolReply f ((s.weir f).cfg q).owner w [stWord 2]

/-- R275, R273: a take applied at the end of a quantum receives the oldest overdue element, or else the first in ≺. A ptake that finds none is
parked. -/
def State.detTake (s : State) (f q : Nat) (w : Who) (n : Bool) : State :=
  let s := (List.range 16).foldl (fun s g => s.markOverdue g q) s
  let all := (List.range 16).flatMap fun g => ((s.weir g).shard q).elems.map fun e => (e, g)
  let best := match firstBy (fun e => Elem.age e.1) (all.filter fun e => e.1.ovd) with
    | some e => some e
    | none => firstBy (fun e => Elem.place e.1) all
  match best with
  | some (e, g) => ((s.removeElem g q e).dropTake f w).poolGive f q w e g e.ovd
  | none =>
    if n then (s.dropTake f w).poolReply f ((s.weir f).cfg q).owner w [0, stWord 1]
    else if (s.weir f).takes.any fun t => t.who == w then s
    else s.modWeir f fun x => { x with takes := x.takes ++ [{ Take.fresh w q n (s.poolTime (x.cfg q).owner / 1024) with parked := true }] }

/-- R203: what waits, in the order of the requesting plots: rank of the package, logical plot number, retirement order. -/
def Deferred.key (ranks : List Nat) (d : Deferred) : List Nat := [ranks.findIdx (· == pkgOf d.plot), logical (d.plot % 2 ^ 20), d.order]

/-- R203: one deferred request is applied. -/
def State.applyOne (s : State) (d : Deferred) : State :=
  let m := d.packet
  match m.body, m.dst with
  | .inv i, .plot id => s.invArrive (id % 2 ^ 20) i true
  | .gate q, _ => match q.op with
    | .acq excl => s.acquireAt m q excl true
    | _ => s
  | .handGrant va t plot task, _ => s.handArrive m va t plot task
  | .pool w q (.put key val) v, .service f => s.poolCheck m f q w .storeFault v [stWord 3] fun s => s.detPut f q key val w
  | .pool w q (.take n) v, .service f => s.poolCheck m f q w .loadFault v [0, stWord 3] fun s => s.detTake f q w n
  | _, _ => s

/-- A task is held for an answer of a pool. -/
def State.heldForPool (s : State) (w : Who) : Bool :=
  let x := s.plot (w.plot % 2 ^ 20)
  match (x.find w.task).bind fun pl => (x.at_ pl).hold with
  | some h => h.id == w.id && (h.kind == .pool || h.kind == .take || h.kind == .put)
  | none => false

/-- The packets of a list that meet a condition and that no other packet of their stream comes before (R18), and the others. -/
def splitFirst (mine : Packet → Bool) (ms : List Packet) : List Packet × List Packet :=
  ms.foldl (fun r m => if mine m && !r.2.any (fun e => decide (e.stream = m.stream)) then (r.1 ++ [m], r.2) else (r.1, r.2 ++ [m])) ([], [])

/-- A grant, or an answer of a pool, sent at the end of a quantum, reaches its task before the next begins (R203, R275), unless another packet
of its stream is under way before it (R18). -/
def State.deliverNow (s : State) (tenant : Nat) : State :=
  let mine := fun (m : Packet) => m.tenant == tenant && match m.body with
    | .gateAns _ (.words [_, _, _] _) => true
    | .poolAns _ _ _ _ => true
    | .rsp w _ => s.heldForPool w
    | _ => false
  let (now, rest) := splitFirst mine s.net
  now.foldl (fun s m => match m.body with
    | .gateAns w (.words [t, va, e] _) => s.takeGrant w t.toNat va (bitw e 0) m.tenant
    | .poolAns w r q e => s.poolArrive m w r q e
    | .rsp w r => s.answer w r
    | _ => s) { s with net := rest }

/-- The plots of a partition on this package (R380). -/
def Part.plots (q : Part) : List Nat :=
  (q.rects.flatMap fun r =>
    let (f, row, col, h, w) := r
    (List.range h).flatMap fun i => (List.range w).map fun j => f * 2 ^ 16 + (row + i) * 256 + (col + j)).eraseDups

/-- R203, R254, R275: no request of a quantum is still on its way: no message that brings a delivery, a take, a put, a grant or an element of a
pool, and none in the outboxes of the partition's plots; and no answer to its plots, which one of the end of the quantum would pass (R18). -/
def State.quantumQuiet (s : State) (q : Part) : Bool :=
  let brings := fun (m : Msg) => match m with
    | .inv _ | .dirForward _ | .unput _ _ => true
    | .gate r => match r.op with
      | .acq _ | .handover _ => true
      | _ => false
    | .pool _ _ op _ => match op with
      | .put _ _ | .take _ => true
      | _ => false
    | .weir w => match w with
      | .redirect .. | .announce .. | .announceAck .. | .move .. | .moveAck .. | .pull .. | .pullAns .. => true
      | _ => false
    | _ => false
  let answers := fun (m : Packet) => decide (m.cls = .rsp ∨ m.cls = .sys) && match m.dst with
    | .plot _ => true
    | _ => false
  !(s.net.any fun m => m.tenant == q.tenant && (brings m.body || answers m)) &&
    q.plots.all fun p => (s.plot p).outbox.all fun h => match h.what with
      | .invocation _ => false
      | .packet k => !brings k.body

/-- R203: the other packages of a partition whose plots have all ended the quantum have told so. The spec does not say how they do: each tells the
others with a message that follows the invocations that it has sent (DEDUCED, log entry 16). -/
def State.endedElsewhere (s : State) (q : Part) : Bool :=
  q.packages.all fun p => p == s.pkg || s.net.any fun m => m.tenant == q.tenant && m.src == .peer p && m.body == .quantumEnd

/-- R203: this package's plots have all ended the quantum, and the partition's other packages are told, once. -/
def State.tellEnd (s : State) (q : Part) : State :=
  if q.told then s
  else ((q.packages.filter (· != s.pkg)).foldl (fun s p => s.push ⟨.inv, .peer s.pkg, .peer p, q.tenant, .quantumEnd⟩) s).modPart q.tenant
    fun p => { p with told := true }

/-- R203: one message of each other package is used up at the end of a quantum. -/
def State.takeEnds (s : State) (q : Part) : State :=
  q.packages.foldl (fun s p => { s with net := s.net.eraseP fun m => m.tenant == q.tenant && m.src == .peer p && m.body == .quantumEnd }) s

/-- R203, R201, R254, R275: what a partition deferred in a quantum is applied, puts before takes, older takes before newer ones (those that
waited when the mode began among them), and the next quantum begins. What the agents hold for its plots comes before the deliveries of the quantum. -/
def State.endQuantum (s : State) (q : Part) : State :=
  let s := (s.tellEnd q).takeEnds q
  let ds := sortBy (fun a b => !lexLt (b.key q.packages) (a.key q.packages)) (s.deferred.filter fun d => d.packet.tenant == q.tenant)
  let isPut := fun (d : Deferred) => match d.packet.body with
    | .pool _ _ (.put _ _) _ => true
    | _ => false
  let s := { s with deferred := s.deferred.filter fun d => d.packet.tenant != q.tenant }
  let s := (ds.filter isPut).foldl State.applyOne s
  let parked := (List.range 16).flatMap fun f => ((s.weir f).takes.filter fun t =>
    !t.pulling && t.collecting == 0 && ((s.weir f).cfg t.pool).owner == q.tenant).map fun t => (f, t)
  let key := fun (t : Take) => t.since :: (⟨t.who.plot, t.who.id, ⟨.req, .damkar, .damkar, 0, .sysAck t.who⟩⟩ : Deferred).key q.packages
  let parked := sortBy (fun a b => !lexLt (key b.2) (key a.2)) parked
  let s := parked.foldl (fun s t => s.detTake t.1 t.2.pool t.2.who t.2.n) s
  let mine := fun (e : AgentEnt) => match e with
    | .chan p _ _ => p ∈ q.plots
    | .object o _ => hPlot o % 2 ^ 20 ∈ q.plots
    | .record _ _ _ => false
  let s := (List.range 16).foldl (fun s f => agentBackAll f mine (s.field f).agent.length 0 s) s
  let s := (ds.filter fun d => !isPut d).foldl State.applyOne s
  -- acquires that waited for a release of the quantum (R254)
  let s := (s.gateQ.filter fun g => g.tenant == q.tenant).foldl (fun s g => s.grants g.target g.tenant true) s
  let s := s.deliverNow q.tenant
  let s := q.plots.foldl (fun s p => s.modPlot p fun y => { y with sched := { y.sched with ended := false, retired := 0 } }) s
  s.modPart q.tenant fun p => { p with endedPlots := [], told := false, quantum := p.quantum + 1 }

/-- R203, R201: every plot of a partition has ended the quantum, and its requests are there: they are applied. The number is the partition's
place in the list. This package's end is told to the partition's others, and theirs are waited for. -/
def execQuantumApply (x : Nat) (s : State) : Res :=
  match s.host.parts[x]? with
  | none => .next s
  | some q =>
    if bitw q.detctl 0 && (q.plots.all fun p => p ∈ q.endedPlots) && s.quantumQuiet q then
      .next (if s.endedElsewhere q then s.endQuantum q else s.tellEnd q)
    else .next s

/-- R201, R202: a partition's deterministic settings reach its plots, at a quantum boundary: what the quantum deferred has been applied, no plot
waits for its end, and the count of instructions begins. -/
def State.setDet (s : State) (tenant : Nat) (c q : Word) : State :=
  match s.host.parts.find? fun p => p.tenant == tenant with
  | none => s
  | some p =>
    let s := if bitw p.detctl 0 then s.endQuantum p else s
    let s := s.modPart tenant fun p => { p with detctl := c, detq := q, endedPlots := [] }
    p.plots.foldl (fun s x => s.modPlot x fun y => { y with
      csr := { y.csr with detctl := c, detq := q }, sched := { y.sched with ended := false, retired := 0 } }) s

end Sys2Proof.Machine
end

