-- ==== Sys2Proof/Machine/Flume.lean ====
section
/-!
DEFINITION. The flumes: copies, PUTS and GET after their acceptance (13, R277 to R287).
-/

namespace Sys2Proof.Machine

open Sys2Proof

/-! ## Where the bytes of a range lie -/

/-- The place of one byte of a range. -/
inductive Spot where
  | hbm (t : Nat)
  | peer (pkg t : Nat)
  | host (t : Nat)
  | buf (plot b o : Nat)
  deriving DecidableEq, Repr

/-- The place of a byte of a range, by its number. -/
def Loc.spot (l : Loc) (i : Nat) : Spot :=
  match l with
  | .scratch p b o => .buf p b (o + i)
  | .pages va ps =>
    match ps.find? fun e => decide (e.va ≤ va + i) && decide (va + i < e.va + e.bytes) with
    | some e => match e.ty with
      | 0 => .hbm (e.target_ (va + i))
      | 1 => .peer e.pkg (e.target_ (va + i))
      | _ => .host (e.target_ (va + i))
    | none => .hbm (va + i)

/-- The word or sector whose full/empty bit a byte belongs to. -/
def Spot.unit : Spot → Spot
  | .hbm t => .hbm (t / 64)
  | .peer k t => .peer k (t / 64)
  | .host t => .host (t / 64)
  | .buf p b o => .buf p b (o / 8)

/-- R98: the aligned word that a byte belongs to. -/
def Spot.word : Spot → Spot
  | .hbm t => .hbm (t / 8)
  | .peer k t => .peer k (t / 8)
  | .host t => .host (t / 8)
  | .buf p b o => .buf p b (o / 8)

/-- R282: a byte is the last of the range in its word or sector. -/
def Loc.closes (l : Loc) (len i : Nat) : Bool := i + 1 == len || decide ((l.spot (i + 1)).unit ≠ (l.spot i).unit)

/-- R337: reads bytes of a range on this package; none where one cannot be corrected. -/
def State.readLoc (s : State) (l : Loc) (i n : Nat) : Option (List Byte × State) :=
  match l with
  | .scratch p b o =>
    match s.readBuf (p % 2 ^ 20) b (span (o + i) n) with
    | .ok r => some r
    | .error _ => none
  | .pages _ _ =>
    let spots := (span i n).map l.spot
    if spots.any fun x => match x with
      | .hbm t => s.hbmBad t
      | _ => false
    then none
    else some (spots.map fun x => match x with
      | .hbm t => Sparse.get 0 s.mem.hbm t
      | .host t => Sparse.get 0 s.mem.host t
      | _ => 0, s)

/-- R97, R99, R282: an engine writes bytes of a range of `len` bytes on this package: a word or sector is full once its last
byte is there. -/
def State.writeLoc (s : State) (l : Loc) (len i : Nat) (bs : List Byte) : State :=
  let xs := bs.zipIdx.map fun b => (i + b.2, b.1)
  match l with
  | .scratch p b o =>
    s.modBufs (p % 2 ^ 20) fun m =>
      let m := m.write b (xs.map fun x => (o + x.1, x.2))
      xs.foldl (fun m x => if l.closes len x.1 then m.setEmpty b ((o + x.1) / 8) false else m) m
  | .pages _ _ =>
    let hbm := xs.filterMap fun x => match l.spot x.1 with
      | .hbm t => some (t, x.2)
      | _ => none
    let host := xs.filterMap fun x => match l.spot x.1 with
      | .host t => some (t, x.2)
      | _ => none
    let s := (s.hbmWrite hbm).hostWrite host
    xs.foldl (fun s x => match l.spot x.1 with
      | .hbm t => if l.closes len x.1 then s.setSector t false else s
      | _ => s) s

/-! ## Promises (R300) -/

/-- The smoothed RTT of the connection to a peer; before it opens, the target RTT of the port it would use. -/
def State.rtt (s : State) (peer tenant : Nat) : Nat :=
  match s.link.conns.find? fun c => c.peer == peer && c.tenant == tenant && decide (c.state ≤ 1) with
  | some c => c.srtt
  | none => match s.link.routes.find? fun r => r.1 == peer with
    | some (_, port) => (Sparse.get PortCfg.reset s.link.ports port).rtt
    | none => 0

/-- R300: the promise of a copy: its bytes, and those queued ahead of them. -/
def State.promise (s : State) (c : CopyCmd) (ahead l : Nat) : Nat :=
  let host := match c.dst with
    | .pages _ (e :: _) => e.ty == 2
    | _ => false
  let far := if c.kind = 0 then 0 else match c.peer with
    | some k => 2 * s.rtt k c.tenant
    | none => 0
  s.now + 64 + (ahead + l + 532) / 533 + (if host then 3000 else 300) + far

/-! ## Acceptance (R281) -/

/-- Changes a flume. -/
def State.modFlume (s : State) (k : Nat) (f : Flume → Flume) : State := { s with flumes := Sparse.set ⟨[], [], none⟩ s.flumes k (f (s.flume k)) }

/-- What a flume tells a plot. -/
def State.flumeSays (s : State) (k tenant : Nat) (w : Who) (m : Msg) : State := s.push ⟨.rsp, .base (k / 2), .plot w.plot, tenant, m⟩

/-- R280: the plot of a buffer refuses another tenant. -/
def State.foreign (s : State) (l : Loc) (tenant : Nat) : Bool := match l with
  | .scratch p _ _ => !(s.plot (p % 2 ^ 20)).takes tenant
  | .pages _ _ => false

/-- The BADDR of a buffer range (R7). -/
def Loc.baddr : Loc → Word
  | .scratch p b o => .ofNat 64 (3 * 2 ^ 62 + p * 2 ^ 26 + b * 2 ^ 24 + o)
  | .pages va _ => .ofNat 64 va

/-- R281: the destination's words or sectors become empty. -/
def State.emptyDst (s : State) (l : Loc) (len : Nat) : State :=
  (List.range len).foldl (fun s i => if !l.closes len i then s else match l.spot i with
    | .hbm t => s.setSector t true
    | .buf p b o => s.modBufs (p % 2 ^ 20) fun m => m.setEmpty b (o / 8) true
    | _ => s) s

/-- R300: the bytes queued ahead of a command that a flume accepts. -/
def Flume.ahead (f : Flume) : Nat := (f.copies.map fun c => c.len - c.pos).sum

/-- R344: the accepted writes to the plot of a buffer range are performed. -/
def State.settleAt (s : State) : Loc → State
  | .scratch p _ _ => s.settlePort p
  | .pages _ _ => s

/-- R281: a flume with room accepts a command: the tenant checks, the guard, the promise, and the emptying before the answer. -/
def State.acceptCopy (s : State) (k : Nat) (c : CopyCmd) : State :=
  let refuse := fun (s : State) (l : Loc) (f : Cause) =>
    let s := match l with
      | .scratch p _ _ => s.mismatchAt (p % 2 ^ 20)
      | .pages _ _ => s
    s.flumeSays k c.tenant c.who (.rsp c.who (.trap f l.baddr))
  if s.foreign c.src c.tenant then refuse s c.src .loadFault
  else if s.foreign c.dst c.tenant then refuse s c.dst .storeFault
  else
    let (g, s) : Option (Option Nat) × State := match c.guard with
      | none => (some none, s)
      | some l =>
        if s.foreign l c.tenant then (none, refuse s l .loadFault)
        else match (s.settleAt l).readLoc l 0 8 with
          | some (bs, s) => (some (some (numLE bs)), s)
          -- R337: a guard that cannot be read fails the copy (log entry 17)
          | none => (none, (s.flumeSays k c.tenant c.who (.rsp c.who (.words [.ofNat 64 s.now] 0))).flumeSays k c.tenant c.who (.copyDone c.who true))
    match g with
    | none => s
    | some g =>
      let l := match g with
        | some n => min c.len (n * c.unit)
        | none => c.len
      if l = 0 && c.signal.isNone then
        (s.flumeSays k c.tenant c.who (.rsp c.who (.words [.ofNat 64 s.now] 0))).flumeSays k c.tenant c.who (.copyDone c.who false)
      else
        let p := if l = 0 then s.now else s.promise c (s.flume k).ahead l
        let s := if c.ce then (s.settleAt c.dst).emptyDst c.dst l else s
        let s := s.modFlume k fun f => { f with copies := f.copies ++ [⟨c, l, 0, [], [], [], 0, false⟩] }
        s.flumeSays k c.tenant c.who (.rsp c.who (.words [.ofNat 64 p] 0))

/-- R277: commands that wait at the base die enter the queue as it has room; the first argument bounds them. -/
def drainFlume : Nat → State → Nat → State
  | 0, s, _ => s
  | n + 1, s, k =>
    let f := s.flume k
    match f.waiting with
    | c :: rest =>
      if f.copies.length < 64 then drainFlume n ((s.modFlume k fun f => { f with waiting := rest }).acceptCopy k c) k else s
    | [] => s

/-- R281: a command reaches its flume. -/
def execFlumeAccept (k : Nat) (s : State) : Res :=
  s.onMsg k fun s m => match m.body with
    | .copy c f =>
      if 64 ≤ (s.flume f).copies.length || !(s.flume f).waiting.isEmpty then
        some (s.modFlume f fun x => { x with waiting := x.waiting ++ [c] })
      else some (s.acceptCopy f c)
    | _ => none

/-! ## Moving bytes (R282, R286) -/

/-- A copy leaves its flume, and its plot hears how it ended. -/
def State.endCopy (s : State) (k : Nat) (c : CopyCmd) (failed : Bool) : State :=
  let s := s.modFlume k fun f => { f with copies := f.copies.filter fun r => r.cmd.who != c.who }
  let s := s.flumeSays k c.tenant c.who (.copyDone c.who failed)
  drainFlume ((s.flume k).waiting.length) s k

/-- Changes a copy of a flume. -/
def State.modRun (s : State) (k : Nat) (w : Who) (g : CopyRun → CopyRun) : State :=
  s.modFlume k fun f => { f with copies := f.copies.map fun r => if r.cmd.who = w then g r else r }

/-- R286, R282: once every byte has been performed: the signal leaves, or the copy is complete. -/
def State.copyStep (s : State) (k : Nat) (w : Who) : State :=
  match (s.flume k).copies.find? fun r => r.cmd.who == w with
  | none => s
  | some r =>
    if r.pos < r.len || r.acks ≠ 0 then s
    else match r.cmd.signal with
      | none => s.endCopy k r.cmd false
      | some (op, l, v) =>
        if r.signalled then s
        else
          let s := s.modRun k w fun r => { r with signalled := true }
          let (dst, t) : Endpoint × Nat := match l.spot 0 with
            | .peer pkg t => (.peer pkg, t)
            | .hbm t => (.base (stackOf t), t)
            | .host t => (.base (stackOf t), t)
            | .buf _ _ o => (.base 0, o)
          s.push ⟨.req, .peer s.pkg, dst, r.cmd.tenant, .putsSignal k w op t v⟩

/-- R286: the bytes of a piece that go to a peer leave for it; the answer is the number of packets. -/
def State.sendPiece (s : State) (k : Nat) (c : CopyCmd) (len i : Nat) (bs : List Byte) : State × Nat :=
  let xs := bs.zipIdx.filterMap fun b => match c.dst.spot (i + b.2) with
    | .peer pkg t => some (pkg, t, b.1, c.dst.closes len (i + b.2))
    | _ => none
  let pkgs := (xs.map (·.1)).eraseDups
  (pkgs.foldl (fun s g =>
    let ys := xs.filter fun x => x.1 == g
    s.push ⟨.chi, .peer s.pkg, .peer g, c.tenant,
      .copyOut k c.who (ys.map fun y => (y.2.1, y.2.2.1)) ((ys.filter fun y => y.2.2.2).map fun y => y.2.1)⟩) s, pkgs.length)

/-! ### Pieces (R282, R98) -/

/-- R98: the first `e` bytes of a range end with a whole word, as far as the range goes. -/
def Loc.cuts (l : Loc) (len e : Nat) : Bool := len ≤ e || decide ((l.spot e).word ≠ (l.spot (e - 1)).word)

/-- The bytes of a copy that have been read. -/
def CopyRun.read (r : CopyRun) : Nat := r.pos + r.buf.length

/-- R282, R98: where the next read of a copy ends: with its 64-byte piece, and the source word there. -/
def CopyRun.readTo (r : CopyRun) : Nat :=
  let e := 64 * (r.read / 64 + 1)
  min r.len ((((List.range 8).map (e + ·)).find? fun e => r.cmd.src.cuts r.len e).getD e)

/-- The packages that hold bytes of a range. -/
def Loc.peers : Loc → List Nat
  | .pages _ ps => (ps.filterMap fun e => if e.ty = 1 then some e.pkg else none).eraseDups
  | .scratch _ _ _ => []

/-- R282: the first byte of the word or sector that holds the last destination byte. -/
def CopyRun.lastFrom (r : CopyRun) : Nat :=
  let n := min 64 r.len
  ((span (r.len - n) n).find? fun i => decide ((r.cmd.dst.spot i).unit = (r.cmd.dst.spot (r.len - 1)).unit)).getD (r.len - 1)

/-- R282, R98: where the next write of a copy ends, if it has one: in a piece that has been read whole, at the end of a word; before the last word
or sector, where a peer performs bytes before it. -/
def CopyRun.writeTo (r : CopyRun) : Option Nat :=
  let e := min (if r.len ≤ r.read then r.len else 64 * (r.read / 64)) (r.pos + 64)
  let e := if r.cmd.dst.peers.isEmpty || r.lastFrom ≤ r.pos then e else min e r.lastFrom
  ((List.range 8).map (e - ·)).find? fun e => decide (r.pos < e) && r.cmd.dst.cuts r.len e

/-- The packages that hold bytes of the next read. -/
def CopyRun.farPkgs (r : CopyRun) : List Nat :=
  ((span r.read (r.readTo - r.read)).filterMap fun i => match r.cmd.src.spot i with
    | .peer g _ => some g
    | _ => none).eraseDups

/-- The bytes of the next read that a package holds: their places and target addresses. -/
def CopyRun.farAt (r : CopyRun) (g : Nat) : List (Nat × Nat) :=
  (span r.read (r.readTo - r.read)).filterMap fun i => match r.cmd.src.spot i with
    | .peer h t => if h = g then some (i, t) else none
    | _ => none

/-- R282, R286: the last word or sector of a copy is written after every other byte has been performed, at a peer too. -/
def CopyRun.lastWaits (r : CopyRun) : Bool := r.acks != 0 && match r.writeTo with
  | some e => decide (r.lastFrom < e)
  | none => false

/-- R282: a byte of a read that an earlier piece of the same copy has yet to write is that piece's; `buf` are the bytes from `r.pos` on. -/
def CopyRun.held (r : CopyRun) (buf : List Byte) (j : Nat) : Option Byte :=
  ((span r.pos (64 * (j / 64) - r.pos)).reverse.find? fun i => decide (r.cmd.dst.spot i = r.cmd.src.spot j)).bind fun i => buf[i - r.pos]?

/-- A range as pieces of places: the first byte and the number of bytes. -/
def Loc.extents (l : Loc) (n : Nat) : List (Spot × Nat) :=
  match l with
  | .scratch p b o => [(.buf p b o, n)]
  | .pages va ps => ps.filterMap fun e =>
      let lo := max va e.va
      let hi := min (va + n) (e.va + e.bytes)
      if hi ≤ lo then none
      else some (match e.ty with
        | 0 => .hbm (e.target_ lo)
        | 1 => .peer e.pkg (e.target_ lo)
        | _ => .host (e.target_ lo), hi - lo)

/-- Two pieces of places share a byte. -/
def extentsMeet (a b : Spot × Nat) : Bool :=
  let meet := fun (x y : Nat) => decide (x < y + b.2) && decide (y < x + a.2)
  match a.1, b.1 with
  | .hbm x, .hbm y => meet x y
  | .peer k x, .peer l y => k == l && meet x y
  | .host x, .host y => meet x y
  | .buf p b x, .buf q c y => p == q && b == c && meet x y
  | _, _ => false

/-- R282: two copies of a flume touch common bytes, which at least one of them writes. -/
def CopyRun.meets (a b : CopyRun) : Bool :=
  let any := fun (x y : List (Spot × Nat)) => x.any fun e => y.any (extentsMeet e)
  let sa := a.cmd.src.extents a.len
  let da := a.cmd.dst.extents a.len
  let sb := b.cmd.src.extents b.len
  let db := b.cmd.dst.extents b.len
  any da db || any da sb || any sa db

/-- R286: an answer of a peer to a GET that has arrived, first in its stream: its place in the net, the peer, and the bytes. -/
def State.arrived (s : State) (k : Nat) (w : Who) : Option (Nat × Nat × Option (List Byte)) :=
  s.net.zipIdx.findSome? fun m => match m.1.body, m.1.src with
    | .copyIn f w' _ bs, .peer g => if f = k && w' == w && (s.first m.2).isSome then some (m.2, g, bs) else none
    | _, _ => none

/-- R287: an earlier PUTS of the same task to the same package has data that has not left. -/
def State.putsBefore (s : State) (r : CopyRun) : Bool :=
  r.cmd.kind == 1 && (List.range 24).any fun f => (s.flume f).copies.any fun q =>
    q.cmd.kind == 1 && q.cmd.dst.peers.any (fun g => r.cmd.dst.peers.contains g) && q.cmd.who.plot == r.cmd.who.plot && q.cmd.who.task == r.cmd.who.task &&
      decide (q.cmd.who.id < r.cmd.who.id) && decide (q.pos < q.len)

/-- R344: no write that a remote port has accepted is still to be performed at a buffer of a copy. -/
def State.bufferFree (s : State) (l : Loc) : Bool :=
  match l with
  | .scratch p _ _ => !s.checked.any fun e => e.2 == .plot p
  | .pages _ _ => true

/-- R277, R282, R286, R287: a copy of a flume, after the copies given, has a step that it can take. -/
def State.canMove (s : State) (f : Nat) (before : List CopyRun) (r : CopyRun) : Bool :=
  if (s.arrived f r.cmd.who).isSome then true
  else if r.len ≤ r.pos then !r.signalled && r.acks == 0
  else !(before.any r.meets) && r.asked.isEmpty && s.bufferFree r.cmd.src && s.bufferFree r.cmd.dst &&
    !(r.writeTo.isSome && s.putsBefore r) && !r.lastWaits

/-- R277: the copy of a flume that moves next, of its first four: the one whose turn it is, for 4 KiB, or the next that can. -/
def State.mover (s : State) (f : Nat) : Option Nat :=
  let x := s.flume f
  let rs := x.copies.take 4
  let can := fun k => match rs[k]? with
    | some r => s.canMove f (rs.take k) r
    | none => false
  let last := x.turn.bind fun t => rs.findIdx? fun r => r.cmd.who == t.1
  let more := match x.turn with
    | some t => decide (t.2 < 4096)
    | none => false
  match last with
  | some k => if more && can k then some k else ((List.range 4).map fun i => (k + 1 + i) % 4).find? can
  | none => (List.range 4).find? can

/-- R277: a copy has moved bytes in its turn. -/
def Flume.moved (x : Flume) (w : Who) (n : Nat) : Flume :=
  { x with turn := some (w, match x.turn with
      | some t => if t.1 = w && decide (t.2 < 4096) then t.2 + n else n
      | none => n) }

/-- R282, R337: the next read of a copy, whose far bytes are there: none where a byte cannot be read. -/
def State.readPiece (s : State) (f : Nat) (r : CopyRun) (got : List (Nat × Byte)) : State :=
  let n := r.readTo - r.read
  match s.readLoc r.cmd.src r.read n with
  | none => s.endCopy f r.cmd true
  | some (bs, s) =>
    let buf := bs.zipIdx.foldl (fun buf b => buf ++ [match got.find? fun g => g.1 == r.read + b.2 with
      | some g => g.2
      | none => (r.held buf (r.read + b.2)).getD b.1]) r.buf
    s.modRun f r.cmd.who fun r => { r with buf := buf, asked := [], got := [] }

/-- R286: what a peer answered of the next piece; the last answer completes the read. -/
def State.takeFar (s : State) (f : Nat) (r : CopyRun) (g : Nat) (bs : List Byte) : State :=
  let got := r.got ++ ((r.farAt g).map (·.1)).zip bs
  if (r.asked.erase g).isEmpty then s.readPiece f r got
  else s.modRun f r.cmd.who fun r => { r with asked := r.asked.erase g, got := got }

/-- R282, R286, R98: the next step of a copy: an answer of a peer is taken, a piece that has been read is written, or the next piece is read, or
asked of the peers that hold bytes of it. -/
def State.moveCopy (s : State) (f : Nat) (r : CopyRun) : State :=
  let c := r.cmd
  match s.arrived f c.who with
  | some (j, g, bs) =>
    let s := s.takeMsg j
    match bs with
    | none => s.endCopy f c true
    | some bs => s.takeFar f r g bs
  | none =>
    if r.len ≤ r.pos then s.copyStep f c.who
    else match r.writeTo with
      | some e =>
        let bs := r.buf.take (e - r.pos)
        let s := s.writeLoc c.dst r.len r.pos bs
        let (s, m) := s.sendPiece f c r.len r.pos bs
        let s := s.modFlume f (·.moved c.who (e - r.pos))
        (s.modRun f c.who fun r => { r with pos := e, buf := r.buf.drop (e - r.pos), acks := r.acks + m }).copyStep f c.who
      | none =>
        match r.farPkgs with
        | [] => s.readPiece f r []
        | gs => gs.foldl (fun s g => s.push ⟨.req, .peer s.pkg, .peer g, c.tenant, .copyAsk f c.who r.read ((r.farAt g).map (·.2))⟩)
            (s.modRun f c.who fun r => { r with asked := gs })

/-- R277, R282, R286: a flume takes a step of the copy whose turn it is. -/
def execCopyPiece (f k : Nat) (s : State) : Res :=
  match s.mover f, ((s.flume f).copies.take 4)[k]? with
  | some j, some r => if j = k then .next (s.moveCopy f r) else .next s
  | _, _ => .next s

/-- R286, R250: the signal of a PUTS is applied indivisibly and acknowledged; a foreign tenant is refused (R287). -/
def execPutsSignal (k : Nat) (s : State) : Res :=
  s.onMsg k fun t m => match m.body with
    | .putsSignal f w op a v =>
      if !s.peerTurn k m then none
      else
        if !(m.tenant == 0 || t.owns m.tenant a) then some ({ t with mismatch := t.mismatch + 1 }.push ⟨.rsp, m.dst, m.src, m.tenant, .copyAck f w false⟩)
        else
          let (new, _) := amoOn op v 0 (t.hbmRead a 8)
          some ((t.hbmWrite (placed a new)).push ⟨.rsp, m.dst, m.src, m.tenant, .copyAck f w true⟩)
    | _ => none

/-- The record of a copy of a task is changed, wherever the task is; what waited for the copy leaves (R241). -/
def State.modCopy (s : State) (w : Who) (g : List CopyRec → List CopyRec) : State :=
  let p := w.plot % 2 ^ 20
  (s.modTask p w.task fun y => { y with copies := g y.copies }).performed p w.id

/-- R282, R283, R286: a copy's record frees; or an acknowledgement of a piece or of the signal reaches the flume. -/
def execCopyComplete (k : Nat) (s : State) : Res :=
  s.onMsg k fun s m => match m.body with
    | .copyDone w false => s.atPlot m id fun s _ => s.modCopy w fun l => l.filter fun c => c.id != w.id
    -- an answer of a peer for a copy that has ended
    | .copyIn f w _ _ => if (s.flume f).copies.any fun r => r.cmd.who == w then none else some s
    | .copyAck f w ok =>
      match (s.flume f).copies.find? fun r => r.cmd.who == w with
      | none => some s
      | some r =>
        if !ok then some (s.endCopy f r.cmd true)
        else if r.signalled && r.acks = 0 then some (s.endCopy f r.cmd false)
        else some ((s.modRun f w fun r => { r with acks := r.acks - 1 }).copyStep f w)
    | _ => none

/-- R283: a copy's record completes marked failed. -/
def execCopyFailed (k : Nat) (s : State) : Res :=
  s.onMsg k fun s m => match m.body with
    | .copyDone w true => s.atPlot m id fun s _ => s.modCopy w fun l => l.map fun c => if c.id = w.id then { c with failed := true } else c
    | _ => none

/-- R283: the new estimate for a copy found late. -/
def State.lateEstimate (s : State) (plot task id : Nat) : Nat :=
  let w : Who := ⟨plot, task, id⟩
  let found := (List.range 24).findSome? fun k =>
    let cs := (s.flume k).copies
    (cs.findIdx? fun r => r.cmd.who == w).map fun j => (cs.take j, cs[j]?)
  match found with
  | some (before, some r) => s.promise r.cmd ((before.map fun c => c.len - c.pos).sum) (r.len - r.pos)
  | _ => s.now + 64 + 300

/-- R283: a copy is over, and its plot will hear of it. -/
def State.copyOver (s : State) (w : Who) : Bool := s.net.any fun m => match m.body with
  | .copyDone v _ => v == w
  | _ => false

/-- R283: the promise of a record of a task has passed and its copy is not complete. -/
def State.passed (s : State) (plot task : Nat) (r : CopyRec) : Bool :=
  !r.failed && decide (r.promise ≤ s.now) && !s.copyOver ⟨plot, task, r.id⟩

/-- R332 class 10: the records of a task of a plot that are found late are counted, once each. -/
def State.findLateAt (s : State) (p : Nat) (pl : Place) : State :=
  let y := (s.plot p).at_ pl
  let late := s.passed (s.plotId p) y.csr.taskid
  let new := y.copies.filter fun r => late r && !r.late
  if new.isEmpty then s
  else
    let s := s.modPlot p fun x => x.put pl { y with copies := y.copies.map fun r => { r with late := r.late || late r } } none
    new.foldl (fun s _ => s.countAt p 10) s

/-- R332 class 10: the same for every task of a plot. -/
def State.findLate (s : State) (p : Nat) : State :=
  ((List.range 4).map Place.ctx ++ (List.range (s.plot p).sched.images.length).map Place.image).foldl (fun s pl => s.findLateAt p pl) s

/-- R283, R332 class 10: a record that is not complete at CYCLE = P is found late, and with it all of its task that are. Numbers below 4
are contexts, the others images. With LT = 1 the context takes LATE when it would next issue (`Ctx.lateDue`), whether or not this step has
come before. -/
def execCopyLate (p c k : Nat) (s : State) : Res :=
  let pl := if c < 4 then Place.ctx c else .image (c - 4)
  match ((s.plot p).at_ pl).copies[k]? with
  | some r => if s.passed (s.plotId p) ((s.plot p).at_ pl).csr.taskid r then .next (s.findLateAt p pl) else .next s
  | none => .next s

end Sys2Proof.Machine
end

