-- ==== Sys2Proof/Machine/Sluice.lean ====
section
/-!
DEFINITION. The sluices: communicators and collectives (13, R288 to R296).
-/

namespace Sys2Proof.Machine

open Sys2Proof

/-! ## Communicators and instances -/

/-- Changes a communicator. -/
def State.modComm (s : State) (k : Nat) (f : Comm → Comm) : State := { s with comms := Sparse.set Comm.reset s.comms k (f (s.comm k)) }

/-- R291: the token of an instance. -/
def tokenOf (k seq : Nat) : Word := .ofNat 64 (k + seq * 2 ^ 16)

/-- R288: the ranks of a communicator. -/
def Comm.n (c : Comm) : Nat := c.npk + 1

/-- R293: the next rank of the ring. -/
def Comm.next (c : Comm) (r : Nat) : Nat := (r + 1) % c.n

/-- The package of a rank. -/
def Comm.pkgAt (c : Comm) (r : Nat) : Nat := c.members.getD r 0

/-- R288: a communicator's entry as it reads. -/
def Comm.entry (c : Comm) : Nat :=
  bit c.en * 2 ^ 63 + bit c.urg * 2 ^ 62 + bit c.brk * 2 ^ 61 + c.bcause * 2 ^ 56 + c.npk * 2 ^ 48 + c.vch * 2 ^ 32 + c.seq * 2 ^ 16 + c.rank * 256 +
    (c.locals.length - 1) % 64

/-- R289: fields of a control word. -/
def ctlOp (w : Word) : Nat := fldw w 8 4
/-- R289 -/
def ctlRoot (w : Word) : Nat := fldw w 16 16
/-- R289 -/
def ctlB (w : Word) : Bool := bitw w 12

/-- The trap of a coll or collw on a broken communicator (R291, R292). -/
def Comm.trap (c : Comm) (token ctl : Word) : Rsp :=
  if c.bcause = 0x10 then .trap .collMismatch token
  else if c.bcause = 0x11 then .trap .collOverrun token
  else .trap .storeFault ctl

/-- Sends from a sluice to a plot. -/
def State.sluiceSays (s : State) (k tenant : Nat) (w : Who) (r : Rsp) : State :=
  s.push ⟨.rsp, .head (k / 32 / 2), .plot w.plot, tenant, .rsp w r⟩

/-- R292: the answer to collw for an instance that has ended. -/
def Inst.status_ (i : Inst) (token : Word) : Rsp :=
  if i.status = 1 then .words [.ofNat 64 (i.flags % 64)] (i.flags % 64)
  else if i.cause = 0x10 then .trap .collMismatch token
  else if i.cause = 0x11 then .trap .collOverrun token
  else .words [.ofNat 64 (0x06 * 256 + i.flags % 64)] (i.flags % 64)

/-- The destination ranges that steps of an instance have still to write. -/
def Inst.writes (i : Inst) (c : Comm) (l : Nat) (step : Nat × Nat × Nat) : Bool :=
  let op := ctlOp i.ctl
  match step with
  | (1, _, _) => true
  | (0, blk, _) => blk == c.rank && (op != 5 || ctlRoot i.ctl == c.rank) && decide (0 < l)
  | _ => false

/-- R292, R290: every destination byte of this member has been written; with B, and of a barrier, every member has started it. -/
def Inst.memberDone (i : Inst) (c : Comm) : Bool := !i.todo.any fun t => t.1 == 2 || i.writes c (i.reqs.head?.map (·.len) |>.getD 0) t

/-- A port's sluice. -/
def State.sluice (s : State) (port : Nat) : Sluice := Sparse.get Sluice.reset s.sluices port

/-- R400: the row of the chunk in progress is replaced. -/
def Sluice.close (x : Sluice) (f : ChunkLog → ChunkLog) : Sluice :=
  { x with log := x.log.map fun e => if e.done.isNone then f e else e, taken := none }

/-- A chunk in progress is given up with its instance: it is neither sent nor written. -/
def State.dropTaken (s : State) (gone : Taken → Bool) : State :=
  { s with sluices := s.sluices.map fun (x : Nat × Sluice) =>
      (x.1, if x.2.taken.any gone then x.2.close fun e => { e with done := some s.now } else x.2) }

/-- R292: the number of the instance that a pending request would have begun: one further for each earlier one of its member. -/
def Comm.seqOf (c : Comm) (r : CollReq) (k : Nat) : Nat := (c.seq + ((c.reqs.take k).filter fun q => q.who.plot == r.who.plot).length) % 2 ^ 16

/-- R294, R291, R292: a communicator breaks: the notice goes round the ring, its running instance ends, and what waits on it
traps or returns. -/
def State.breakComm (s : State) (k cause : Nat) : State :=
  let c := s.comm k
  if c.brk then s
  else
    let s := s.modComm k fun c => { c with brk := true, bcause := cause, reqs := [], staged := [] }
    let c' := s.comm k
    let s := c.reqs.zipIdx.foldl (fun s r => s.sluiceSays k c.tenant r.1.who (c'.trap (tokenOf k (c.seqOf r.1 r.2)) r.1.ctl)) s
    let mine := s.insts.filter fun i => i.comm == k && i.status == 0
    -- R292: a link failure leaves an instance complete whose bytes at this member have all been written
    let ended := fun (i : Inst) => { i with status := if cause = 0x06 && i.memberDone c then 1 else 2, cause := cause }
    let s := { s with insts := s.insts.map fun (i : Inst) => if i.comm = k && i.status = 0 then { ended i with waiters := [] } else i }
    let s := mine.foldl (fun s i => i.waiters.foldl (fun s w => s.sluiceSays k c.tenant w ((ended i).status_ (tokenOf k i.seq))) s) s
    let s := s.dropTaken fun t => t.comm == k
    let to_ := c.pkgAt (c.next c.rank)
    if to_ = s.pkg then s else s.push ⟨.sys, .peer s.pkg, .peer to_, c.tenant, .breakNotice c.vch cause⟩

/-! ## Requests (R291, R292) -/

/-- R291, R21: the checks of a coll at the sluice. -/
def execCollRequest (k : Nat) (s : State) : Res :=
  s.onMsg k fun s m => match m.body with
    | .coll r =>
      let id := fldw r.ctl 0 8
      let c := s.comm id
      let say := fun (s : State) (a : Rsp) => some (s.sluiceSays id m.tenant r.who a)
      let foreign := fun (l : Loc) (f : Cause) =>
        let s := match l with
          | .scratch p _ _ => s.mismatchAt (p % 2 ^ 20)
          | .pages _ _ => s
        say s (.trap f l.baddr)
      if c.en && decide (c.tenant ≠ m.tenant) then say { s with mismatch := s.mismatch + 1 } (.trap .storeFault r.ctl)
      else if !c.en || !(r.who.plot ∈ c.locals) || c.n ≤ ctlRoot r.ctl then say s (.trap .storeFault r.ctl)
      -- R290: a broadcast's source at any other member than the root's lowest is 0
      else if ctlOp r.ctl = 1 && !(c.rank == ctlRoot r.ctl && c.locals.head? == some r.who.plot) && r.tval ≠ 0 then say s (.trap .storeFault r.tval)
      else if c.brk then say s (c.trap (tokenOf id c.seq) r.ctl)
      else if s.foreign r.src m.tenant then foreign r.src .loadFault
      else if s.foreign r.dst m.tenant then foreign r.dst .storeFault
      else some (s.modComm id fun c => { c with reqs := c.reqs ++ [r] })
    | _ => none

/-- R292, R21: a collw at the sluice. -/
def execCollwRequest (k : Nat) (s : State) : Res :=
  s.onMsg k fun s m => match m.body with
    | .collw w token =>
      let id := fldw token 0 8
      let c := s.comm id
      let s := if c.en && decide (c.tenant ≠ m.tenant) then { s with mismatch := s.mismatch + 1 } else s
      let usable := (c.en || (c.brk && c.bcause == 0x06)) && c.tenant == m.tenant && decide (w.plot ∈ c.locals)
      let bad := fldw token 8 8 != 0 || fldw token 32 32 != 0 || !usable
      match s.insts.find? fun i => i.comm == id && i.seq == fldw token 16 16 with
      | none => some (s.sluiceSays id m.tenant w (.trap .loadFault token))
      | some i =>
        if bad then some (s.sluiceSays id m.tenant w (.trap .loadFault token))
        else if i.status = 0 && i.memberDone c then some (s.sluiceSays id m.tenant w ({ i with status := 1 }.status_ token))
        else if i.status = 0 then
          some { s with insts := s.insts.map fun j => if j.comm = id && j.seq = i.seq then { j with waiters := j.waiters ++ [w] } else j }
        else some (s.sluiceSays id m.tenant w (i.status_ token))
    | _ => none

/-! ## What a package does for an instance (R290, R293, R295) -/

/-- R295: the first bytes of the 4 KiB chunks of a block. -/
def chunkOffs (l : Nat) : List Nat := (List.range ((l + 4095) / 4096)).map (4096 * ·)

/-- The steps of an instance at a rank: (0, block, offset) a step of the merge chain, (1, block, offset) a finished chunk on its way
round the ring, (2, pass, 0) a barrier token. -/
def stepsOf (op n root rank l : Nat) (b : Bool) : List (Nat × Nat × Nat) :=
  let chain := fun blk => (chunkOffs l).map fun o => (0, blk, o)
  let carry := fun blk => (chunkOffs l).map fun o => (1, blk, o)
  let blocks := List.range n
  (match op with
    | 1 => carry 0
    | 2 => blocks.flatMap carry
    | 3 => blocks.flatMap chain
    | 4 => blocks.flatMap chain ++ (blocks.filter (· != rank)).flatMap carry
    | 5 => chain root
    | _ => []) ++ (if (b || op = 0) && decide (1 < n) then [(2, 0, 0), (2, 1, 0)] else [])

/-- The source bytes of a chunk of a block, by operation. -/
def srcOff (op l blk off : Nat) : Nat := if op = 3 || op = 4 then blk * l + off else off

/-- The destination bytes of a chunk of a block. -/
def dstOff (op l blk off : Nat) : Nat := if op = 2 || op = 4 then blk * l + off else off

/-- The destination bytes of an operation at a member (R290). -/
def dstLen (op n l : Nat) : Nat := if op = 2 || op = 4 then n * l else l

/-- R293: the records of two lists of bytes are merged, with the flags. -/
def mergeBytes_ : Nat → List Byte → List Byte → List Byte × Nat
  | 0, _, _ => ([], 0)
  | n + 1, a, b =>
    let (r, f) := mergeRec (.ofNat 128 (numLE (a.take 16))) (.ofNat 128 (numLE (b.take 16)))
    let (rest, g) := mergeBytes_ n (a.drop 16) (b.drop 16)
    (bytesLE 16 r.toNat ++ rest, f ||| g)

/-- R293: merge of two chunks. -/
def mergeChunks (a b : List Byte) : List Byte × Nat := mergeBytes_ (a.length / 16) a b

/-- The block length of an instance. -/
def Inst.len (i : Inst) : Nat := (i.reqs.head?.map (·.len)).getD 0

/-- The source bytes of an operation at a member (R290). -/
def srcLen (op n l : Nat) : Nat := if op = 3 || op = 4 then n * l else l

/-- R98: the bytes `n` from `j` on of a member's source: a word that the chunk shares with another one is read whole, by the chunk that comes
first. None where a byte cannot be read (R337). -/
def State.readSource (s : State) (i : Inst) (m : Nat) (d : Loc) (total j n : Nat) : Option (List Byte × List (Nat × Nat × Byte) × State) :=
  let known := fun (x : Nat) => (i.ahead.find? fun e => e.1 == m && e.2.1 == x).map (·.2.2)
  let wanted := (span (j - 7) (n + 14)).filter fun x => decide (x < total) &&
    (span j n).any fun y => (known y).isNone && decide ((d.spot x).word = (d.spot y).word)
  match (s.settleAt d).readLoc d (wanted.headD j) wanted.length with
  | none => none
  | some (bs, s) =>
    let new := wanted.zip bs
    let byte := fun (x : Nat) => ((known x).orElse fun _ => (new.find? fun e => e.1 == x).map (·.2)).getD 0
    let rest := (new.filter fun e => !(decide (j ≤ e.1) && decide (e.1 < j + n))).map fun e => (m, e.1, e.2)
    some ((span j n).map byte, (i.ahead.filter fun e => !(e.1 == m && decide (j ≤ e.2.1) && decide (e.2.1 < j + n))) ++ rest, s)

/-- R293, R290: a package's contribution to a chunk, with its flags: for a reducing operation the left fold over the local members; otherwise
the lowest member's bytes. -/
def State.contribution (s : State) (i : Inst) (n blk off count : Nat) : Option (List Byte × Nat × Inst × State) :=
  let op := ctlOp i.ctl
  let j := srcOff op i.len blk off
  let read := fun (s : State) (i : Inst) (m : Nat) (r : CollReq) =>
    (s.readSource i m r.src (srcLen op n i.len) j count).map fun (bs, ahead, s) => (bs, { i with ahead := ahead }, s)
  match i.reqs with
  | [] => none
  | r :: rest =>
    (read s i 0 r).bind fun (bs, i, s) =>
      if op < 3 then some (bs, 0, i, s)
      else rest.zipIdx.foldl (fun acc q => acc.bind fun (a, f, i, s) => (read s i (q.2 + 1) q.1).map fun (b, i, s) =>
        let (c, g) := mergeChunks a b
        (c, f ||| g, i, s)) (some (bs, 0, i, s))

/-- R296, R282, R98: bytes of a finished chunk land at every local member, a word once all its bytes are there; what waits for the rest of its
word is kept. A word or sector is full once no byte of the destination has still to land in it. -/
def State.land (s : State) (i : Inst) (c : Comm) (blk off : Nat) (bs : List Byte) : Inst × State :=
  let op := ctlOp i.ctl
  let at_ := dstOff op i.len blk off
  let left := (i.todo.filter (i.writes c i.len)).map fun t => (dstOff op i.len t.2.1 t.2.2, min 4096 (i.len - t.2.2))
  let coming := fun (near : Nat) (same : Nat → Bool) => left.any fun r =>
    (span near 128).any fun x => decide (r.1 ≤ x) && decide (x < r.1 + r.2) && same x
  let waits := fun (d : Loc) (j : Nat) => coming (j - 7) fun x => decide ((d.spot x).word = (d.spot j).word)
  let all := i.held ++ placed at_ bs
  ({ i with held := all.filter fun x => i.reqs.any fun r => waits r.dst x.1 },
    i.reqs.foldl (fun s r =>
      let d := r.dst
      let s := s.settleAt d
      let now := all.filter fun x => !waits d x.1 && (span at_ bs.length).any fun y => decide ((d.spot y).word = (d.spot x.1).word)
      -- the bytes, and then the bits of the words and sectors that are complete
      let s := match d with
        | .scratch p b o => s.modBufs (p % 2 ^ 20) fun m => m.write b (now.map fun x => (o + x.1, x.2))
        | .pages _ _ => s.hbmWrite (now.filterMap fun x => match d.spot x.1 with
            | .hbm t => some (t, x.2)
            | _ => none)
      ((now.map fun x => d.spot x.1).filter fun u =>
        !(now.any fun x => decide ((d.spot x.1).unit = u.unit) && coming (x.1 - 63) fun y => decide ((d.spot y).unit = u.unit))).foldl
        (fun s u => match u with
          | .hbm t => s.setSector t false
          | .buf p b o => s.modBufs (p % 2 ^ 20) fun m => m.setEmpty b (o / 8) false
          | _ => s) s) s)

/-- A chunk of an instance for the next rank. -/
def State.sendChunk (s : State) (c : Comm) (i : Inst) (l kind blk off : Nat) (bs : List Byte) (fl : Nat) : State :=
  let to_ := c.pkgAt (c.next c.rank)
  let k : Chunk := {
    vch := c.vch, tenant := c.tenant, seq := i.seq, op := ctlOp i.ctl, len := l, root := ctlRoot i.ctl, b := ctlB i.ctl, kind := kind,
    block := blk, off := off, bytes := bs, flags := fl, hops := 0, arrived := 0 }
  (s.modComm i.comm fun c => { c with out := c.out + 1 }).push ⟨.chi, .peer s.pkg, .peer to_, c.tenant, .chunk k⟩

/-- R298: a chunk that has been taken up returns its credit on the connection it came by. -/
def State.credit (s : State) (c : Comm) : State :=
  let prev := c.pkgAt ((c.rank + c.n - 1) % c.n)
  let conns := s.link.conns.map fun (x : Conn) =>
    if x.peer = prev && x.tenant = c.tenant && decide (x.state ≤ 1) then
      x.setChan c.vch { x.chan c.vch with cred := (x.chan c.vch).cred + 1 }
    else x
  { s with link := { s.link with conns := conns } }

/-- R293: the rank at which a finished block starts its way round the ring. -/
def Inst.owner (i : Inst) (blk : Nat) : Nat := if ctlOp i.ctl = 1 then ctlRoot i.ctl else blk

/-- A step needs a chunk from the previous rank. -/
def Inst.needs (i : Inst) (c : Comm) (step : Nat × Nat × Nat) : Bool :=
  match step with
  | (0, blk, _) => c.rank != (blk + 1) % c.n
  | (1, blk, _) => c.rank != i.owner blk
  | (_, pass, _) => !(c.rank == 0 && pass == 0)

/-- The chunk that a step needs: of the same kind and place; rank 0's second token step takes the first pass. -/
def Inst.wants (i : Inst) (c : Comm) (step : Nat × Nat × Nat) (k : Chunk) : Bool :=
  k.seq == i.seq && k.kind == step.1 && k.off == step.2.2 &&
    (if step.1 = 2 && c.rank == 0 then k.block == 0 else k.block == step.2.1)

/-- A step sends a chunk to the next rank. -/
def Inst.sends (i : Inst) (c : Comm) (step : Nat × Nat × Nat) : Bool :=
  match step with
  | (0, blk, _) => c.rank != blk || (ctlOp i.ctl == 4 && decide (1 < c.n))
  | (1, blk, _) => c.next c.rank != i.owner blk
  | (_, pass, _) => pass == 0 || decide (c.rank + 1 < c.n)

/-- R295: a step of an instance is ready: its chunk is there, and the channel holds a credit for what it sends. -/
def Inst.ready (i : Inst) (c : Comm) (step : Nat × Nat × Nat) : Bool :=
  (!i.needs c step || c.staged.any (i.wants c step)) && (!i.sends c step || decide (c.out < 8))

/-- An instance is replaced. -/
def State.setInst (s : State) (i : Inst) : State :=
  { s with insts := s.insts.map fun j => if j.comm = i.comm && j.seq = i.seq then i else j }

/-- R292: once this member's bytes have been written, what waits in collw goes on; an instance with no step left is complete. -/
def State.finishInst (s : State) (i : Inst) : State :=
  if i.status = 0 && i.memberDone (s.comm i.comm) then
    let i' := { i with status := if i.todo.isEmpty then 1 else 0, waiters := [] }
    i.waiters.foldl (fun s w => s.sluiceSays i.comm (s.comm i.comm).tenant w ({ i with status := 1 }.status_ (tokenOf i.comm i.seq))) (s.setInst i')
  else s.setInst i

/-! ### The datapath (R295, R400) -/

/-- R400: the log's row of a step of an instance that the sluice takes up. The step count is that of R293. -/
def State.rowOf (s : State) (i : Inst) (c : Comm) (step : Nat × Nat × Nat) (arrived : Nat) : ChunkLog :=
  { arrived := arrived, taken := s.now, done := none, comm := i.comm, ch := c.vch, seq := i.seq,
    block := if ctlOp i.ctl = 1 then none else some step.2.1,
    step := if step.1 = 0 then some ((c.rank + 2 * c.n - step.2.1 - 1) % c.n) else none,
    record0 := [], sent := none, written := [] }

/-- R400: the row once the step has sent or landed the bytes given. -/
def ChunkLog.complete (e : ChunkLog) (now : Nat) (i : Inst) (c : Comm) (step : Nat × Nat × Nat) (bs : List Byte) : ChunkLog :=
  { e with
    done := some now, record0 := bs.take 16,
    sent := if i.sends c step then some (c.next c.rank) else none,
    written := if step.1 == 1 || c.rank == step.2.1 then i.reqs.map fun r => r.dst.baddr + .ofNat 64 (dstOff (ctlOp i.ctl) i.len step.2.1 step.2.2)
      else [] }

/-- Changes a port's sluice. -/
def State.modSluice (s : State) (port : Nat) (f : Sluice → Sluice) : State :=
  { s with sluices := Sparse.set Sluice.reset s.sluices port (f (s.sluice port)) }

/-- R295, R400: a sluice has taken up a chunk: it is in progress, in the register set of its communicator, and the last of the log. -/
def Sluice.take (x : Sluice) (urg : Bool) (t : Taken) (e : ChunkLog) : Sluice :=
  { x with
    log := (x.log ++ [e]).drop (x.log.length - 15), taken := some t,
    bulk := if urg then x.bulk else some t.comm, urgent := if urg then some t.comm else x.urgent }

/-- R293, R295: a sluice takes up a step of an instance: the chunk that it needs leaves the receive buffer, and the local contribution is read
and merged with it. The tokens of a barrier are no chunks of a block: one goes round at once. -/
def State.takeUp (s : State) (i : Inst) (step : Nat × Nat × Nat) : State :=
  let c := s.comm i.comm
  let k := if i.needs c step then c.staged.find? (i.wants c step) else none
  let s := match k with
    | some k => (s.modComm i.comm fun c => { c with staged := c.staged.erase k }).credit c
    | none => s
  let (inBytes, inFlags, since) : List Byte × Nat × Nat := match k with
    | some k => (k.bytes, k.flags, k.arrived)
    | none => ([], 0, i.since)
  let goOn := fun (s : State) (i : Inst) (bs : List Byte) (fl : Nat) =>
    (s.setInst i).modSluice (i.comm / 32) fun x => x.take c.urg ⟨i.comm, i.seq, step, bs, fl, inFlags⟩ (s.rowOf i c step since)
  match step with
  | (2, pass, _) =>
    let i := { i with todo := i.todo.erase step }
    let s := s.modSluice (i.comm / 32) fun x => if c.urg then { x with urgent := some i.comm } else { x with bulk := some i.comm }
    (if i.sends c step then s.sendChunk c i i.len 2 pass 0 [] 0 else s).finishInst i
  | (kind, blk, off) =>
    if kind = 1 && k.isSome then goOn s i inBytes inFlags
    else match s.contribution i c.n blk off (min 4096 (i.len - off)) with
      | none => s.breakComm i.comm 0x06
      | some (own, f, i, s) =>
        if k.isSome then
          let (b, g) := mergeChunks inBytes own
          goOn s i b (inFlags ||| f ||| g)
        else goOn s i own f

/-- R293, R295: the step that a sluice has taken up completes: its bytes land, or go to the next rank, or both. -/
def State.completeStep (s : State) (i : Inst) (t : Taken) : State :=
  let c := s.comm i.comm
  let i := { i with todo := i.todo.erase t.step }
  let s := s.modSluice (i.comm / 32) fun x => x.close fun e => e.complete s.now i c t.step t.bytes
  match t.step with
  | (0, blk, off) =>
    if c.rank = blk then
      let (i, s) := s.land { i with flags := i.flags ||| t.flags } c blk off t.bytes
      (if ctlOp i.ctl = 4 && decide (1 < c.n) then s.sendChunk c i i.len 1 blk off t.bytes t.flags else s).finishInst i
    else (s.sendChunk c i i.len 0 blk off t.bytes t.flags).finishInst i
  | (_, blk, off) =>
    let (i, s) := s.land { i with flags := i.flags ||| t.inFlags } c blk off t.bytes
    (if c.next c.rank ≠ i.owner blk then s.sendChunk c i i.len 1 blk off t.bytes t.inFlags else s).finishInst i

/-- The steps that instances have still to take. -/
def State.steps (s : State) : List (Inst × Nat × Nat × Nat) :=
  (s.insts.filter fun i => i.status == 0).flatMap fun i => i.todo.map fun t => (i, t)

/-- R295: a step of an urgent communicator of a port's sluice is ready. -/
def State.urgent (s : State) (port : Nat) : Bool :=
  s.steps.any fun t => t.1.comm / 32 == port && (s.comm t.1.comm).urg && t.1.ready (s.comm t.1.comm) t.2

/-- R295: the bulk communicator of a port's sluice that is next, in cyclic id order, of those with a ready chunk. -/
def State.nextBulk (s : State) (port : Nat) : Option Nat :=
  let ready := s.steps.filter fun t => t.1.comm / 32 == port && !(s.comm t.1.comm).urg && t.1.ready (s.comm t.1.comm) t.2
  firstBy (fun k => [(k + 31 - (((s.sluice port).bulk.map (· % 32)).getD 31)) % 32]) (ready.map fun t => t.1.comm)

/-- R295: a sluice takes up a ready chunk: an urgent communicator's first, otherwise the next bulk communicator's. A chunk is never split: while
one is in progress its step completes, and no other is taken up. -/
def execChunkTakeup (x : Nat) (s : State) : Res :=
  match s.steps[x]? with
  | none => .next s
  | some (i, step) =>
    let c := s.comm i.comm
    match (s.sluice (i.comm / 32)).taken with
    | some t => .next (if t.comm = i.comm && t.seq = i.seq && t.step = step then s.completeStep i t else s)
    | none =>
      if !i.ready c step || (!c.urg && (s.urgent (i.comm / 32) || s.nextBulk (i.comm / 32) != some i.comm)) then .next s
      else .next (s.takeUp i step)

/-! ## Acceptance and arrival (R291, R294) -/

/-- R294: a chunk carries the signature of an instance. -/
def Inst.matches_ (i : Inst) (c : Chunk) : Bool :=
  c.op == ctlOp i.ctl && c.root == ctlRoot i.ctl && c.b == ctlB i.ctl && match i.reqs with
    | r :: _ => c.len == r.len
    | [] => false

/-- R291: the first request of each local member. -/
def Comm.ready (c : Comm) : Option (List CollReq) := c.locals.mapM fun p => c.reqs.find? fun r => r.who.plot == p

/-- R291, R398: the sluice accepts an instance: every local member has issued it and the previous one has finished here. Staged
chunks of it are compared now (R294). -/
def execCollAccept (x : Nat) (s : State) : Res :=
  let c := s.comm x
  if !c.en || c.brk || s.insts.any (fun i => i.comm == x && i.status == 0) then .next s
  else match c.ready with
    | none | some [] => .next s
    | some (r :: rest) =>
      if rest.any (fun q => q.ctl != r.ctl || q.len != r.len) then .next (s.breakComm x 0x10)
      else
        let rs := r :: rest
        let op := ctlOp r.ctl
        let i : Inst := { comm := x, seq := c.seq, ctl := r.ctl, reqs := rs,
                          todo := stepsOf op c.n (ctlRoot r.ctl) c.rank r.len (ctlB r.ctl), flags := 0, status := 0, cause := 0, waiters := [], since := s.now, ahead := [], held := [] }
        let s := s.modComm x fun c => { c with seq := (c.seq + 1) % 2 ^ 16, reqs := rs.foldl (fun l q => l.erase q) c.reqs }
        let old := s.insts.filter fun (j : Inst) => j.comm == x
        let s := { s with insts := (s.insts.filter fun (j : Inst) => j.comm != x) ++ old.drop (old.length - 3) ++ [i] }
        let s := rs.foldl (fun s q => s.sluiceSays x c.tenant q.who (.words [tokenOf x i.seq] 0)) s
        let s := s.finishInst i
        if c.staged.any (fun k => k.seq == i.seq && !i.matches_ k) then .next (s.breakComm x 0x10) else .next s

/-- R294: a chunk reaches a member package. -/
def execChunkArrival (k : Nat) (s : State) : Res :=
  s.onMsg k fun s m => match m.body with
    | .chunk q =>
      match (List.range 256).find? fun x => (s.comm x).en && (s.comm x).tenant == m.tenant && (s.comm x).vch == q.vch with
      | none => some { s with mismatch := s.mismatch + 1 }
      | some x =>
        let c := s.comm x
        if c.brk then some s
        else
          let run := s.insts.find? fun i => i.comm == x && i.status == 0
          let cur := match run with
            | some i => i.seq
            | none => c.seq
          let d : Nat := (q.seq + 2 ^ 16 - cur) % 2 ^ 16
          let bad := match run with
            | some i => d = 0 && !i.matches_ q
            | none => false
          if 32768 ≤ d || bad then some (s.breakComm x 0x10)
          else if 3 ≤ d then some (s.breakComm x 0x11)
          else some (s.modComm x fun c => { c with staged := c.staged ++ [{ q with arrived := s.now }] })
    | _ => none

/-- R294: a break notice reaches a member, which marks its communicator broken and passes the notice on; one
for no communicator of its partition is discarded and counted (R21). -/
def execCommBreakNotice (k : Nat) (s : State) : Res :=
  s.onMsg k fun s m => match m.body with
    | .breakNotice vch cause =>
      some (match (List.range 256).find? fun x => (s.comm x).en && (s.comm x).tenant == m.tenant && (s.comm x).vch == vch with
        | some x => s.breakComm x cause
        | none => { s with mismatch := s.mismatch + 1 })
    | _ => none

end Sys2Proof.Machine
end

