-- ==== Sys2Proof/Machine/Sys.lean ====
section
/-!
DEFINITION. The SYS instructions (14, R305 to R325).
-/

namespace Sys2Proof.Machine

open Sys2Proof

/-- R305, R309: an access to a CSR that task mode does not allow raises PRIVILEGE. -/
def State.csrAllowed (s : State) (n : Nat) : Try Unit :=
  need (s.me.sup || csrTask n) (.trap .privilege (.ofNat 64 s.iword.toNat))

/-- R307, csrr. -/
def execCsrr (d : BitVec 6) (c : BitVec 8) (s : State) : Res :=
  s.finish (do
    s.csrAllowed c.toNat
    checkRegs s [] [regG d]
    .ok (s.setG (regG d) (s.csrRead s.cur.1 s.cur.2 c.toNat)).retire)

/-- R308: a write of a CSR from the whole old value and the operand; d receives the old value. -/
def csrOp (d a : BitVec 6) (t : Bool) (c : BitVec 8) (op : Word → Word → Word) (s : State) : Res :=
  s.finish (do
    s.csrAllowed c.toNat
    checkRegs s [⟨regG a, t⟩] [regG d]
    let (x, s) := s.takeG (regG a)
    let (p, k) := s.cur
    let old := s.csrRead p k c.toNat
    .ok ((s.csrWrite p k c.toNat (op old x)).setG (regG d) old).retire)

/-- R307, csrw. -/
def execCsrw (d a : BitVec 6) (t : Bool) (c : BitVec 8) (s : State) : Res := csrOp d a t c (fun _ x => x) s
/-- R307, csrs. -/
def execCsrs (d a : BitVec 6) (t : Bool) (c : BitVec 8) (s : State) : Res := csrOp d a t c (fun o x => o ||| x) s
/-- R307, csrc. -/
def execCsrc (d a : BitVec 6) (t : Bool) (c : BitVec 8) (s : State) : Res := csrOp d a t c (fun o x => o &&& ~~~x) s

/-- R312, tret. -/
def execTret (s : State) : Res :=
  s.finish (do
    s.supervisor
    checkRegs s [] []
    .ok s.tret)

/-- A trap that follows the retirement of the current instruction (R315): EPC is the next instruction, ASYNC = 1. -/
def State.trapNext (s : State) (c : Cause) (v : Word) : State :=
  let s := s.retire
  s.trapAt s.cur.1 s.cur.2 c v s.me.pc true

/-- R307, trap. -/
def execTrap (a : BitVec 6) (t : Bool) (s : State) : Res :=
  s.finish (do
    checkRegs s [⟨regG a, t⟩] []
    let (x, s) := s.takeG (regG a)
    .ok (s.trapNext .software x))

/-- R307, brk. -/
def execBrk (n : BitVec 8) (s : State) : Res :=
  s.finish (do
    checkRegs s [] []
    .ok (s.trapNext .breakpoint (.ofNat 64 (0x10000 + n.toNat))))

/-- R320, tfault: the recorded trap goes to containment, as if no handler had been entered. -/
def execTfault (s : State) : Res :=
  s.finish (do
    s.supervisor
    checkRegs s [] []
    let s := s.modMe fun x => { (x.halts true) with pair := none, block := none, bsup := false, handlers := x.handlers - 1 }
    .ok (s.contain s.cur.1 s.cur.2 (fldw s.me.csr.tcause 0 8)))

/-- R325: a write of a word of the instruction store. -/
def Plot.setWord (x : Plot) (a : Nat) (w : W32) : Plot :=
  { x with istore := Sparse.set 0 x.istore (a / 4) w, istoreBad := Sparse.set false x.istoreBad (a / 4) false }

/-- R325, iswr. -/
def execIswr (a : BitVec 6) (t : Bool) (s : State) : Res :=
  s.finish (do
    s.supervisor
    checkRegs s [⟨regG a, t⟩, ⟨regG a + 1, false⟩] []
    let x := s.g (regG a)
    let w := s.g (regG a + 1)
    need (x.toNat % 4 == 0 && decide (x.toNat ≤ 0x1FFC)) (.trap .storeFault x)
    .ok (s.modPlot s.cur.1 fun p => p.setWord x.toNat (w.setWidth 32)).retire)

/-- R324: an invalidation goes to all 16 service blocks; the instruction retires when all have acknowledged. -/
def State.tlbSend (s : State) (va : Option Nat) : State :=
  let (id, s) := s.fresh
  let s := s.holdFor .tlbinv id [] 0 16
  (List.range 16).foldl (fun s f => s.sendMine .sys (.service f) (.tlbInv va (s.who id) f s.myPlot.tenant)) s

/-- R324, tlbinv. -/
def execTlbinv (a : BitVec 6) (t : Bool) (s : State) : Res :=
  s.finish (do
    s.supervisor
    checkRegs s [⟨regG a, t⟩] []
    let (x, s) := s.takeG (regG a)
    need (fldw x 56 8 == 0) (.trap .storeFault x)
    .ok (s.tlbSend (some x.toNat)))

/-- R324, tlbinv.all. -/
def execTlbinvAll (s : State) : Res :=
  s.finish (do
    s.supervisor
    checkRegs s [] []
    .ok (s.tlbSend none))

/-- R22: a field's gateway plot. -/
def gatewayOf (pkgField : Nat) : Nat := pkgField * 2 ^ 16 + 96 * 256 + 108

/-- R322, objhome: the group blocks and never traps. -/
def execObjhome (a : BitVec 6) (_ : Bool) (s : State) : Res :=
  s.finish (do
    s.supervisor
    checkRegs s [⟨regG a, false⟩, ⟨regG a + 1, false⟩] []
    let old := s.g (regG a)
    let new := s.g (regG a + 1)
    need (orefOk old) (.trap .storeFault old)
    need (orefOk new) (.trap .storeFault new)
    let o := s.myPlot.obj (oSlot new)
    need (hPlot new == s.plotId s.cur.1 && o.v && o.gen == oGen new) (.trap .storeFault new)
    let (id, s) := s.fresh
    let s := s.holdFor .objhome id [] new 1
    let dst := if hPlot old / 2 ^ 20 = s.pkg then Endpoint.service (fieldOf (hPlot old)) else .plot (gatewayOf (hPlot old / 2 ^ 16))
    .ok (s.sendMine .sys dst (.dirMap old new (s.who id))))

end Sys2Proof.Machine
end

