-- ==== Sys2Proof/Machine/Debug.lean ====
section
/-!
DEFINITION. The debug port of a plot (14, R326 to R331).
-/

namespace Sys2Proof.Machine

open Sys2Proof

/-- The plot of a debug operation. -/
def DbgOp.plot : DbgOp → Nat
  | .halt p _ | .resume p _ | .deliver p _ | .stepOne p _ => p
  | .regRead p _ _ | .regWrite p _ _ _ _ => p
  | .csrRead p _ _ | .csrWrite p _ _ _ => p
  | .bufRead p _ _ _ | .bufWrite p _ _ _ _ => p
  | .snapshot p _ => p
  | .istoreWrite p _ _ => p
  | .template p _ => p

/-- An answer of the debug port. -/
def State.dbgSay (s : State) (r : DbgReply) : State := { s with dbgReplies := s.dbgReplies ++ [r] }

/-- R330, R21, R18: a step on a debug operation: operations for a plot are taken in order, and one for a plot that is not of the
session's partition is refused. `f` answers none where the operation is not this step's or has to wait. -/
def State.onDbg (s : State) (k : Nat) (f : State → DbgOp → Option State) : Res :=
  match s.dbgOps[k]? with
  | none => .next s
  | some q =>
    let p := q.op.plot
    if (s.dbgOps.take k).any fun e => e.op.plot == p then .next s
    else
      let t := { s with dbgOps := s.dbgOps.eraseIdx k }
      match f t q.op with
      | none => .next s
      | some u => .next (if plotOk p && decide (p < 2 ^ 20) && q.tenant == (s.plot p).tenant then u else (t.mismatchAt p).dbgSay .refused)

/-- The place of a task that a debug operation names: a context, or the image of a spilled task, which keeps its halt (R330). -/
def dbgPlace (c : Nat) : Place := if c < 4 then .ctx c else .image (c - 4)

/-- The task at a place of a plot. -/
def State.dbgCtx (s : State) (p c : Nat) : Ctx := (s.plot p).at_ (dbgPlace c)

/-- Changes the task at a place of a plot. -/
def State.modDbg (s : State) (p c : Nat) (f : Ctx → Ctx) : State := s.modPlot p fun x => x.put (dbgPlace c) (f (x.at_ (dbgPlace c))) none

/-- R330: a task's CSRs are reached through a context: a spilled task stands in context 0 meanwhile. -/
def State.asCtx (s : State) (p c : Nat) (f : State → Nat → State) : State :=
  if c < 4 then f s c
  else
    let t := f (s.setCtx p 0 (s.dbgCtx p c)) 0
    (t.setCtx p 0 (s.ctx p 0)).modDbg p c fun _ => t.ctx p 0

/-- R330: a context halts at its next boundary; a multiply of it yields (R139), and a follower splits first (R199, cause 4). -/
def State.dbgHalt (s : State) (p c : Nat) : State :=
  let s := if c < 4 && (s.ctx p c).furrow.leader.isSome then s.splitFollower p c 4 else s
  let s := if c < 4 then s.modPlot p (·.yieldMul c) else s
  s.modDbg p c fun y =>
    if y.pair.isSome || y.hold.isSome || (s.plot p).engine.running = some c then { y with haltReq := true }
    else { y with halted := true, haltReq := false }

/-- R330, halt. -/
def execDebugHalt (k : Nat) (s : State) : Res :=
  s.onDbg k fun s op => match op with
    | .halt p c => some (if (s.dbgCtx p c).live && !(s.dbgCtx p c).ended then (s.dbgHalt p c).dbgSay .done else s.dbgSay .refused)
    | _ => none

/-- R330: a context goes on at its PC. A trap that HOT turned into a halt is forgotten. -/
def Ctx.goOn (y : Ctx) (step : Bool) : Ctx := { y with halted := false, haltReq := false, hotTrap := none, dbgStep := step }

/-- R330, resume. -/
def execDebugResume (k : Nat) (s : State) : Res :=
  s.onDbg k fun s op => match op with
    | .resume p c => some ((s.modDbg p c (·.goOn false)).dbgSay .done)
    | _ => none

/-- R330, R311, deliver: the trap entry of a context halted by HOT, which then goes on. A spilled task enters when it is back in a context
(`attempt`). -/
def execDebugDeliver (k : Nat) (s : State) : Res :=
  s.onDbg k fun s op => match op with
    | .deliver p c => some (match (s.dbgCtx p c).halted, (s.dbgCtx p c).hotTrap with
      | true, some (cause, v, epc, async) =>
        if c < 4 then ((s.modCtx p c (·.goOn false)).enterTrap p c cause v epc async).dbgSay .done
        else (s.modDbg p c fun y => { y.goOn false with hotTrap := some (cause, v, epc, async) }).dbgSay .done
      | _, _ => s.dbgSay .refused)
    | _ => none

/-- R330, R199, step: one instruction or pair, and a halt. A follower splits first. -/
def execDebugStep (k : Nat) (s : State) : Res :=
  s.onDbg k fun s op => match op with
    | .stepOne p c =>
      let s := if c < 4 && (s.ctx p c).furrow.leader.isSome then s.splitFollower p c 4 else s
      some ((s.modDbg p c (·.goOn true)).dbgSay .done)
    | _ => none

/-- The value of the register of a number of R60. -/
def Regs.any_ (x : Regs) (r : Nat) : V256 :=
  if r < 64 then (x.gv r).setWidth 256 else if r < 80 then x.vv (r - 64) else (x.sv (r - 80)).setWidth 256

/-- R330: g, v and s registers and their FE. -/
def execDebugRegRead (k : Nat) (s : State) : Res :=
  s.onDbg k fun s op => match op with
    | .regRead p c r => some (s.dbgSay (.register ((s.dbgCtx p c).regs.any_ r) (!(s.dbgCtx p c).regs.isEmpty r)))
    | _ => none

/-- R330, R59: a write waits for a pending producer, and sets full unless it writes FE explicitly. -/
def execDebugRegWrite (k : Nat) (s : State) : Res :=
  s.onDbg k fun s op => match op with
    | .regWrite p c r v fe =>
      let y := s.dbgCtx p c
      if y.pending r || y.multi.any fun m => m.reg == r then none
      else
        let x := y.regs.setAny r v
        let x := match fe with
          | some full => if r = 0 then x else { x with empt := Sparse.set false x.empt r (!full) }
          | none => x
        some ((s.modDbg p c fun y => { y with regs := x }).dbgSay .done)
    | _ => none

/-- R330: CSRs are read as supervisor. -/
def execDebugCsrRead (k : Nat) (s : State) : Res :=
  s.onDbg k fun s op => match op with
    | .csrRead p c n => some (s.dbgSay (if csrKnown n then .csr (if c < 4 then s.csrRead p c n else (s.setCtx p 0 (s.dbgCtx p c)).csrRead p 0 n) else .refused))
    | _ => none

/-- R330: CSRs are written as supervisor; a read-only CSR keeps its value. -/
def execDebugCsrWrite (k : Nat) (s : State) : Res :=
  s.onDbg k fun s op => match op with
    | .csrWrite p c n w => some (if csrKnown n then (if csrReadOnly n then s else s.asCtx p c fun s c => s.csrWrite p c n w).dbgSay .done else s.dbgSay .refused)
    | _ => none

/-- R330, R334: bytes of a buffer, with the FE of every word they lie in. -/
def execDebugBufferRead (k : Nat) (s : State) : Res :=
  s.onDbg k fun s op => match op with
    | .bufRead p b o n =>
      if Config.bufSize b < o + n then some (s.dbgSay .refused)
      else match s.readBuf p b (span o n) with
        | .error _ => some (s.dbgSay .refused)
        | .ok (bs, t) =>
          let ws := ((span o n).map (· / 8)).eraseDups
          some (t.dbgSay (.bytes bs (ws.map fun i => !(s.plot p).bufs.wordEmpty b i)))
    | _ => none

/-- R330, R95, R97: bytes of a buffer are written; their words become full, or as the operation says. -/
def execDebugBufferWrite (k : Nat) (s : State) : Res :=
  s.onDbg k fun s op => match op with
    | .bufWrite p b o bs fe =>
      if Config.bufSize b < o + bs.length then some (s.dbgSay .refused)
      else
        let s := s.modBufs p fun x => x.writeEngine b (placed o bs)
        let s := match fe with
          | some full => s.modBufs p fun x => ((span o bs.length).map (· / 8)).foldl (fun x i => x.setEmpty b i (!full)) x
          | none => s
        some (s.dbgSay .done)
    | _ => none

/-- R396: what the weirs show of a tenant's pools. -/
def State.weirViews (s : State) (tenant : Nat) : List WeirView :=
  (List.range 16).flatMap fun f =>
    let x := (s.field f).weir
    ((List.range 64).filter fun q => (x.cfg q).en && (x.cfg q).owner == tenant).map fun q =>
      { field := f, pool := q, en := (x.cfg q).en, bound := (x.cfg q).bound, age := (x.cfg q).age, per := (x.cfg q).per,
        entries := (sortElems ((x.entries q).map fun e => (e, 1))).map fun e => e.1.entry q, round := (x.tround q).map (·.entry q) }

/-- R400: what a sluice shows of a register set, whose communicator took up a chunk last. -/
def State.sluiceSet (s : State) (tenant : Nat) (k : Option Nat) : Option SluiceSet :=
  k.bind fun k =>
    let c := s.comm k
    if c.tenant ≠ tenant then none
    else match (s.insts.filter fun i => i.comm == k).getLast? with
      | some i => some ⟨k, i.seq, i.status == 0, c.vch, 8 - c.out, c.staged.length⟩
      | none => some ⟨k, c.seq, false, c.vch, 8 - c.out, c.staged.length⟩

/-- R396: the bytes of global memory from an address on, with the FE of their sectors, where the plot's tenant may read them: HBM and host
memory; the memory of another package is not this package's to show. -/
def State.memoryView (s : State) (p va n : Nat) : Option (List (Byte × Bool)) :=
  (span va n).mapM fun a => match s.service p a with
    | some e =>
      let t := e.target_ a
      if !e.rd then none
      else match e.ty with
        | 0 => some (Sparse.get 0 s.mem.hbm t, !Sparse.get false s.mem.fe (t / 64))
        -- R103: host memory has no bits
        | 2 => some (Sparse.get 0 s.mem.host t, true)
        | _ => none
    | none => none

/-- R330, R396, R400, R402: a snapshot at one cycle; of units that partitions share it shows what is the partition's own (R21). -/
def State.snapshot (s : State) (p : Nat) (kind : Snap) : DbgReply :=
  let x := s.plot p
  let live := (List.range 4).map (fun c => (c, x.ctx c)) |>.filter (·.2.live)
  let images := x.sched.images.map (·.1)
  match kind with
  | .store => .store s.now x.istore
  | .tasks => .tasks s.now x.chans x.queues live images (Sparse.get [] s.started p)
  | .turnout => .turnout s.now x.records (s.recLogs.filterMap fun l => if l.1 / 4096 = p then some (l.1 % 4096, l.2) else none)
  | .gates => .gates s.now ((live.map (·.2) ++ images).map fun y => (y.csr.taskid, y.gates))
  | .barriers => .barriers s.now (((s.field (fieldOf p)).barriers.take 16).filter fun b =>
      (rectPlots b.rect).all fun q => (s.plot (q % 2 ^ 20)).tenant == x.tenant)
  | .links => .links s.now ((s.link.conns.filter fun c => c.tenant == x.tenant).map fun c => ⟨c.peer, c.port, c.state, c.window, c.srtt⟩)
  | .weirs => .weirs s.now (s.weirViews x.tenant)
  | .comm id => let c := s.comm id; if c.tenant = x.tenant then .comm s.now c.entry c.members c.locals else .refused
  | .sluice port =>
    let y := s.sluice port
    .sluice s.now (s.sluiceSet x.tenant y.bulk) (s.sluiceSet x.tenant y.urgent) (y.log.filter fun e => (s.comm e.comm).tenant == x.tenant)
  | .memory va n => match s.memoryView p va n with
    | some bs => .memory s.now bs
    | none => .refused

/-- R330: the store, the tables, the turnout, gates, barriers or weir entries. -/
def execDebugSnapshot (k : Nat) (s : State) : Res :=
  s.onDbg k fun s op => match op with
    | .snapshot p kind => some (s.dbgSay (s.snapshot p kind))
    | _ => none

/-- R330, R325: a word of the instruction store. -/
def execDebugIstoreWrite (k : Nat) (s : State) : Res :=
  s.onDbg k fun s op => match op with
    | .istoreWrite p a w =>
      some (if a % 4 = 0 && decide (a ≤ 0x1FFC) then (s.modPlot p fun x => x.setWord a w).dbgSay .done else s.dbgSay .refused)
    | _ => none

/-- R331, R326, R328: the template keeps what the CSRs would keep. -/
def Template.clean (t : Template) : Template :=
  let four := fun (f : Word → Word) (m : Sparse Word) => (List.range 4).foldl (fun r n => Sparse.set 0 r n (f (Sparse.get 0 m n))) []
  { bka := four (fun w => keepBits w 0x1FFC) t.bka
    wpa := four id t.wpa
    wpm := four (fun w => keepBits w 0xF0FFFFFFFFFFFFFF) t.wpm
    dbgctl := dbgctlWrite 0 t.dbgctl
    mask := t.mask }

/-- R331: the template of a plot. -/
def execDebugTemplateWrite (k : Nat) (s : State) : Res :=
  s.onDbg k fun s op => match op with
    | .template p t => some ((s.modPlot p fun x => { x with tmpl := t.clean }).dbgSay .done)
    | _ => none

end Sys2Proof.Machine
end

