-- ==== Sys2Proof/Machine/Host.lean ====
section
/-!
DEFINITION. What the host does at the package's link: the host window of HBM and the partition pages (17, R376 to R379).
-/

namespace Sys2Proof.Machine

open Sys2Proof

/-! ## The host window (R376) -/

/-- The target address behind an offset in the host window; none in a granule that no partition owns. -/
def State.windowAt (s : State) (a : Nat) : Option Nat :=
  (Sparse.get none s.host.windows (a / 2 ^ 30)).map fun g => g.1 + a % 2 ^ 30

/-- An operation of the host on its window. -/
def HostOp.isWindow : HostOp → Bool
  | .windowRead _ _ | .windowWrite _ _ => true
  | _ => false

/-- An access to configuration space. -/
def HostOp.isConfig : HostOp → Bool
  | .configRead _ | .configWrite _ _ => true
  | _ => false

/-- A posted write to BAR0, the mark that event records have been read (R387), or what the runtime does with them (R367). -/
def HostOp.isPosted : HostOp → Bool
  | .slotWrite _ _ _ _ | .release _ _ | .barWrite _ _ | .payload _ | .eventsRead _ | .launch _ _ | .await _ _ | .awaitCmd => true
  | _ => false

/-- An access to BAR0: a read stays behind the posted writes before it. -/
def HostOp.isBar (op : HostOp) : Bool := op.isPosted || match op with
  | .barRead _ => true
  | _ => false

/-- A step on an operation of the host, in its turn among those of its kind. -/
def State.onHost (s : State) (k : Nat) (kind : HostOp → Bool) (f : State → HostOp → Option State) : Res :=
  match s.host.ops[k]? with
  | none => .next s
  | some op =>
    if (s.host.ops.take k).any kind then .next s
    else match f { s with host := { s.host with ops := s.host.ops.eraseIdx k } } op with
      | some t => .next t
      | none => .next s

/-- R376, R236: a write of the host window: no sector bit changes, an active headgate record keeps its bytes, and a granule of no
partition discards it. -/
def execHostWindowWrite (k : Nat) (s : State) : Res :=
  s.onHost k HostOp.isWindow fun s op => match op with
    | .windowWrite a bs => some (s.hbmWrite ((placed a bs).filterMap fun b => (s.windowAt b.1).map fun t => (t, b.2)))
    | _ => none

/-! ## Partition pages (R377 to R379) -/

/-- The partition of an index. -/
def State.partAt (s : State) (x : Nat) : Option Part := s.host.parts.find? fun q => q.index == x

/-- The key of a word of a slot. -/
def slotKey (part slot word : Nat) : Nat := (part * 63 + slot) * 16 + word

/-- A word of a slot. -/
def State.slot (s : State) (part slot word : Nat) : Word := Sparse.get 0 s.host.slots (slotKey part slot word)

/-- Writes a word of a slot. -/
def State.setSlot (s : State) (part slot word : Nat) (w : Word) : State :=
  { s with host := { s.host with slots := Sparse.set 0 s.host.slots (slotKey part slot word) w } }

/-- R378: what refuses a slot. -/
def slotBad (ctl res : Word) : Bool :=
  let n := fldw ctl 8 4
  let h := fldw ctl 16 8
  let m := fldw ctl 24 8
  fldw ctl 37 25 != 0 || fldw ctl 12 4 != 0 || fldw ctl 6 2 != 0 || decide (8 < n) || (m &&& h) != m || decide (2 ^ n ≤ h) ||
    fldw res 0 4 != 0 || decide (2 ^ 48 ≤ res.toNat)

/-- R378: a word of a slot as it was when CTL was written. -/
def State.takenWord (s : State) (part slot word : Nat) : Word := Sparse.get 0 s.host.taken (slotKey part slot word)

/-- R378, R211: a slot with GO = 1 is refused, or the proxy invokes; without a free record it waits (R207). -/
def State.runSlot (s : State) (q : Part) (slot : Nat) : State :=
  let w := s.takenWord q.index slot
  let ctl := w 1
  let done := fun (s : State) (h : Word) (err : Bool) =>
    (s.setSlot q.index slot 11 h).setSlot q.index slot 1 (putw (putw ctl 63 1 0) 62 1 (bit err))
  if slotBad ctl (w 10) then done s 0 true
  else
    let p := q.proxy
    match (s.plot p).freeRec with
    | none => s
    | some r =>
      let i : Inv := {
        target := w 0, mc := bitw ctl 36, member := false, method := fldw ctl 0 6, args := (List.range (fldw ctl 8 4)).map fun j => w (2 + j),
        hmask := fldw ctl 16 8, smask := fldw ctl 24 8, pri := if bitw ctl 35 then some (fldw ctl 32 3) else none, caps := [],
        promise := 0, parent := 0, sender := .ofNat 64 (s.plotId p), hops := 0, path := [], tenant := q.tenant, order := s.serial }
      let (h, s) := s.fresh.2.invoke p r (.host (w 10).toNat) i (fun s i => s.route (.plot (s.plotId p)) i)
      done s h false

/-- R378: the words of a slot are taken as they stand. -/
def State.takeWords (s : State) (part slot : Nat) : State :=
  { s with host := { s.host with taken := (List.range 11).foldl (fun m w => Sparse.set 0 m (slotKey part slot w) (s.slot part slot w)) s.host.taken } }

/-- R377, R378: a write of a slot's word; one of CTL with GO = 1 makes the proxy invoke, or refuses the slot. While GO is 1 a write of CTL is
discarded. -/
def State.writeSlot (s : State) (part slot word : Nat) (w : Word) : State :=
  match s.partAt part with
  | none => s
  | some q =>
    if 63 ≤ slot || 11 ≤ word then s
    else if word ≠ 1 then s.setSlot part slot word w
    else if bitw (s.slot part slot 1) 63 then s
    else
      let s := s.setSlot part slot 1 w
      if bitw w 63 then (s.takeWords part slot).runSlot q slot else s

/-- R378, R206, R379: the host gives up a record of its own; a handle that names none is ignored. A result area is written nevertheless. -/
def State.releaseRec (s : State) (part : Nat) (h : Word) : State :=
  match s.partAt part with
  | none => s
  | some q =>
    let p := hPlot h % 2 ^ 20
    if hPlot h / 2 ^ 20 ≠ s.pkg || (s.plot p).tenant ≠ q.tenant then s
    else match (s.plot p).named h with
      | some r => match r.owner with
        | .host res => s.modRec p (hSlot h) fun r => { r with owner := .gone res }
        | _ => s
      | none => s

/-! ## BAR0 (R377, R380, R383, R387) -/

/-- R377: the partition page of an offset of BAR0, and the offset in it. -/
def barPage (off : Nat) : Option (Nat × Nat) :=
  if 0x10000 ≤ off && decide (off < 0x10000 + 0x2000 * 256) then some ((off - 0x10000) / 0x2000, (off - 0x10000) % 0x2000) else none

/-- R380, R383: CMD. A command is taken while GO is 0; a code that names none ends at once, INVALID, and before stage 5 BUSY (log entry 56). -/
def State.writeCmd (s : State) (w : Word) : State :=
  let m := s.host.mailbox
  let code := fldw w 0 16
  if m.go || !bitw w 63 then s
  else
    let known := decide (1 ≤ code) && decide (code ≤ 0x0C)
    { s with host := { s.host with mailbox := { m with
      go := known, code := code, done := !known, status := if known then 0 else if s.stage ≠ 5 then 1 else 2, reply := [] } } }

/-- A posted write of a word of BAR0: CMD, or a partition page; writes elsewhere are ignored. -/
def State.barWrite (s : State) (off : Nat) (w : Word) : State :=
  if off = 0 then s.writeCmd w
  else match barPage off with
    | some (x, o) => if o = 0x1F80 then s.releaseRec x w else if o % 8 = 0 then s.writeSlot x (o / 128) (o % 128 / 8) w else s
    | none => s

/-- A word of BAR0: CMD, STS, STATE, EVLOST, the bytes that a command returned, or a partition page; anything else reads zero. -/
def State.barWord (s : State) (off : Nat) : Word :=
  let m := s.host.mailbox
  if off = 0x000 then .ofNat 64 (bit m.go * 2 ^ 63 + m.code % 2 ^ 16)
  else if off = 0x008 then .ofNat 64 (bit m.done * 2 ^ 63 + m.status % 256)
  else if off = 0x010 then .ofNat 64 s.stage
  else if off = 0x018 then s.host.evq.lost
  else if 0x1000 ≤ off && decide (off < 0x2000) then m.reply.getD ((off - 0x1000) / 8) 0
  else match barPage off with
    | some (x, o) => if (s.partAt x).isSome && decide (o < 63 * 128) then s.slot x (o / 128) (o % 128 / 8) else 0
    | none => 0

/-- R367, R370, R377, R378: the posted writes by which the runtime performs a launch through a free slot of a partition's page: an OREF is invoked,
and plots take one multicast. -/
def launchWrites (part slot : Nat) (l : Launch) : List HostOp :=
  let (target, mc) : Word × Bool := match l.to_ with
    | .object o => (o, false)
    | .plots r => (r, true)
  .slotWrite part slot 0 target :: (l.args.zipIdx.map fun a => HostOp.slotWrite part slot (2 + a.2) a.1) ++
    [.slotWrite part slot 10 0, .slotWrite part slot 1 (.ofNat 64 (2 ^ 63 + bit mc * 2 ^ 36 + l.args.length * 256 + l.chan))]

/-- R367: the runtime's launches, in source order. A slot is waited for before it is used, and after it, so that no launch overtakes one that
waits for a record (R378). -/
def launchAll (part : Nat) (ls : List Launch) : List HostOp :=
  ls.zipIdx.flatMap fun l => .await part (l.2 % 63) :: launchWrites part (l.2 % 63) l.1 ++ [.await part (l.2 % 63)]

/-- R370: the plots that a launch names. -/
def Launch.plots (l : Launch) : List Nat := match l.to_ with
  | .object o => [hPlot o]
  | .plots r => rectPlots r

/-- R367: the plots of other packages that launches name have been loaded, as far as the runtime knows (DEDUCED, log entry 97). -/
def State.loadedElsewhere (s : State) (ls : List Launch) : Bool :=
  (ls.flatMap Launch.plots).all fun p => p / 2 ^ 20 == s.pkg || s.host.ops.contains (.loadedAt (p / 2 ^ 20))

/-- R376: a read of the host window; a granule of no partition reads all ones. A read of BAR0 is answered with its word, one of
configuration space with a free value (R375). -/
def execHostWindowRead (k : Nat) (s : State) : Res :=
  match s.host.ops[k]? with
  | some (.barRead _) => s.onHost k HostOp.isBar fun s op => match op with
    | .barRead off => some { s with host := { s.host with replies := s.host.replies ++ [bytesLE 8 (s.barWord off).toNat] } }
    | _ => none
  | some (.configRead _) => s.onHost k HostOp.isConfig fun s op => match op with
    | .configRead n => some { s with host := { s.host with replies := s.host.replies ++ [bytesLE 4 (Config.configWord n s.host.config).toNat] } }
    | _ => none
  | _ => s.onHost k HostOp.isWindow fun s op => match op with
    | .windowRead a n =>
      let bs : List Byte := (span a n).map fun x => match s.windowAt x with
        | some t => Sparse.get 0 s.mem.hbm t
        | none => 255
      some { s with host := { s.host with replies := s.host.replies ++ [bs] } }
    | _ => none

/-- R378, R380, R387: a posted write of the host: a slot's word, another word of BAR0, or a command's payload, which stays as it is while a
command runs (log entry 56); or event records have been read. The runtime waits for a command that runs, and its launches follow an IMAGE.LOAD that has
succeeded and those of the other packages that they name (R367). A word of
configuration space is written (R375). Numbers beyond the operations name slots that wait for a record. -/
def execHostInvoke (k : Nat) (s : State) : Res :=
  if s.host.ops.length ≤ k then
    let j := k - s.host.ops.length
    match s.partAt (j / 63) with
    | some q => .next (if bitw (s.slot q.index (j % 63) 1) 63 then s.runSlot q (j % 63) else s)
    | none => .next s
  else if (s.host.ops[k]?).any HostOp.isConfig then s.onHost k HostOp.isConfig fun s op => match op with
    | .configWrite n w => some { s with host := { s.host with config := (n, w) :: s.host.config } }
    | _ => none
  else s.onHost k HostOp.isPosted fun s op => match op with
    | .slotWrite part slot word w => some (s.writeSlot part slot word w)
    | .barWrite off w => some (s.barWrite off w)
    | .payload p => some (if s.host.mailbox.go then s else { s with host := { s.host with mailbox := { s.host.mailbox with payload := p } } })
    | .awaitCmd => if s.host.mailbox.go then none else some s
    | .launch part ls =>
      if s.host.mailbox.go || !s.loadedElsewhere ls then none
      else some { s with host := { s.host with
        ops := (if s.host.mailbox.code = 7 && s.host.mailbox.status = 0 then launchAll part ls else []) ++ s.host.ops } }
    | .await part slot => if bitw (s.slot part slot 1) 63 then none else some s
    | .eventsRead n => some { s with host := { s.host with evq := { s.host.evq with unread := s.host.evq.unread - n } } }
    | _ => none

/-- R378, R206: the host gives up a record of its own; a handle that names none is ignored. -/
def execRelease (k : Nat) (s : State) : Res :=
  s.onHost k HostOp.isPosted fun s op => match op with
    | .release part h => some (s.releaseRec part h)
    | _ => none

end Sys2Proof.Machine
end

