-- ==== Sys2Proof/Machine/Lintil.lean ====
section
/-!
DEFINITION. Lintil: the frames that a package receives, acknowledgements, timeouts and failures (13, R297 to R303). Sending
is in Sys2Proof/Machine/Net.lean.
-/

namespace Sys2Proof.Machine

open Sys2Proof

/-- R302: the target RTT of a connection's port. -/
def State.target (s : State) (x : Conn) : Nat := (Sparse.get PortCfg.reset s.link.ports x.port).rtt

/-- R302: the window after an acknowledgement of `b` bytes with a sample `r` against the target `t`. -/
def Conn.sample (x : Conn) (b r t : Nat) : Conn :=
  let srtt := (x.srtt : Int) + Int.tdiv ((r : Int) - x.srtt) 8
  let clamp := fun (w : Nat) => max 4150 (min w (16 * 2 ^ 20))
  let x := { x with srtt := srtt.toNat }
  if r < t then { x with window := clamp (x.window + 4150 * b / x.window), cutLeft := x.cutLeft - b }
  else if x.cutLeft = 0 then
    let w := clamp (x.window - x.window * (r - t) / (2 * r))
    { x with window := w, cutLeft := w }
  else { x with cutLeft := x.cutLeft - b }

/-- R298, R295: chunk credits come back for a channel. -/
def State.credits (s : State) (tenant vch n : Nat) : State :=
  if vch < 16 || n = 0 then s
  else match (List.range 256).find? fun k => (s.comm k).en && (s.comm k).tenant == tenant && (s.comm k).vch == vch with
    | some k => s.modComm k fun c => { c with out := c.out - n }
    | none => s

/-- Sequence numbers modulo 2^32: a is before b. -/
def seqBefore (a b : Nat) : Bool := decide (0 < (b + 2 ^ 32 - a) % 2 ^ 32) && decide ((b + 2 ^ 32 - a) % 2 ^ 32 < 2 ^ 31)

/-- R300, R302: the acknowledgement that a frame carries. -/
def State.ackPart (s : State) (i : Nat) (f : Frame) : State :=
  match s.link.conns[i]? with
  | none => s
  | some x =>
    let c := x.chan f.ach
    let gone := c.unacked.filter fun u => seqBefore u.1 f.ack
    let b : Nat := (gone.map fun (u : Nat × Packet × Nat) => u.2.1.bytes).sum
    let x := x.setChan f.ach { c with unacked := c.unacked.filter fun u => !seqBefore u.1 f.ack }
    let x := if gone.isEmpty then x else { (x.sample b ((s.now % 2 ^ 32 + 2 ^ 32 - f.tse) % 2 ^ 32) (s.target x)) with timeouts := 0 }
    ((s.setConn i x).credits x.tenant f.ach f.cred).drain i

/-- A packet that a flume sends to another package for a copy. -/
def Packet.isPiece (k : Packet) : Bool := match k.body with
  | .copyOut _ _ _ _ | .putsSignal _ _ _ _ _ | .copyAsk _ _ _ _ => true
  | _ => false

/-- R300: a PUTS or a GET moves bytes to or from a package, or signals there. -/
def CopyRun.uses (r : CopyRun) (peer : Nat) : Bool :=
  r.cmd.peer == some peer || (r.cmd.src.peers ++ r.cmd.dst.peers).contains peer || match r.cmd.signal with
    | some (_, l, _) => l.peers.contains peer
    | none => false

/-- R300: the failure of a connection. -/
def State.failConn (s : State) (i : Nat) : State :=
  match s.link.conns[i]? with
  | none => s
  | some x =>
    -- R300: the accesses without an answer, whether or not a frame has acknowledged them, and the other packets that have not arrived; those of
    -- a copy end with it
    let sent := (x.chans.flatMap fun c => c.2.unacked.map fun u => u.2.1).filter fun k => !(k ∈ x.asked)
    let ks := (x.asked ++ sent ++ x.queue).filter fun k => !k.isPiece
    let s := (s.setConn i { x with state := 3, chans := [], queue := [], asked := [] }).hostEvent 3 x.port x.peer
    let s := (ks.flatMap Packet.failed).foldl (fun s k => s.push k) s
    -- the copies and communicators that use the connection
    let s := (List.range 24).foldl (fun s f => ((s.flume f).copies.filter fun r => r.cmd.tenant == x.tenant && r.uses x.peer).foldl
      (fun s r => s.endCopy f r.cmd true) s) s
    (List.range 256).foldl (fun s k =>
      let c := s.comm k
      if c.en && c.tenant == x.tenant && decide (1 < c.n) &&
          (c.pkgAt (c.next c.rank) == x.peer || c.pkgAt ((c.rank + c.n - 1) % c.n) == x.peer) then s.breakComm k 0x06 else s) s

/-- Takes a received frame. -/
def State.takeFrame (s : State) (k : Nat) : State := { s with link := { s.link with rx := s.link.rx.eraseIdx k } }

/-- A frame is dropped and counted. -/
def State.dropFrame (s : State) (k : Nat) : State :=
  let s := s.takeFrame k
  { s with link := { s.link with dropped := s.link.dropped + 1 } }

/-- The connection that a frame names at its receiver. -/
def State.connOf (s : State) (f : Frame) : Option (Conn × Nat) :=
  s.link.conns.zipIdx.find? fun c => c.1.local_ == f.conn && c.1.peer == f.spkg && c.1.tenant == f.ten && decide (c.1.state ≤ 1)

/-- R298, R301: a connection after a frame of it: the frame's TS is the latest received, and the state is the most recently used. -/
def Conn.heard (x : Conn) (f : Frame) (now : Nat) : Conn := { x with lastTse := f.ts, used := now }

/-- A step on a received frame of a kind; a frame without its connection is dropped, one for a spilled state waits (R301). -/
def State.onFrame (s : State) (k kind : Nat) (g : State → Frame → Conn → Nat → State) : Res :=
  match s.link.rx[k]? with
  | none => .next s
  | some f =>
    if f.pause || f.kind ≠ kind then .next s
    else match s.connOf f with
      | none => .next (s.dropFrame k)
      | some (x, i) => if x.spilled then .next s
        else
          let x := x.heard f s.now
          .next (g ((s.takeFrame k).setConn i x) f x i)

/-- R300: the frames a channel keeps beyond the expected one; the spec does not say how many: a free value (log entry 18). -/
def keptFrames : Nat := Config.keptFrames

/-- R303: a packet from another package addresses a plot, memory or a communicator of another tenant than the frame's. -/
def State.foreignTo (s : State) (m : Packet) : Bool :=
  m.tenant != 0 && match m.dst, m.body with
    -- R22: what a service block is sent comes by way of its gateway plot; it addresses an object
    | _, .dirMap old _ _ => !(s.plot (hPlot old % 2 ^ 20)).takes m.tenant
    | .plot id, _ => !(s.plot (id % 2 ^ 20)).takes m.tenant
    | _, _ => match m.body with
      | .acc a => !s.owns m.tenant a.addr
      | .copyOut _ _ bs _ => !bs.all fun b => s.owns m.tenant b.1
      | .copyAsk _ _ _ as => !as.all (s.owns m.tenant)
      | .putsSignal _ _ _ t _ => !s.owns m.tenant t
      | .gate q => !s.owns m.tenant q.target
      | .chunk c => !(List.range 256).any fun k => (s.comm k).en && (s.comm k).tenant == m.tenant && (s.comm k).vch == c.vch
      | .breakNotice vch _ => !(List.range 256).any fun k => (s.comm k).en && (s.comm k).tenant == m.tenant && (s.comm k).vch == vch
      | _ => false

/-- R303, R21: what the sender sees of a packet that a port drops. -/
def State.refused (s : State) (m : Packet) : State :=
  match m.body with
  | .acc a => s.reply m a.who .reject
  | .gate q => s.reply m q.who .reject
  | .inv i => s.breakOwn m.dst i 0x02
  | .copyOut f w _ _ | .putsSignal f w _ _ _ => s.push ⟨.rsp, m.dst, m.src, m.tenant, .copyAck f w false⟩
  | .copyAsk f w pos _ => s.push ⟨.rsp, m.dst, m.src, m.tenant, .copyIn f w pos none⟩
  | _ => s

/-- R303: a port delivers a packet of a frame of a tenant, or drops and counts it. -/
def State.portTake (s : State) (port tenant : Nat) (m : Packet) : State :=
  let m := { m with tenant := tenant }.entering s.pkg
  if s.foreignTo m then
    ({ s with link := { s.link with mismatch := Sparse.set 0 s.link.mismatch port (Sparse.get 0 s.link.mismatch port + 1) } } : State).refused m
  else s.pushLocal m

/-- R300: the access that an answer ends; an acceptance is not the last (R344). -/
def Conn.answered (x : Conn) (m : Packet) : Conn :=
  match m.body with
  | .rsp w r => if r = .accept then x
    else { x with asked := x.asked.filter fun k => match k.body with
      | .acc a => a.who != w
      | _ => true }
  | _ => x

/-- R299: the frames of a channel that have come in SEQ order; the first argument bounds those that were kept. -/
def inOrder : Nat → Channel → List Packet × Channel
  | 0, c => ([], c)
  | n + 1, c =>
    match c.kept.find? fun e => e.1 == c.recvSeq with
    | some e =>
      let (ms, c) := inOrder n { c with recvSeq := (c.recvSeq + 1) % 2 ^ 32, kept := c.kept.erase e }
      (e.2 :: ms, c)
    | none => ([], c)

/-- R300: a cumulative acknowledgement of a channel. -/
def State.sendAck (s : State) (i ch : Nat) : State :=
  match s.link.conns[i]? with
  | some x => (s.setConn i (x.acked ch)).transmit (s.frame x 1 ch 0 none)
  | none => s

/-- R298 to R300: a data frame. -/
def execLintilData (k : Nat) (s : State) : Res :=
  s.onFrame k 0 fun s f _ i =>
    let s := s.ackPart i f
    match s.link.conns[i]?, f.body with
    | some x, some m =>
      let c := x.chan f.ch
      if f.seq = c.recvSeq then
        let (ms, c) := inOrder (c.kept.length) { c with recvSeq := (c.recvSeq + 1) % 2 ^ 32 }
        let s := s.setConn i ((m :: ms).foldl Conn.answered (x.setChan f.ch c))
        let s := (m :: ms).foldl (·.portTake x.port f.ten ·) s
        if 8 ≤ (c.recvSeq + 2 ^ 32 - c.ackSeq) % 2 ^ 32 then s.sendAck i f.ch else s
      else if seqBefore f.seq c.recvSeq then s.sendAck i f.ch
      else if c.kept.length < keptFrames then
        s.setConn i (x.setChan f.ch { c with kept := if c.kept.any fun e => e.1 == f.seq then c.kept else c.kept ++ [(f.seq, m)] })
      else (s.setConn i (x.acked f.ch)).transmit (s.frame x 2 f.ch c.recvSeq none)
    | _, _ => s

/-- R300, R302: an acknowledgement. -/
def execLintilAck (k : Nat) (s : State) : Res := s.onFrame k 1 fun s f _ i => s.ackPart i f

/-- R298, R300: a frame is sent again. It acknowledges, and returns the credits that are due, as a first one does. -/
def State.sendAgain (s : State) (i ch seq : Nat) (m : Packet) : State :=
  match s.link.conns[i]? with
  | some x => (s.setConn i (x.acked ch)).transmit (s.frame x 0 ch seq (some m))
  | none => s

/-- R300: frames of a channel from a sequence number on are sent again. -/
def State.resendFrom (s : State) (i ch : Nat) (from_ : Nat) : State :=
  match s.link.conns[i]? with
  | none => s
  | some x =>
    let c := x.chan ch
    let again := c.unacked.filter fun u => !seqBefore u.1 from_
    let s := s.setConn i (x.setChan ch { c with unacked := c.unacked.map fun u => if seqBefore u.1 from_ then u else (u.1, u.2.1, s.now) })
    again.foldl (fun s u => s.sendAgain i ch u.1 u.2.1) s

/-- R298, R300: a nack, with the acknowledgement that every frame carries. -/
def execLintilNack (k : Nat) (s : State) : Res := s.onFrame k 2 fun s f _ i => (s.ackPart i f).resendFrom i f.ch f.seq

/-- R299, R301: an open frame: the connection of the peer and tenant opens, if there is a route and room; otherwise it is refused
by a close. The index that the sender gives the connection is in SEQ, and CONN is 0 (DESIGN CHOICE, log entry 109). One for a spilled state waits (R301). -/
def execLintilOpen (k : Nat) (s : State) : Res :=
  match s.link.rx[k]? with
  | none => .next s
  | some f =>
    if f.pause || f.kind ≠ 3 then .next s
    else
      match s.link.conns.zipIdx.find? fun c => c.1.peer == f.spkg && c.1.tenant == f.ten && decide (c.1.state ≤ 1) && c.1.spilled with
      | some _ => .next s
      | none =>
      let s := s.takeFrame k
      let ack := fun (s : State) (x : Conn) => s.transmit { s.frame x 4 0 0 none with conn := f.seq, seq := x.local_ }
      match s.link.conns.zipIdx.find? fun c => c.1.peer == f.spkg && c.1.tenant == f.ten && decide (c.1.state ≤ 1) with
      | some (x, i) =>
        let x := { x.heard f s.now with remote := f.seq, state := 1 }
        .next ((ack (s.setConn i x) x).drain i)
      | none =>
        let refuse := s.transmit {
          kind := 5, spkg := s.pkg, dpkg := f.spkg, ten := f.ten, conn := f.seq, ch := 0, seq := 0, ack := 0, ach := 0,
          ts := s.now % 2 ^ 32, tse := f.ts, cred := 0, len := 0, body := none, pause := false }
        match s.link.routes.find? fun r => r.1 == f.spkg with
        | none => .next refuse
        | some (_, port) =>
          match s.connRoom port with
          | none => .next refuse
          | some s =>
            let x : Conn := {
              peer := f.spkg, tenant := f.ten, port := port, state := 1, local_ := s.freeConn, remote := f.seq, chans := [], queue := [],
              turn := 0, asked := [],
              window := 65536, srtt := (Sparse.get PortCfg.reset s.link.ports port).rtt, cutLeft := 0, timeouts := 0,
              lastTse := f.ts, spilled := false, used := s.now, place := 0, asking := 0 }
            .next (ack { s with link := { s.link with conns := s.link.conns ++ [x] } } x)

/-- R299: an open-ack completes an opening; what waits leaves. -/
def execLintilOpenAck (k : Nat) (s : State) : Res :=
  s.onFrame k 4 fun s f x i => (s.setConn i { x with remote := f.seq, state := 1, lastTse := f.ts }).drain i

/-- R299, R301: a close frame ends a connection, or refuses one that was opening: what had not been acknowledged fails. -/
def execLintilClose (k : Nat) (s : State) : Res := s.onFrame k 5 fun s _ _ i => s.failConn i

/-- R297: a PAUSE or PFC frame is discarded. -/
def execPauseFrameReceive (k : Nat) (s : State) : Res :=
  match s.link.rx[k]? with
  | some f => if f.pause then .next (s.takeFrame k) else .next s
  | none => .next s

/-- R298: a frame of no known kind is dropped and counted. -/
def execLintilUnknownKind (k : Nat) (s : State) : Res :=
  match s.link.rx[k]? with
  | some f => if !f.pause && decide (5 < f.kind) then .next (s.dropFrame k) else .next s
  | none => .next s

/-- R300: at least every 6,000 cc the receiver acknowledges what it has received, and returns credits. -/
def execAckTimer (k : Nat) (s : State) : Res :=
  match s.link.conns[k]? with
  | none => .next s
  | some x =>
    if x.state ≠ 1 || x.spilled then .next s
    else
      let due := x.chans.filter fun c => c.2.recvSeq != c.2.ackSeq || c.2.cred != 0
      .next (due.foldl (fun s c => s.sendAck k c.1) s)

/-- R300: the cycle at which the oldest unacknowledged frame of a connection was sent. -/
def Conn.oldest (x : Conn) : Option Nat :=
  (x.chans.flatMap fun c => c.2.unacked.map fun u => u.2.2).foldl (fun b t => match b with
    | none => some t
    | some a => some (min a t)) none

/-- R300: a timeout of 8 times the target RTT: frames are sent again from the oldest on; the sixteenth in a row fails the
connection. A connection that is opening sends its open frame again. -/
def execRetransmitTimeout (k : Nat) (s : State) : Res :=
  match s.link.conns[k]? with
  | none => .next s
  | some x =>
    let t := if x.state = 0 then some x.asking else if x.state = 1 then x.oldest else none
    match t with
    | none => .next s
    | some t =>
      if s.now < t + 8 * s.target x || x.spilled then .next s
      else if 15 ≤ x.timeouts then .next (s.failConn k)
      else
        let s := s.setConn k { x with timeouts := x.timeouts + 1, asking := s.now }
        if x.state = 0 then .next (s.transmit { s.frame x 3 0 0 none with conn := 0, seq := x.local_ })
        else .next (x.chans.foldl (fun s c => match c.2.unacked with
          | u :: _ => s.resendFrom k c.1 u.1
          | [] => s) s)

/-- R301: a state is on its way to the host area. -/
def State.spilling (s : State) (x : Conn) : Bool := match s.link.spillArea with
  | some (area, _) => s.link.spills.any fun e => e.1 == area + 256 * x.place
  | none => false

/-- R301: a spilled connection state comes back, into a free place of the cache or that of the least recently used. -/
def execConnectionStateFetch (k : Nat) (s : State) : Res :=
  match s.link.conns[k]? with
  | none => .next s
  | some x =>
    if !x.spilled || s.spilling x then .next s
    else match (s.setConn k { x with spilled := false, used := s.now, state := 2 }).connRoom x.port with
      | none => .next s
      | some t => .next ((t.setConn k { x with spilled := false, used := s.now }).drain k)

end Sys2Proof.Machine
end

