-- ==== Sys2Proof/Machine/Sha.lean ====
section
/-!
DEFINITION. SHA-384 (17, R384, R385). The spec names the function, which FIPS 180-4 defines (PRESUMED, log entry 78). Its constants are computed
from what the standard says they are: fractional bits of roots of primes.
-/

namespace Sys2Proof.Machine

open Sys2Proof

/-- The primes below 410: the first 80. -/
def smallPrimes : List Nat := (List.range 410).filter fun p => decide (1 < p) && (List.range 19).all fun d => p % (d + 2) != 0 || p == d + 2

/-- The first 64 fractional bits of the root of degree `k` of a number below 2^9, found bit by bit. -/
def rootBits (k p : Nat) : Word :=
  .ofNat 64 ((List.range 70).foldr (fun i r => if (r + 2 ^ i) ^ k ≤ p * 2 ^ (64 * k) then r + 2 ^ i else r) 0)

/-- The exclusive or of the rotations of a word to the right. -/
def turned (x : Word) (rs : List Nat) : Word := rs.foldl (fun y r => y ^^^ x.rotateRight r) 0

/-- The next word of the schedule, from the last sixteen. -/
def nextWord (ws : List Word) : Word :=
  let mix := fun (i r q n : Nat) => let x := ws.getD i 0; turned x [r, q] ^^^ x >>> n
  ws.getD 0 0 + mix 1 1 8 7 + ws.getD 9 0 + mix 14 19 61 6

/-- The eight working words after a round that adds `t` in. -/
def hashRound (t : Word) : List Word → List Word
  | [a, b, c, d, e, f, g, h] =>
    let t := t + h + turned e [14, 18, 41] + (g ^^^ (e &&& (f ^^^ g)))
    [t + turned a [28, 34, 39] + ((a &&& (b ||| c)) ||| (b &&& c)), a, b, c, d + t, e, f, g]
  | other => other

/-- A block: 80 rounds, one for each prime, over a schedule of which the last sixteen words are kept; then the words before it are added. -/
def hashBlock (xs ws : List Word) : List Word :=
  let r := smallPrimes.foldl (fun (s : List Word × List Word) p =>
    (hashRound (rootBits 3 p + s.2.getD 0 0) s.1, s.2.drop 1 ++ [nextWord s.2])) (xs, ws)
  List.zipWith (· + ·) xs r.1

/-- The number that bytes make, the first the most significant. -/
def numBE (bs : List Byte) : Nat := bs.foldl (fun a b => 256 * a + b.toNat) 0

/-- A number as bytes, the first the most significant. -/
def bytesBE (n a : Nat) : List Byte := (bytesLE n a).reverse

/-- R384: SHA-384 of a list of bytes, its first byte the most significant. The message is followed by a bit 1, by zeros, and by its length in bits
in 16 bytes, which ends a block of 128 bytes. -/
def sha384 (bs : List Byte) : BitVec 384 :=
  let m := bs ++ 0x80 :: List.replicate ((239 - bs.length % 128) % 128) 0 ++ bytesBE 16 (8 * bs.length)
  let word := fun (i : Nat) => (BitVec.ofNat 64 (numBE ((m.drop (8 * i)).take 8)) : Word)
  let out := (List.range (m.length / 128)).foldl (fun xs b => hashBlock xs ((List.range 16).map fun i => word (16 * b + i)))
    (((smallPrimes.drop 8).take 8).map (rootBits 2))
  .ofNat 384 ((out.take 6).foldl (fun n x => n * 2 ^ 64 + x.toNat) 0)

/-- The 48 bytes of a digest, in order. -/
def digestBytes (d : BitVec 384) : List Byte := bytesBE 48 d.toNat

end Sys2Proof.Machine
end

