-- ==== Sys2Proof/Machine/Manage.lean ====
section
/-!
DEFINITION. The management mailbox (17, R380 to R382, R384, R386, R387, R389; 13, R288).
-/

namespace Sys2Proof.Machine

open Sys2Proof

/-! ## The mailbox (R380) -/

/-- R380: the status codes. -/
inductive MStatus where
  | ok | busy | invalid | noResource | denied
  deriving DecidableEq, Repr

/-- R380 -/
def MStatus.code : MStatus → Nat
  | .ok => 0 | .busy => 1 | .invalid => 2 | .noResource => 3 | .denied => 4

/-- A command ends: DONE, the status, and the bytes it returns. -/
def State.mgmtEnd (s : State) (st : MStatus) (reply : List Word) : State :=
  { s with host := { s.host with mailbox := { s.host.mailbox with go := false, done := true, status := st.code, reply := reply } } }

/-- A step of Damkar on the command of the mailbox, if it has the code; before stage 5 it answers BUSY (R383). -/
def State.mgmt (s : State) (code : Nat) (f : State → Payload → Option State) : Res :=
  let m := s.host.mailbox
  if !m.go || m.code ≠ code then .next s
  else if s.stage ≠ 5 then .next (s.mgmtEnd .busy [])
  else match f s m.payload with
    | some t => .next t
    | none => .next (s.mgmtEnd .invalid [])

/-- A partition of the package. -/
def State.part (s : State) (tenant : Nat) : Option Part := s.host.parts.find? fun q => q.tenant == tenant

/-- R380, R201: a command that changes a partition may act: the partition is not in deterministic mode, or all its plots, those of other packages
among them, have ended their quantum. -/
def State.atBoundary (s : State) (q : Part) : Bool := !bitw q.detctl 0 || ((q.plots.all fun p => decide (p ∈ q.endedPlots)) && s.quantumQuiet q && s.endedElsewhere q)

/-- A command on a partition at its quantum boundary; before that it waits. -/
def State.onPart (s : State) (tenant : Nat) (f : Part → State) : State :=
  match s.part tenant with
  | none => s.mgmtEnd .invalid []
  | some q => if s.atBoundary q then f q else s

/-! ## Change of owner (R382) -/

/-- R382: a plot after a change of owner. What the table does not name keeps its value, the tasks' own things aside. -/
def Plot.handOver (x : Plot) (tenant : Nat) (cistern pcont : Word) : Plot :=
  { x with
    tenant := tenant, ctxs := [], bufs := { Bufs.reset with rebuilding := x.bufs.rebuilding, corrections := x.bufs.corrections }
    inq := [], outq := [], chans := [], queues := [], outbox := [], objs := [], records := [], tiles := [], groups := []
    engine := ⟨none, []⟩, divBusy := none, utlb := [], xreq := []
    csr := { x.csr with cistern := cistern, pcont := pcont, detctl := 0, detq := 4096 }
    sched := { x.sched with last := [], images := [], places := [], spilling := none, lastSpillFull := none, retired := 0, ended := false, floorWaiter := none } }

/-- R382: HBM granules after a change of owner: zero, every sector full. -/
def Memory.zeroGranules (m : Memory) (gs : List Nat) : Memory :=
  { m with
    hbm := m.hbm.filter fun e => !decide (e.1 / 2 ^ 30 ∈ gs)
    fe := m.fe.filter fun e => !decide (e.1 * 64 / 2 ^ 30 ∈ gs)
    bad := m.bad.filter fun e => !decide (e.1 * 8 / 2 ^ 30 ∈ gs)
    gate := m.gate.filter fun e => !decide (e.1 * 64 / 2 ^ 30 ∈ gs) }

/-- The tenant of an invocation or message held by an agent is the tenant of its plot. -/
def AgentEnt.at_ : AgentEnt → Nat
  | .chan p _ _ => p % 2 ^ 20
  | .record h _ _ => hPlot h % 2 ^ 20
  | .object o _ => hPlot o % 2 ^ 20

/-- R382: what a field service block holds for plots or for a tenant goes. -/
def Field.handOver (f : Field) (plots : List Nat) (tenant : Nat) : Field :=
  let mine := fun (p : Nat) => decide (p % 2 ^ 20 ∈ plots)
  let pools := (List.range 64).filter fun q => (f.weir.cfg q).owner == tenant && tenant != 0
  { f with
    tlb := f.tlb.filter fun e => e.tenant != tenant
    regions := f.regions.filter fun r => r.tenant != tenant
    agent := f.agent.filter fun e => !mine e.at_
    dir := f.dir.filter fun d => !mine (hPlot d.1) && !mine (hPlot d.2)
    barriers := f.barriers.filter fun b => b.waiters.all fun w => !mine w.plot
    weir := { f.weir with
      cfgs := pools.foldl (fun m q => Sparse.set PoolCfg.reset m q PoolCfg.reset) f.weir.cfgs
      shards := pools.foldl (fun m q => Sparse.set Shard.reset m q Shard.reset) f.weir.shards
      takes := f.weir.takes.filter fun t => !decide (t.pool ∈ pools)
      pending := f.weir.pending.filter fun t => !decide (t.pool ∈ pools) } }

/-- R382: plots and granules change owner; `cis` gives a plot's CISTERN. What the old owner still had waiting on them goes. -/
def State.handOver (s : State) (plots granules : List Nat) (old new : Nat) (cis : Nat → Word) (pcont : Word) : State :=
  let s := plots.zipIdx.foldl (fun s p => s.modPlot p.1 fun x => x.handOver new (cis p.2) pcont) s
  let gone := fun (t : Nat) => decide (t / 2 ^ 30 ∈ granules)
  let comms := s.comms.filter fun c => c.2.tenant != old || old == 0
  { s with
    mem := s.mem.zeroGranules granules
    gateQ := s.gateQ.filter fun g => !gone g.target
    parked := s.parked.filter fun e => !gone e.1.addr
    parkedPort := s.parkedPort.filter fun e => !decide (e.2.1 ∈ plots)
    fields := (List.range 16).foldl (fun m k =>
      Sparse.set Field.reset m k ((Sparse.get Field.reset m k).handOver plots old)) s.fields
    comms := comms
    insts := s.insts.filter fun i => comms.any fun c => c.1 == i.comm
    recLogs := s.recLogs.filter fun l => !decide (l.1 / 4096 ∈ plots)
    started := s.started.filter fun l => !decide (l.1 ∈ plots)
    sluices := s.sluices.map fun (x : Nat × Sluice) => (x.1, { x.2 with
      log := x.2.log.filter fun e => comms.any fun c => c.1 == e.comm
      taken := x.2.taken.filter fun t => comms.any fun c => c.1 == t.comm })
    deferred := s.deferred.filter fun d => d.packet.tenant != old || old == 0
    host := { s.host with
      granules := granules.foldl (fun m g => Sparse.set 0 m g new) s.host.granules
      windows := s.host.windows.filter fun w => match w.2 with
        | some (_, t) => t != old || old == 0
        | none => false } }

/-- R3, R380: a rectangle of plots within one field. -/
def rectIn (r : Nat × Nat × Nat × Nat × Nat) : Bool :=
  let (f, row, col, h, w) := r
  decide (f < 16) && decide (0 < h) && decide (0 < w) && decide (row + h ≤ 192) && decide (col + w ≤ 216)

/-- R381: a list without repeats. -/
def noRepeat (l : List Nat) : Bool := l.eraseDups.length == l.length

/-- R380, R381, R382: PART.CREATE. -/
def execPartCreate (s : State) : Res :=
  s.mgmt 0x01 fun s p => match p with
    | .create tenant packages rects granules slots base proxy pcont =>
      let index := ((List.range 256).find? fun i => (s.partAt i).isNone).getD 256
      let q : Part := {
        index := index, tenant := tenant, packages := packages, rects := rects, granules := granules, cisternSlots := slots, cisternBase := base,
        proxy := proxy, pcont := keepBits pcont 7, detctl := 0, detq := 4096, dying := none, endedPlots := [], quantum := 0, told := false, segments := [] }
      let plots := q.plots
      let cisBytes := plots.length * slots * 1536
      if tenant = 0 || decide (65535 < tenant) || (s.part tenant).isSome || packages.isEmpty || decide (256 < packages.length) || !noRepeat packages ||
          !decide (s.pkg ∈ packages) || decide (64 < rects.length) || !rects.all rectIn || decide (4095 < slots) || base % 64 ≠ 0 ||
          !granules.all (fun g => decide (g < 576)) || !(cisBytes = 0 || (span (base / 2 ^ 30) ((base + cisBytes - 1) / 2 ^ 30 - base / 2 ^ 30 + 1)).all fun g => decide (g ∈ granules)) then
        some (s.mgmtEnd .invalid [])
      else if (proxy :: plots).any (fun p => (s.plot p).tenant != 0) || granules.any (fun g => Sparse.get 0 s.host.granules g != 0) then
        some (s.mgmtEnd .denied [])
      else if !decide (proxy ∈ plots) then some (s.mgmtEnd .invalid [])
      else if 256 ≤ index then some (s.mgmtEnd .noResource [])
      else
        let cis := fun (i : Nat) => Word.ofNat64 (slots * 2 ^ 52 + (base + i * slots * 1536))
        let s := s.handOver plots granules 0 tenant cis q.pcont
        some ({ s with host := { s.host with parts := s.host.parts ++ [q] } }.mgmtEnd .ok [.ofNat 64 index])
    | _ => none
where Word.ofNat64 (a : Nat) : Word := .ofNat 64 a

/-- R382: a copy, a collective or a connection of a partition is still open. A connection with nothing on its way is not waited
for. -/
def State.openOf (s : State) (tenant : Nat) : Bool :=
  (s.net.any fun m => match m.body with
    | .copy c _ => c.tenant == tenant
    | .copyOut _ _ _ _ | .putsSignal _ _ _ _ _ | .copyAsk _ _ _ _ => m.tenant == tenant
    | _ => false) ||
  ((List.range 24).any fun f => ((s.flume f).copies.any fun r => r.cmd.tenant == tenant) || (s.flume f).waiting.any fun c => c.tenant == tenant) ||
  (s.insts.any fun i => i.status == 0 && (s.comm i.comm).tenant == tenant) ||
  s.link.conns.any fun c => c.tenant == tenant && decide (c.state ≤ 1) && (!c.queue.isEmpty || c.chans.any fun h => !h.2.unacked.isEmpty)

/-- R299: the open connections of a tenant are closed. -/
def State.closeConns (s : State) (tenant : Nat) : State :=
  s.link.conns.zipIdx.foldl (fun s c =>
    if c.1.tenant = tenant && decide (c.1.state ≤ 1) then
      (s.transmit { s.frame c.1 5 0 0 none with conn := c.1.remote }).setConn c.2 { c.1 with state := 2 }
    else s) s

/-- R382: PART.DESTROY waits for what is open, and then hands the partition's things back. -/
def execPartDestroy (s : State) : Res :=
  s.mgmt 0x02 fun s p => match p with
    | .destroy tenant =>
      some (s.onPart tenant fun q =>
        if s.openOf tenant then s.modPart tenant fun q => { q with dying := some (q.dying.getD s.now) }
        else
          let s := s.closeConns tenant
          let s := s.handOver q.plots q.granules tenant 0 (fun _ => 0) 0
          let slots := s.host.slots.filter fun e => e.1 / 16 / 63 != q.index
          let taken := s.host.taken.filter fun e => e.1 / 16 / 63 != q.index
          { s with host := { s.host with parts := s.host.parts.filter fun r => r.tenant != tenant, slots := slots, taken := taken } }.mgmtEnd .ok [])
    | _ => none

/-- R382, R300: after 2^26 cc PART.DESTROY fails what is still open. -/
def execPartDestroyTimeout (s : State) : Res :=
  s.mgmt 0x02 fun s p => match p with
    | .destroy tenant =>
      match (s.part tenant).bind (·.dying) with
      | none => some s
      | some t =>
        if s.now < t + 2 ^ 26 then some s
        else
          let s := (List.range 24).foldl (fun s f =>
            let waiting := (s.flume f).waiting.filter fun c => c.tenant == tenant
            let s := s.modFlume f fun x => { x with waiting := x.waiting.filter fun c => c.tenant != tenant }
            let s := waiting.foldl (fun s c => (s.flumeSays f c.tenant c.who (.rsp c.who (.words [.ofNat 64 s.now] 0))).flumeSays f c.tenant c.who
              (.copyDone c.who true)) s
            ((s.flume f).copies.filter fun r => r.cmd.tenant == tenant).foldl (fun s r => s.endCopy f r.cmd true) s) s
          let s := s.comms.foldl (fun s c => if c.2.tenant = tenant && c.2.en then s.breakComm c.1 0x06 else s) s
          some (s.link.conns.zipIdx.foldl (fun s c => if c.1.tenant = tenant && decide (c.1.state ≤ 1) then s.failConn c.2 else s) s)
    | _ => none

/-- R380, R201: PART.SETDET. -/
def execPartSetdet (s : State) : Res :=
  s.mgmt 0x03 fun s p => match p with
    | .setDet tenant c q => some (s.onPart tenant fun _ => (s.setDet tenant (keepBits c 3) (keepBits q 0xFFFFF)).mgmtEnd .ok [])
    | _ => none

/-- R380, R317: PART.SETCONT. -/
def execPartSetcont (s : State) : Res :=
  s.mgmt 0x04 fun s p => match p with
    | .setCont tenant w => some (s.onPart tenant fun q =>
        let w := keepBits w 7
        let s := s.modPart tenant fun q => { q with pcont := w }
        (q.plots.foldl (fun s p => s.modPlot p fun x => { x with csr := { x.csr with pcont := w } }) s).mgmtEnd .ok [])
    | _ => none

/-- R288, R380: COMM.SET. An entry that a partition has set stays its own, with EN = 0 too, until PART.DESTROY (R382). -/
def execCommSet (s : State) : Res :=
  s.mgmt 0x05 fun s p => match p with
    | .commSet tenant id entry members locals =>
      some (s.onPart tenant fun _ =>
        let en := bitw entry 63
        let npk := fldw entry 48 8
        let vch := fldw entry 32 8
        let rank := fldw entry 8 8
        let old := s.comm id
        let rising := (locals.zip locals.tail).all fun x => decide (logical (x.1 % 2 ^ 20) < logical (x.2 % 2 ^ 20))
        if 256 ≤ id || members.length ≠ npk + 1 || locals.length ≠ fldw entry 0 6 + 1 || !rising || vch < 16 || members[rank]? ≠ some s.pkg ||
            !locals.all (fun l => l / 2 ^ 20 == s.pkg && plotOk (l % 2 ^ 20)) then s.mgmtEnd .invalid []
        else if (old.tenant != 0 && old.tenant != tenant) || locals.any (fun l => (s.plot (l % 2 ^ 20)).tenant != tenant) then s.mgmtEnd .denied []
        else if en && s.comms.any fun c => c.1 != id && c.2.en && c.2.tenant == tenant && c.2.vch == vch then s.mgmtEnd .invalid []
        else (({ s with insts := s.insts.filter fun i => i.comm != id }.dropTaken fun t => t.comm == id).modComm id fun c => { c with
          en := en, urg := bitw entry 62, brk := false, bcause := 0, npk := npk, vch := vch, seq := 0, rank := rank, members := members,
          locals := locals, tenant := tenant, out := 0, staged := [], reqs := [] }).mgmtEnd .ok [])
    | _ => none

/-- R376: WINDOW.MAP; tenant 0 takes the granule of the window from its partition. -/
def execWindowMap (s : State) : Res :=
  s.mgmt 0x06 fun s p => match p with
    | .windowMap granule hbm tenant =>
      let set := fun (w : Option (Nat × Nat)) =>
        { s with host := { s.host with windows := Sparse.set none s.host.windows granule w } }.mgmtEnd .ok []
      if hbm % 2 ^ 30 ≠ 0 || Config.hbmBytes ≤ hbm then some (s.mgmtEnd .invalid [])
      else if tenant = 0 then
        some (match Sparse.get none s.host.windows granule with
          | some (_, t) => s.onPart t fun _ => set none
          | none => set none)
      else
        -- a granule of the window that another partition owns
        let foreign := match Sparse.get none s.host.windows granule with
          | some (_, t) => t != tenant
          | none => false
        some (s.onPart tenant fun _ => if s.owner hbm ≠ tenant || foreign then s.mgmtEnd .denied [] else set (some (hbm, tenant)))
    | _ => none

/-- R321, R369: the OBJENT word of an image's object. -/
def objWord (o : Nat × Nat × Option Nat) : Word :=
  let (_, gen, cont) := o
  .ofNat 64 (2 ^ 63 + 2 ^ 62 + (match cont with | some a => 2 ^ 61 + a % 4 * 2 ^ 59 | none => 0) + gen % 4096)

/-- R367: the image is loaded onto a plot. -/
def State.loadImage (s : State) (p : Nat) (img : Image) : State :=
  let s := s.modPlot p fun x => { x with
    istore := Sparse.setN 0 x.istore 0 img.text
    istoreBad := (List.range img.text.length).foldl (fun m i => Sparse.set false m i false) x.istoreBad
    bufs := (x.bufs.writeEngine 0 (placed 0 img.abuf)).writeEngine 1 (placed 0 img.wbuf) }
  let s := img.objs.foldl (fun s o => s.writeObjent p o.1 (objWord o)) s
  img.chans.foldl (fun s c => s.writeChent p c.1 (c.2.setWidth 64)) s

/-- R384: measurement 5 takes in the digest of an image. -/
def State.extend5 (s : State) (bytes : List Byte) : State :=
  let old := Sparse.get 0 s.host.meas 5
  let h := sha384 (digestBytes old ++ digestBytes (sha384 bytes))
  { s with host := { s.host with meas := (s.host.meas.filter fun e => e.1 != 5) ++ [(5, h)] } }

/-- R367: where the bytes of an image's DATA segment go: through the translations of a plot, each to HBM or to host memory; none where one has
no such place. -/
def State.segmentAt (s : State) (p : Nat) (img : Image) : Option (List (Bool × Nat × Byte)) :=
  (placed img.data.1 img.data.2).mapM fun b => (s.service p b.1).bind fun e =>
    if e.ty = 0 then some (true, e.target_ b.1, b.2) else if e.ty = 2 then some (false, e.target_ b.1, b.2) else none

/-- R367: the DATA segment of an image is loaded, once per partition. -/
def State.loadSegment (s : State) (tenant : Nat) (img : Image) (at_ : List (Bool × Nat × Byte)) : State :=
  let s := s.hbmWrite ((at_.filter (·.1)).map (·.2))
  let s := s.hostWrite ((at_.filter (!·.1)).map (·.2))
  s.modPart tenant fun q => { q with segments := q.segments ++ [img.data] }

/-- R367: the plots of this package that the launches of an image name. -/
def Image.plots (img : Image) (pkg : Nat) : List Nat :=
  ((img.launches.flatMap Launch.plots).filter fun p => p / 2 ^ 20 == pkg).eraseDups.map (· % 2 ^ 20)

/-- R367: what the runtime has this package do with an image: load it on the plots that its launches name, and then send the launches. -/
def runtime (pkg part tenant : Nat) (img : Image) : List HostOp :=
  [.awaitCmd, .payload (.imageLoad tenant img (img.plots pkg)), .barWrite 0 (.ofNat 64 (2 ^ 63 + 7)), .launch part img.launches]

/-- R380, R367, R384: IMAGE.LOAD. -/
def execImageLoad (s : State) : Res :=
  s.mgmt 0x07 fun s p => match p with
    | .imageLoad tenant img plots =>
      some (s.onPart tenant fun q =>
        if 2048 < img.text.length || 0x4000 < img.abuf.length || 0x8000 < img.wbuf.length || !img.objs.all (fun o => decide (o.1 < 16)) ||
            !img.chans.all (fun c => decide (c.1 < 64)) || !plots.all plotOk then s.mgmtEnd .invalid []
        else if plots.any fun p => (s.plot p).tenant != tenant then s.mgmtEnd .denied []
        else
          let load := fun (s : State) => ((plots.foldl (fun s p => s.loadImage p img) s).extend5 img.bytes).mgmtEnd .ok []
          if img.data.2.isEmpty || q.segments.contains img.data then load s
          else match plots.head?.bind fun p => s.segmentAt p img with
            | none => s.mgmtEnd .invalid []
            | some at_ => load (s.loadSegment tenant img at_))
    | _ => none

/-! ## RESYNC (R386) -/

/-- The owner of a record as a summary gives it: 1 and the TASKID, 2 for the host, 0. -/
def Owner.fields : Owner → List Nat
  | .task id => [1, id]
  | .host _ => [2, 0]
  | .gone _ | .none => [0, 0]

/-- The kind of a hold, as a summary numbers it, with what it names. -/
def HoldKind.fields : HoldKind → List Nat
  | .access f => [1, f.code]
  | .await => [2]
  | .acquire va _ excl => [3, va.toNat, bit excl]
  | .gate va => [4, va.toNat]
  | .handover => [5]
  | .bind => [6]
  | .pool => [7]
  | .take => [8]
  | .flume _ _ _ => [9]
  | .coll => [10]
  | .collw => [11]
  | .barrier => [12]
  | .sleep wake => [13, wake]
  | .follow => [14]
  | .tlbinv => [15]
  | .objhome => [16]
  | .pcfg => [17]
  | .put => [18]

/-- Why an instruction does not issue, as a summary numbers it, with what it waits for. -/
def Wait.fields : Wait → List Nat
  | .source r => [32, r]
  | .word b i => [33, b, i]
  | .multi r => [34, r]
  | .dest r => [35, r]
  | .port d => [36, d]
  | .divider => [37]
  | .engine => [38]
  | .heldGroup t => [39, t]
  | .translation va => [40, va]
  | .record => [41]
  | .credit => [42]
  | .copyRecord => [43]
  | .fence sc => [44, sc]
  | .release ids => 50 :: ids.length :: ids
  | .followQueue => [45]
  | .follow => [49]
  | .ownStore => [51]
  | .boundary => [46]
  | .barrier => [47]
  | .stream => [48]
  | .steps => [52]

/-- R386: the block condition of a context, as a summary gives it: its halt, INTRAP, and the hold or the wait that keeps it from issuing. -/
def Ctx.blockFields (y : Ctx) : List Nat :=
  [bit y.halted, bit (tsIntrap y.csr.tstat)] ++ match y.hold, y.block with
    | some h, _ => h.kind.fields
    | none, some b => b.why.fields
    | none, none => [0]

/-- R386: a plot's contexts and images in a summary. -/
def Plot.ctxEntries (x : Plot) (id : Nat) : List (List Nat) :=
  let entry := fun (y : Ctx) => [id, y.csr.taskid, y.csr.taskpri] ++ y.blockFields ++ [y.csr.tcause.toNat, y.csr.epc.toNat, y.csr.tval.toNat]
  (((List.range 4).map x.ctx).filter fun y => y.live && (y.halted || tsIntrap y.csr.tstat)).map entry ++ x.sched.images.map fun i => entry i.1

/-- R386: the entries of the sections. -/
def State.summary (s : State) : List (List (List Nat)) :=
  let ps := s.plots.map (·.1)
  let parts := s.host.parts.map fun q => [q.index, q.tenant] ++ q.packages ++ (q.rects.flatMap fun r => [r.1, r.2.1, r.2.2.1, r.2.2.2.1, r.2.2.2.2]) ++
    [q.proxy, q.detctl.toNat, q.detq.toNat, q.pcont.toNat]
  let objs := ps.flatMap fun p => (s.plot p).objs.filterMap fun o =>
    if o.2.v then
      let r := s.plotId p * 2 ^ 28 + o.1 * 2 ^ 24 + o.2.gen * 2 ^ 12
      let f := s.field (fieldOf p)
      some [r, bit o.2.res, ((f.moved (.ofNat 64 r)).map (·.toNat)).getD 0, (f.agent.filter fun e => match e with
        | .object w _ => w.toNat == r
        | _ => false).length]
    else none
  let recs := ps.flatMap fun p => (s.plot p).records.filterMap fun r =>
    let h := mkHandle (s.plotId p) r.1 r.2.gen
    if r.2.st = .free then none else some ([h.toNat, (s.hstatWord p h).toNat] ++ r.2.owner.fields)
  let mail := s.host.parts.flatMap fun q => (List.range 63).filterMap fun i =>
    let h := s.slot q.index i 11
    let owned := match (s.plot (hPlot h % 2 ^ 20)).named h with
      | some r => match r.owner with
        | .host _ => true
        | _ => false
      | none => false
    if bitw (s.slot q.index i 1) 63 || (h != 0 && owned) then some [q.index, i, (s.slot q.index i 1).toNat, h.toNat] else none
  let ctxs := ps.flatMap fun p => (s.plot p).ctxEntries (s.plotId p)
  let comms := s.comms.map fun c =>
    let is := (s.insts.filter fun i => i.comm == c.1).map (·.seq)
    [c.1, c.2.entry] ++ is.drop (is.length - 4)
  let pools := (List.range 64).map fun q => [q, ((s.weir 0).cfg q).owner, bit ((s.weir 0).cfg q).en, fldw ((s.weir 0).stat 0 q) 12 20]
  let body := [parts, objs, recs, mail, ctxs, comms, pools]
  [[s.now, s.now] :: [body.map List.length]] ++ body

/-- R386: RESYNC writes the summary to the host's buffer, or the length it needs. -/
def execResync (s : State) : Res :=
  s.mgmt 0x08 fun s p => match p with
    | .resync addr len =>
      let bs := Config.summary s.summary
      if len < bs.length then some (s.mgmtEnd .noResource [.ofNat 64 bs.length])
      else some ((s.hostWrite (placed addr bs)).mgmtEnd .ok [])
    | _ => none

/-! ## Ports, power, events, the package id -/

/-- R297, R301, R302: PORT.CFG. The spill area is set only before the first connection. -/
def execPortCfg (s : State) : Res :=
  s.mgmt 0x09 fun s p => match p with
    | .portCfg port mac ethertype rtt routes spill =>
      if 8 ≤ port || (spill.isSome && !s.link.conns.isEmpty) || !routes.all (fun r => decide (r.2 < 8)) then some (s.mgmtEnd .invalid [])
      else
        let link := { s.link with
          ports := Sparse.set PortCfg.reset s.link.ports port ⟨mac, rtt⟩, ethertype := ethertype, routes := routes, configured := true
          spillArea := match spill with | some a => some a | none => s.link.spillArea }
        some ({ s with link := link }.mgmtEnd .ok [])
    | _ => none

/-- R389: POWER.CAP. -/
def execPowerCap (s : State) : Res :=
  s.mgmt 0x0A fun s p => match p with
    | .powerCap watts => some ({ s with host := { s.host with powerCap := watts } }.mgmtEnd .ok [])
    | _ => none

/-- R387: EVQ.SET: the queue begins anew. The phase of its first pass is not given: a free value. -/
def execEvqSet (s : State) : Res :=
  s.mgmt 0x0B fun s p => match p with
    | .evqSet addr vector =>
      let q := { s.host.evq with addr := some addr, vector := vector, pos := 0, phase := Config.firstPhase, unread := 0 }
      some ({ s with host := { s.host with evq := q } }.mgmtEnd .ok [])
    | _ => none

/-- R381: PKG.ID. -/
def execPkgId (s : State) : Res :=
  s.mgmt 0x0C fun s p => match p with
    | .pkgId id =>
      if 65535 < id then some (s.mgmtEnd .invalid [])
      else if !s.host.parts.isEmpty || s.link.conns.any fun c => decide (c.state ≤ 1) then some (s.mgmtEnd .busy [])
      else some ({ s with pkg := id }.mgmtEnd .ok [])
    | _ => none

/-- R389, R387: the governor changes its throttle level, an event of kind 2. Withheld cycles change no result. -/
def execThrottleChange (n : Nat) (s : State) : Res :=
  if s.host.throttle = n then .next s else .next ({ s with host := { s.host with throttle := n } }.hostEvent 2 0 n)

end Sys2Proof.Machine
end

