-- ==== Sys2Proof/Machine/Mod.lean ====
section
/-!
DEFINITION. Modifier words (03, R64 to R68; 04, R78; 06, R117; 08, R170) and words that are no instruction (R70).
-/

namespace Sys2Proof.Machine

open Sys2Proof

/-- The kind-01 fields an instruction uses. `rm`: 0 it must be zero, 1 any mode, 2 it must be 7. `op4`: 0 it must be zero, 1 a
v register, 2 a g register. -/
structure VfUse where
  mask : Bool
  zm : Bool
  rm : Nat
  op4 : Nat
  sat : Bool
  f8 : Bool
  uns : Bool
  deriving DecidableEq, Repr

/-- A type code is an f8 format. -/
def isF8 (ty : Nat) : Bool := ty == 11 || ty == 12

/-- R64, R78, R117, R170: what the instruction of a word uses of a kind-01 modifier; none where the kind may not precede it. -/
def vfUse (w : W32) : Option VfUse :=
  let n := w.toNat
  let fn := n % 64
  let ty := isF8 (fld n 10 4)
  let no : VfUse := ⟨false, false, 0, 0, false, false, false⟩
  let masked : VfUse := { no with mask := true, zm := true }
  match n / 2 ^ 26 with
  | 0x01 =>
    match decode w with
    | .ok (.add ..) | .ok (.sub ..) | .ok (.padd ..) | .ok (.psub ..) => some { no with sat := true, uns := true }
    | _ => some no
  | 0x20 => some { masked with zm := !flag n 11 }
  | 0x21 => some { masked with sat := decide (fn ∈ [0x00, 0x01, 0x06, 0x07, 0x0A]) }
  | 0x22 => some { masked with rm := 1, op4 := if fn ∈ [0x09, 0x0A, 0x0B, 0x0D] then 1 else 0, sat := true, f8 := ty }
  | 0x23 => some { masked with f8 := decide (fn ≤ 4) && ty }
  | 0x24 => some { masked with rm := 1, sat := true, f8 := ty || isF8 (fn % 16) }
  | 0x25 => some (if fn = 0x11 || fn = 0x12 then no else masked)
  | 0x26 => some (if fn = 0x20 then masked else { masked with rm := 2 })
  | 0x27 =>
    let st : VfUse := { no with rm := 2 }
    some (if fn ≤ 1 || fn = 0x20 then { st with mask := true, f8 := ty }
      else if fn < 0x10 then st
      else if fn < 0x16 then { st with mask := true, zm := true }
      else if fn < 0x18 then { st with mask := true, zm := true, op4 := 2 }
      else { st with mask := true, zm := true, op4 := 2, sat := true, f8 := ty })
  | _ => none

/-- R65, R66, R116: the fields of a kind-01 modifier are those its instruction uses. -/
def vfLegal (m : Vf) (u : VfUse) : Bool :=
  (u.mask || m.mask == 0) && (!m.zm || (u.zm && m.mask != 0)) &&
  (match u.rm with
    | 0 => m.rm == 0
    | 1 => m.rm != 5 && m.rm != 6
    | _ => m.rm == 7) &&
  (match u.op4 with
    | 0 => m.op4 == 0
    | 1 => decide (m.op4 < 16)
    | _ => decide (m.op4 < 60)) &&
  (u.sat || !m.sat) && (u.f8 || (m.p == 0 && !m.inf)) && (u.uns || !m.uns) && (m.sat || !m.uns)

/-- R66, R67: a modifier word: the checks of its successor, and the pair, whose second word is fetched with it. Where both the successor and the
modifier's kind or fields are at fault, the successor decides (DESIGN CHOICE, log entry 63). -/
def modOp (m : Modifier) (ok : W32 → Bool) (s : State) : Res :=
  s.finish (do
    let a := s.me.pc.toNat
    need (a != 0x1FFC) (.trap .fetchFault 0x2000)
    need (s.me.furrow.leader.isSome || !Sparse.get false s.myPlot.istoreBad ((a + 4) / 4)) (.trap .eccUncorrected (.ofNat 64 (2 ^ 62 + a + 4)))
    let next := s.myPlot.wordFor s.me (a + 4)
    let self := Stop.trap .illegal (.ofNat 64 s.iword.toNat)
    need (!isModWord next) self
    match decode next with
    | .error _ => signal .illegal (.ofNat 64 next.toNat)
    | .ok _ =>
      need (ok next) self
      .ok (s.modMe fun x => { x with pair := some m, second := next }))

/-- R64: kind 00 precedes ADDI, ANDI, ORI and XORI. -/
def execModImm (p : BitVec 24) (s : State) : Res :=
  modOp (.imm p) (fun w => decide (2 ≤ w.toNat / 2 ^ 26) && decide (w.toNat / 2 ^ 26 ≤ 5)) s

/-- R64: kind 01. -/
def execModVf (p : BitVec 24) (s : State) : Res :=
  modOp (.vf p) (fun w => match vfUse w with
    | some u => vfLegal (vfOf p) u
    | none => false) s

/-- R64, R65: kind 10 precedes INVOKE; no bit of hmask or smask beyond the argument count. -/
def execModInv (p : BitVec 24) (s : State) : Res :=
  modOp (.inv p) (fun w => match decode w with
    | .ok (.invoke _ _ n _ _) =>
      let f := invModOf p
      decide (f.hmask < 2 ^ n.toNat) && decide (f.smask < 2 ^ n.toNat)
    | _ => false) s

/-- R64: kind 11 precedes any instruction. -/
def execModHint (p : BitVec 24) (s : State) : Res := modOp (.hint p) (fun _ => true) s

/-- R70, R66: a word that is no instruction. A modifier word at the last address meets FETCH-FAULT first (R67, R71). A modifier word whose
payload is itself no encoding (reserved bits, or fields that no instruction can use) is named by TVAL, whatever its successor is (DESIGN
CHOICE, log entry 63). -/
def execIll (w : W32) (s : State) : Res :=
  s.finish (do
    need (!(isModWord w && s.ipc == 0x1FFC)) (.trap .fetchFault 0x2000)
    signal .illegal (.ofNat 64 w.toNat))

end Sys2Proof.Machine
end

