-- ==== Sys2Proof/Machine/Start.lean ====
section
/-!
DEFINITION. Start-up (17, R383, R384) and the answers over the DOE mailbox (17, R385).
-/

namespace Sys2Proof.Machine

open Sys2Proof

/-! ## Start-up -/

/-- R383: power comes: Damkar starts from its ROM. Nothing of the package is kept; what the host has is. The package id is 0
(R381). -/
def execPowerOn (s : State) : Res :=
  .next { State.reset with
    stage := 1, agenda := s.agenda, dbgOps := s.dbgOps, selfTest := s.selfTest
    mem := { Memory.reset with host := s.mem.host }
    host := { HostIf.reset with ops := s.host.ops } }

/-- R383, R335: the squares that failed the self-test are entered in SQSTAT, which records one a buffer. -/
def State.enterFailed (s : State) (fs : List (Nat × Nat × Nat)) : State :=
  fs.foldl (fun s f => s.modPlot f.1 fun x =>
    if f.2.1 < 3 && decide (f.2.2 < squares f.2.1) && (failedSquare x.csr.sqstat f.2.1).isNone then
      { x with csr := { x.csr with sqstat := markSquare x.csr.sqstat f.2.1 f.2.2 } }
    else x) s

/-- R383: a stage is over. At the end of the second, failed squares are entered in SQSTAT, every store is zeroed and CYCLE is 0 on every plot. The
fourth begins with the CXL link. -/
def execStartupStageComplete (s : State) : Res :=
  match s.stage with
  | 1 => .next { s with stage := 2 }
  | 2 => .next (({ State.reset with
      agenda := s.agenda, dbgOps := s.dbgOps, selfTest := s.selfTest
      mem := { Memory.reset with host := s.mem.host }
      host := { HostIf.reset with ops := s.host.ops, cxlUp := s.host.cxlUp } } : State).enterFailed s.selfTest)
  | 3 => .next (if s.host.cxlUp then { s with stage := 4 } else s)
  | 4 => .next { s with stage := 5 }
  | _ => .next s

/-- R383, R375: the CXL link has trained. -/
def execCxlLinkUp (s : State) : Res := .next { s with host := { s.host with cxlUp := true } }

/-! ## SPDM (R385) -/

/-- R384: a measurement: 1 to 4 are the digests of the firmware, 5 is that of the images. -/
def State.measurement (s : State) (k : Nat) : BitVec 384 :=
  if k = 5 then Sparse.get 0 s.host.meas 5 else sha384 (Config.firmware k)

/-! ### Messages. R385 names SPDM 1.2 and not its layouts: they are those of DMTF's DSP0274 (PRESUMED, log entry 54). -/

/-- A message: version 1.2, the code, the two parameters, and what follows. -/
def spdmMsg (code p1 p2 : Nat) (rest : List Byte) : List Byte := [0x12, .ofNat 8 code, .ofNat 8 p1, .ofNat 8 p2] ++ rest

/-- A byte of a message, as a number. -/
def byteAt (bs : List Byte) (i : Nat) : Nat := (bs.getD i 0).toNat

/-- A field of `n` bytes of a message. -/
def fieldAt (bs : List Byte) (i n : Nat) : Nat := numLE ((bs.drop i).take n)

/-- The codes of the requests that Damkar answers. -/
def spdmCodes : List Nat := [0x84, 0xE1, 0xE3, 0x81, 0x82, 0x83, 0xE0]

/-- ERROR, with its reason: 0x01 an invalid request, 0x04 one out of its order, 0x07 one that is not supported, 0x41 another version. -/
def spdmError (why data : Nat) : List Byte := spdmMsg 0x7F why data []

/-- A request over DOE, in its turn; the mailbox serves from stage 4 on (R383). `n` bytes are the least that the request has, and `f` its answer,
of version 1.2, if it comes in its order. -/
def State.onSpdm (s : State) (k code n : Nat) (inOrder : Spdm → Bool) (f : State → List Byte → State) : Res :=
  match s.host.ops[k]? with
  | some (.spdm bs) =>
    let isSpdm := fun (o : HostOp) => match o with
      | .spdm _ => true
      | _ => false
    if s.stage < 4 || byteAt bs 1 ≠ code || (s.host.ops.take k).any isSpdm then .next s
    else
      let s := { s with host := { s.host with ops := s.host.ops.eraseIdx k } }
      let refuse : Nat → Res := fun why => .next { s with host := { s.host with replies := s.host.replies ++ [spdmError why 0] } }
      if bs.length < n then refuse 0x01
      else if byteAt bs 0 ≠ (if code = 0x84 then 0x10 else 0x12) then refuse 0x41
      else if !inOrder s.host.spdm then refuse 0x04
      else .next (f s bs)
  | _ => .next s

/-- An answer, and what it and its request are to the session. -/
def State.spdmSay (s : State) (ans : List Byte) (f : Spdm → Spdm) : State :=
  { s with host := { s.host with replies := s.host.replies ++ [ans], spdm := f s.host.spdm } }

/-- ERROR, which leaves the session. -/
def State.spdmRefuse (s : State) (why : Nat) : State := s.spdmSay (spdmError why 0) id

/-- VERSION: the one version, 1.2. -/
def versionMsg : List Byte := [0x10, 0x04, 0, 0, 0, 1, 0x00, 0x12]

/-- R385, GET_VERSION: a new session. A request of no code that Damkar knows is answered here too, ERROR. -/
def execGetVersion (k : Nat) (s : State) : Res :=
  match s.host.ops[k]? with
  | some (.spdm bs) =>
    if byteAt bs 1 ∈ spdmCodes then s.onSpdm k 0x84 4 (fun _ => true) fun s bs => s.spdmSay versionMsg fun _ => ⟨true, false, false, bs ++ versionMsg, [], []⟩
    else s.onSpdm k (byteAt bs 1) 0 (fun _ => true) fun s bs => s.spdmSay (spdmError 0x07 (byteAt bs 1)) id
  | _ => .next s

/-- CAPABILITIES: certificates, CHALLENGE, and measurements with signatures. -/
def capabilitiesMsg : List Byte :=
  spdmMsg 0x61 0 0 ([0, .ofNat 8 Config.spdmTiming, 0, 0] ++ bytesLE 4 0x16 ++ bytesLE 4 Config.spdmTransfer ++ bytesLE 4 Config.spdmLargest)

/-- R385, GET_CAPABILITIES. -/
def execGetCapabilities (k : Nat) (s : State) : Res :=
  s.onSpdm k 0xE1 20 (·.version) fun s bs => s.spdmSay capabilitiesMsg fun x => { x with caps := true, agreed := x.agreed ++ bs ++ capabilitiesMsg }

/-- ALGORITHMS: DMTF measurements of SHA-384 where the request asks for such, and of SHA-384 and ECDSA on P-384 what it offers. -/
def algorithmsMsg (dmtf hash sign : Bool) : List Byte :=
  spdmMsg 0x63 0 0 (bytesLE 2 36 ++ [.ofNat 8 (bit dmtf), 0] ++ bytesLE 4 (4 * bit dmtf) ++ bytesLE 4 (2 ^ 7 * bit sign) ++ bytesLE 4 (2 * bit hash) ++
    bytesLE 16 0)

/-- R385, NEGOTIATE_ALGORITHMS: SHA-384 and ECDSA on P-384 are all there is; a request that offers neither is an error. -/
def execNegotiateAlgorithms (k : Nat) (s : State) : Res :=
  s.onSpdm k 0xE3 32 (·.caps) fun s bs =>
    let sign := (fieldAt bs 8 4).testBit 7
    let hash := (fieldAt bs 12 4).testBit 1
    let ans := algorithmsMsg ((byteAt bs 6).testBit 0) hash sign
    if hash || sign then s.spdmSay ans fun x => { x with algs := true, agreed := x.agreed ++ bs ++ ans } else s.spdmRefuse 0x01

/-- The digest of the chain of the one slot. -/
def chainDigest : List Byte := digestBytes (sha384 Config.certificate)

/-- R385, GET_DIGESTS: the digest of the chain of the one slot. -/
def execGetDigests (k : Nat) (s : State) : Res :=
  s.onSpdm k 0x81 4 (·.algs) fun s bs =>
    let ans := spdmMsg 0x01 0 1 chainDigest
    s.spdmSay ans fun x => { x with identity := x.identity ++ bs ++ ans, measured := [] }

/-- R385, GET_CERTIFICATE: a part of the chain of the one slot, 0, and how much is left. -/
def execGetCertificate (k : Nat) (s : State) : Res :=
  s.onSpdm k 0x82 8 (·.algs) fun s bs =>
    let rest := Config.certificate.drop (fieldAt bs 4 2)
    let part := rest.take (fieldAt bs 6 2)
    let ans := spdmMsg 0x02 0 0 (bytesLE 2 part.length ++ bytesLE 2 (rest.length - part.length) ++ part)
    if byteAt bs 2 % 16 = 0 && !rest.isEmpty then s.spdmSay ans fun x => { x with identity := x.identity ++ bs ++ ans, measured := [] }
    else s.spdmRefuse 0x01

/-- The bytes that a signature is made over: the prefix of version 1.2 and of its use, and the digest of the messages. -/
def toSign (use : String) (ms : List Byte) : List Byte :=
  let chars := fun (x : String) => x.toList.map fun c => (BitVec.ofNat 8 c.toNat : Byte)
  (List.replicate 4 (chars "dmtf-spdm-v1.2.*")).flatten ++ List.replicate (36 - use.length) 0 ++ chars use ++ digestBytes (sha384 ms)

/-- R385: a signature with the package's key. -/
def signature (use : String) (ms : List Byte) : List Byte := bytesLE 96 (Config.sign (toSign use ms)).toNat

/-- A nonce of Damkar's. -/
def State.nonce (s : State) : List Byte := (List.range 32).map (Config.nonceByte s.serial)

/-- A measurement block: a digest of mutable firmware. -/
def State.block (s : State) (k : Nat) : List Byte :=
  [.ofNat 8 k, 1] ++ bytesLE 2 51 ++ [1] ++ bytesLE 2 48 ++ digestBytes (s.measurement k)

/-- All five blocks. -/
def State.blocks (s : State) : List Byte := [1, 2, 3, 4, 5].flatMap s.block

/-- R385, CHALLENGE: the chain's digest, a nonce, and the digest of the measurements where it is asked for, signed over what has been said. -/
def execChallenge (k : Nat) (s : State) : Res :=
  s.onSpdm k 0x83 36 (·.algs) fun s bs =>
    let what := byteAt bs 3
    let body := spdmMsg 0x03 0 1 (chainDigest ++ s.nonce ++ (if what = 0 then [] else digestBytes (sha384 s.blocks)) ++ bytesLE 2 0)
    let x := s.host.spdm
    let ans := body ++ signature "responder-challenge_auth signing" (x.agreed ++ x.identity ++ bs ++ body)
    if byteAt bs 2 % 16 = 0 && (what = 0 || what = 1 || what = 0xFF) then s.fresh.2.spdmSay ans fun x => { x with identity := [], measured := [] }
    else s.spdmRefuse 0x01

/-- R384, R385, GET_MEASUREMENTS: how many there are, one, or all five, and signed where the request asks for it. -/
def execGetMeasurements (k : Nat) (s : State) : Res :=
  s.onSpdm k 0xE0 4 (·.algs) fun s bs =>
    let signed := (byteAt bs 2).testBit 0
    let i := byteAt bs 3
    let ms := if i = 0 then [] else if i = 0xFF then s.blocks else s.block i
    let body := spdmMsg 0x60 (if i = 0 then 5 else 0) 0 ([.ofNat 8 (ms.length / 55)] ++ bytesLE 3 ms.length ++ ms ++ s.nonce ++ bytesLE 2 0)
    let x := s.host.spdm
    let said := x.measured ++ bs ++ body
    if (signed && (bs.length < 37 || byteAt bs 36 % 16 ≠ 0)) || !(i = 0xFF || decide (i ≤ 5)) then s.spdmRefuse 0x01
    else s.fresh.2.spdmSay (if signed then body ++ signature "responder-measurements signing" (x.agreed ++ said) else body)
      fun x => { x with measured := if signed then [] else said }

end Sys2Proof.Machine
end

