-- ==== Sys2Proof/Machine/Dispatch.lean ====
section
/-!
DEFINITION. The dispatch of instructions and events to their meanings: one arm per constructor of Instr.
-/

namespace Sys2Proof.Machine

open Sys2Proof

/-- What an instruction or an event does. -/
def exec (i : Instr) (s : State) : Host.Outcome State Fault Refusal :=
  match i with
  | .add d a b t u => Sys2Proof.Machine.execAdd d a b t u s
  | .sub d a b t u => Sys2Proof.Machine.execSub d a b t u s
  | .and d a b t u => Sys2Proof.Machine.execAnd d a b t u s
  | .or d a b t u => Sys2Proof.Machine.execOr d a b t u s
  | .xor d a b t u => Sys2Proof.Machine.execXor d a b t u s
  | .andn d a b t u => Sys2Proof.Machine.execAndn d a b t u s
  | .orn d a b t u => Sys2Proof.Machine.execOrn d a b t u s
  | .xnor d a b t u => Sys2Proof.Machine.execXnor d a b t u s
  | .sll d a b t u => Sys2Proof.Machine.execSll d a b t u s
  | .srl d a b t u => Sys2Proof.Machine.execSrl d a b t u s
  | .sra d a b t u => Sys2Proof.Machine.execSra d a b t u s
  | .rol d a b t u => Sys2Proof.Machine.execRol d a b t u s
  | .ror d a b t u => Sys2Proof.Machine.execRor d a b t u s
  | .slt d a b t u => Sys2Proof.Machine.execSlt d a b t u s
  | .sltn d a b t u => Sys2Proof.Machine.execSltn d a b t u s
  | .seq d a b t u => Sys2Proof.Machine.execSeq d a b t u s
  | .sne d a b t u => Sys2Proof.Machine.execSne d a b t u s
  | .min d a b t u => Sys2Proof.Machine.execMin d a b t u s
  | .max d a b t u => Sys2Proof.Machine.execMax d a b t u s
  | .minn d a b t u => Sys2Proof.Machine.execMinn d a b t u s
  | .maxn d a b t u => Sys2Proof.Machine.execMaxn d a b t u s
  | .mul d a b t u => Sys2Proof.Machine.execMul d a b t u s
  | .mulh d a b t u => Sys2Proof.Machine.execMulh d a b t u s
  | .mulhn d a b t u => Sys2Proof.Machine.execMulhn d a b t u s
  | .mulhsn d a b t u => Sys2Proof.Machine.execMulhsn d a b t u s
  | .div d a b t u => Sys2Proof.Machine.execDiv d a b t u s
  | .divn d a b t u => Sys2Proof.Machine.execDivn d a b t u s
  | .rem d a b t u => Sys2Proof.Machine.execRem d a b t u s
  | .remn d a b t u => Sys2Proof.Machine.execRemn d a b t u s
  | .clz d a t w => Sys2Proof.Machine.execClz d a t w s
  | .ctz d a t w => Sys2Proof.Machine.execCtz d a t w s
  | .ffs d a t w => Sys2Proof.Machine.execFfs d a t w s
  | .popc d a t w => Sys2Proof.Machine.execPopc d a t w s
  | .csel d a b t u => Sys2Proof.Machine.execCsel d a b t u s
  | .brev d a t => Sys2Proof.Machine.execBrev d a t s
  | .bswap d a t => Sys2Proof.Machine.execBswap d a t s
  | .padd d a b t u w => Sys2Proof.Machine.execPadd d a b t u w s
  | .psub d a b t u w => Sys2Proof.Machine.execPsub d a b t u w s
  | .addi d a t im => Sys2Proof.Machine.execAddi d a t im s
  | .andi d a t im => Sys2Proof.Machine.execAndi d a t im s
  | .ori d a t im => Sys2Proof.Machine.execOri d a t im s
  | .xori d a t im => Sys2Proof.Machine.execXori d a t im s
  | .slti d a t im => Sys2Proof.Machine.execSlti d a t im s
  | .sltni d a t im => Sys2Proof.Machine.execSltni d a t im s
  | .slli d a t h => Sys2Proof.Machine.execSlli d a t h s
  | .srli d a t h => Sys2Proof.Machine.execSrli d a t h s
  | .srai d a t h => Sys2Proof.Machine.execSrai d a t h s
  | .rori d a t h => Sys2Proof.Machine.execRori d a t h s
  | .exti d a t p l => Sys2Proof.Machine.execExti d a t p l s
  | .insi d a t p l => Sys2Proof.Machine.execInsi d a t p l s
  | .lea d a b t u h => Sys2Proof.Machine.execLea d a b t u h s
  | .leaA d a b t u => Sys2Proof.Machine.execLeaA d a b t u s
  | .leaW d a b t u => Sys2Proof.Machine.execLeaW d a b t u s
  | .leaC d a b t u => Sys2Proof.Machine.execLeaC d a b t u s
  | .beq a b t u im => Sys2Proof.Machine.execBeq a b t u im s
  | .bne a b t u im => Sys2Proof.Machine.execBne a b t u im s
  | .blt a b t u im => Sys2Proof.Machine.execBlt a b t u im s
  | .bge a b t u im => Sys2Proof.Machine.execBge a b t u im s
  | .bltn a b t u im => Sys2Proof.Machine.execBltn a b t u im s
  | .bgen a b t u im => Sys2Proof.Machine.execBgen a b t u im s
  | .jal l im => Sys2Proof.Machine.execJal l im s
  | .jalr d a t im => Sys2Proof.Machine.execJalr d a t im s
  | .follow a t => Sys2Proof.Machine.execFollow a t s
  | .lead => Sys2Proof.Machine.execLead s
  | .split => Sys2Proof.Machine.execSplit s
  | .tend => Sys2Proof.Machine.execTend s
  | .yield => Sys2Proof.Machine.execYield s
  | .sleep a t => Sys2Proof.Machine.execSleep a t s
  | .sleepuntil a t => Sys2Proof.Machine.execSleepuntil a t s
  | .tself d => Sys2Proof.Machine.execTself d s
  | .tselfF d => Sys2Proof.Machine.execTselfF d s
  | .chblk a b t u => Sys2Proof.Machine.execChblk a b t u s
  | .chunb a b t u => Sys2Proof.Machine.execChunb a b t u s
  | .ldl d b t x w o => Sys2Proof.Machine.execLdl d b t x w o s
  | .stl r b t x w o => Sys2Proof.Machine.execStl r b t x w o s
  | .ldg d b t w o => Sys2Proof.Machine.execLdg d b t w o s
  | .stg r b t w o => Sys2Proof.Machine.execStg r b t w o s
  | .ldx d a b t u w => Sys2Proof.Machine.execLdx d a b t u w s
  | .stx r a b t u w => Sys2Proof.Machine.execStx r a b t u w s
  | .ldsync d b t x o => Sys2Proof.Machine.execLdsync d b t x o s
  | .ldfe d b t x o => Sys2Proof.Machine.execLdfe d b t x o s
  | .stfull r b t x o => Sys2Proof.Machine.execStfull r b t x o s
  | .clrfe b t x o => Sys2Proof.Machine.execClrfe b t x o s
  | .amoAdd d a b t u o => Sys2Proof.Machine.execAmoAdd d a b t u o s
  | .amoSwap d a b t u o => Sys2Proof.Machine.execAmoSwap d a b t u o s
  | .amoCas d a b t u o => Sys2Proof.Machine.execAmoCas d a b t u o s
  | .amoMin d a b t u o => Sys2Proof.Machine.execAmoMin d a b t u o s
  | .amoMax d a b t u o => Sys2Proof.Machine.execAmoMax d a b t u o s
  | .amoMinn d a b t u o => Sys2Proof.Machine.execAmoMinn d a b t u o s
  | .amoMaxn d a b t u o => Sys2Proof.Machine.execAmoMaxn d a b t u o s
  | .amoAnd d a b t u o => Sys2Proof.Machine.execAmoAnd d a b t u o s
  | .amoOr d a b t u o => Sys2Proof.Machine.execAmoOr d a b t u o s
  | .amoXor d a b t u o => Sys2Proof.Machine.execAmoXor d a b t u o s
  | .amoFaddF d a b t u o => Sys2Proof.Machine.execAmoFaddF d a b t u o s
  | .amoFaddD d a b t u o => Sys2Proof.Machine.execAmoFaddD d a b t u o s
  | .amoAmerge d a b t u o => Sys2Proof.Machine.execAmoAmerge d a b t u o s
  | .acqS a t => Sys2Proof.Machine.execAcqS a t s
  | .acqX a t => Sys2Proof.Machine.execAcqX a t s
  | .rel a t => Sys2Proof.Machine.execRel a t s
  | .handover a b t u => Sys2Proof.Machine.execHandover a b t u s
  | .hgbind a b t u => Sys2Proof.Machine.execHgbind a b t u s
  | .fenceCtx => Sys2Proof.Machine.execFenceCtx s
  | .fencePlot => Sys2Proof.Machine.execFencePlot s
  | .fenceField => Sys2Proof.Machine.execFenceField s
  | .fencePkg => Sys2Proof.Machine.execFencePkg s
  | .fenceSys => Sys2Proof.Machine.execFenceSys s
  | .bar d a t => Sys2Proof.Machine.execBar d a t s
  | .pput d a b t u => Sys2Proof.Machine.execPput d a b t u s
  | .ptake d a t => Sys2Proof.Machine.execPtake d a t s
  | .ptaken d a t => Sys2Proof.Machine.execPtaken d a t s
  | .ppeek d a t => Sys2Proof.Machine.execPpeek d a t s
  | .pstat d a t => Sys2Proof.Machine.execPstat d a t s
  | .pcfg a b t u => Sys2Proof.Machine.execPcfg a b t u s
  | .invoke d a n t m => Sys2Proof.Machine.execInvoke d a n t m s
  | .await d a t => Sys2Proof.Machine.execAwait d a t s
  | .awaitb d a b t => Sys2Proof.Machine.execAwaitb d a b t s
  | .resolve a t => Sys2Proof.Machine.execResolve a t s
  | .resolveref a t => Sys2Proof.Machine.execResolveref a t s
  | .breakP a t => Sys2Proof.Machine.execBreakP a t s
  | .hstat d a t => Sys2Proof.Machine.execHstat d a t s
  | .send a n t => Sys2Proof.Machine.execSend a n t s
  | .recv d a t => Sys2Proof.Machine.execRecv d a t s
  | .cpy d a => Sys2Proof.Machine.execCpy d a s
  | .cpyE d a b u => Sys2Proof.Machine.execCpyE d a b u s
  | .coll d a => Sys2Proof.Machine.execColl d a s
  | .collw d a t => Sys2Proof.Machine.execCollw d a t s
  | .puts d a => Sys2Proof.Machine.execPuts d a s
  | .get d a => Sys2Proof.Machine.execGet d a s
  | .vldRow v b x t o => Sys2Proof.Machine.execVldRow v b x t o s
  | .vldCol v b x t e o => Sys2Proof.Machine.execVldCol v b x t e o s
  | .vstRow v b x t o => Sys2Proof.Machine.execVstRow v b x t o s
  | .vstCol v b x t e o => Sys2Proof.Machine.execVstCol v b x t e o s
  | .vaddInt d a b y t u => Sys2Proof.Machine.execVaddInt d a b y t u s
  | .vsubInt d a b y t u => Sys2Proof.Machine.execVsubInt d a b y t u s
  | .vmulInt d a b y t u => Sys2Proof.Machine.execVmulInt d a b y t u s
  | .vmulh d a b y t u => Sys2Proof.Machine.execVmulh d a b y t u s
  | .vminInt d a b y t u => Sys2Proof.Machine.execVminInt d a b y t u s
  | .vmaxInt d a b y t u => Sys2Proof.Machine.execVmaxInt d a b y t u s
  | .vabsInt d a y t => Sys2Proof.Machine.execVabsInt d a y t s
  | .vnegInt d a y t => Sys2Proof.Machine.execVnegInt d a y t s
  | .vavg d a b y t u => Sys2Proof.Machine.execVavg d a b y t u s
  | .vabsd d a b y t u => Sys2Proof.Machine.execVabsd d a b y t u s
  | .vmacc d a b y t u => Sys2Proof.Machine.execVmacc d a b y t u s
  | .vdivInt d a b y t u => Sys2Proof.Machine.execVdivInt d a b y t u s
  | .vrem d a b y t u => Sys2Proof.Machine.execVrem d a b y t u s
  | .vclz d a y t => Sys2Proof.Machine.execVclz d a y t s
  | .vpopc d a y t => Sys2Proof.Machine.execVpopc d a y t s
  | .vaddFloat d a b y t u => Sys2Proof.Machine.execVaddFloat d a b y t u s
  | .vsubFloat d a b y t u => Sys2Proof.Machine.execVsubFloat d a b y t u s
  | .vmulFloat d a b y t u => Sys2Proof.Machine.execVmulFloat d a b y t u s
  | .vmulz d a b y t u => Sys2Proof.Machine.execVmulz d a b y t u s
  | .vdivFloat d a b y t u => Sys2Proof.Machine.execVdivFloat d a b y t u s
  | .vminFloat d a b y t u => Sys2Proof.Machine.execVminFloat d a b y t u s
  | .vmaxFloat d a b y t u => Sys2Proof.Machine.execVmaxFloat d a b y t u s
  | .vabsFloat d a y t => Sys2Proof.Machine.execVabsFloat d a y t s
  | .vnegFloat d a y t => Sys2Proof.Machine.execVnegFloat d a y t s
  | .vfma d a b y t u => Sys2Proof.Machine.execVfma d a b y t u s
  | .vfms d a b y t u => Sys2Proof.Machine.execVfms d a b y t u s
  | .vfnma d a b y t u => Sys2Proof.Machine.execVfnma d a b y t u s
  | .vsqrt d a y t => Sys2Proof.Machine.execVsqrt d a y t s
  | .vfmaz d a b y t u => Sys2Proof.Machine.execVfmaz d a b y t u s
  | .vceq d a b y t u => Sys2Proof.Machine.execVceq d a b y t u s
  | .vcne d a b y t u => Sys2Proof.Machine.execVcne d a b y t u s
  | .vclt d a b y t u => Sys2Proof.Machine.execVclt d a b y t u s
  | .vcle d a b y t u => Sys2Proof.Machine.execVcle d a b y t u s
  | .vcun d a b y t u => Sys2Proof.Machine.execVcun d a b y t u s
  | .vand d a b y t u => Sys2Proof.Machine.execVand d a b y t u s
  | .vor d a b y t u => Sys2Proof.Machine.execVor d a b y t u s
  | .vxor d a b y t u => Sys2Proof.Machine.execVxor d a b y t u s
  | .vandn d a b y t u => Sys2Proof.Machine.execVandn d a b y t u s
  | .vnot d a y t => Sys2Proof.Machine.execVnot d a y t s
  | .vsll d a b y t u => Sys2Proof.Machine.execVsll d a b y t u s
  | .vsrl d a b y t u => Sys2Proof.Machine.execVsrl d a b y t u s
  | .vsra d a b y t u => Sys2Proof.Machine.execVsra d a b y t u s
  | .vcvt d a p y t q o => Sys2Proof.Machine.execVcvt d a p y t q o s
  | .vperm d a b y t u => Sys2Proof.Machine.execVperm d a b y t u s
  | .vrev d a y t => Sys2Proof.Machine.execVrev d a y t s
  | .vzipl d a b y t u => Sys2Proof.Machine.execVzipl d a b y t u s
  | .vziph d a b y t u => Sys2Proof.Machine.execVziph d a b y t u s
  | .vuzpe d a b y t u => Sys2Proof.Machine.execVuzpe d a b y t u s
  | .vuzpo d a b y t u => Sys2Proof.Machine.execVuzpo d a b y t u s
  | .vmov d a y t => Sys2Proof.Machine.execVmov d a y t s
  | .vidx d y => Sys2Proof.Machine.execVidx d y s
  | .vbcast g v y t => Sys2Proof.Machine.execVbcast g v y t s
  | .vextr g v y t => Sys2Proof.Machine.execVextr g v y t s
  | .vmskb g v y t => Sys2Proof.Machine.execVmskb g v y t s
  | .vrcp d a y t => Sys2Proof.Machine.execVrcp d a y t s
  | .vrsqrt d a y t => Sys2Proof.Machine.execVrsqrt d a y t s
  | .vexp2 d a y t => Sys2Proof.Machine.execVexp2 d a y t s
  | .vlog2 d a y t => Sys2Proof.Machine.execVlog2 d a y t s
  | .vexp d a y t => Sys2Proof.Machine.execVexp d a y t s
  | .vtanh d a y t => Sys2Proof.Machine.execVtanh d a y t s
  | .vsigm d a y t => Sys2Proof.Machine.execVsigm d a y t s
  | .vrand d y => Sys2Proof.Machine.execVrand d y s
  | .supd d a y t => Sys2Proof.Machine.execSupd d a y t s
  | .supdw d a b y t u => Sys2Proof.Machine.execSupdw d a b y t u s
  | .smrg d a b t u => Sys2Proof.Machine.execSmrg d a b t u s
  | .sclr d => Sys2Proof.Machine.execSclr d s
  | .sputLo d a t => Sys2Proof.Machine.execSputLo d a t s
  | .sputHi d a t => Sys2Proof.Machine.execSputHi d a t s
  | .sgetLo d a t => Sys2Proof.Machine.execSgetLo d a t s
  | .sgetHi d a t => Sys2Proof.Machine.execSgetHi d a t s
  | .sdrain d a t o => Sys2Proof.Machine.execSdrain d a t o s
  | .snorm d a b y t u => Sys2Proof.Machine.execSnorm d a b y t u s
  | .snormZ d a b y t u => Sys2Proof.Machine.execSnormZ d a b y t u s
  | .supdRow d b x y t => Sys2Proof.Machine.execSupdRow d b x y t s
  | .supdCol d b x y t => Sys2Proof.Machine.execSupdCol d b x y t s
  | .mma a b k c => Sys2Proof.Machine.execMma a b k c s
  | .mmaG a b k c => Sys2Proof.Machine.execMmaG a b k c s
  | .mmas a b k c => Sys2Proof.Machine.execMmas a b k c s
  | .mcfg a => Sys2Proof.Machine.execMcfg a s
  | .mcfgD a => Sys2Proof.Machine.execMcfgD a s
  | .mzero a => Sys2Proof.Machine.execMzero a s
  | .mdrain a b => Sys2Proof.Machine.execMdrain a b s
  | .mdrainZ a b => Sys2Proof.Machine.execMdrainZ a b s
  | .mdrainV d a => Sys2Proof.Machine.execMdrainV d a s
  | .mscale d a b => Sys2Proof.Machine.execMscale d a b s
  | .mscaleZ d a b => Sys2Proof.Machine.execMscaleZ d a b s
  | .mcomp d a b => Sys2Proof.Machine.execMcomp d a b s
  | .csrr d c => Sys2Proof.Machine.execCsrr d c s
  | .csrw d a t c => Sys2Proof.Machine.execCsrw d a t c s
  | .csrs d a t c => Sys2Proof.Machine.execCsrs d a t c s
  | .csrc d a t c => Sys2Proof.Machine.execCsrc d a t c s
  | .tret => Sys2Proof.Machine.execTret s
  | .trap a t => Sys2Proof.Machine.execTrap a t s
  | .brk n => Sys2Proof.Machine.execBrk n s
  | .tfault => Sys2Proof.Machine.execTfault s
  | .iswr a t => Sys2Proof.Machine.execIswr a t s
  | .tlbinv a t => Sys2Proof.Machine.execTlbinv a t s
  | .tlbinvAll => Sys2Proof.Machine.execTlbinvAll s
  | .objhome a t => Sys2Proof.Machine.execObjhome a t s
  | .modImm p => Sys2Proof.Machine.execModImm p s
  | .modVf p => Sys2Proof.Machine.execModVf p s
  | .modInv p => Sys2Proof.Machine.execModInv p s
  | .modHint p => Sys2Proof.Machine.execModHint p s
  | .ill w => Sys2Proof.Machine.execIll w s
  | .multicycleResult p c k => Sys2Proof.Machine.execMulticycleResult p c k s
  | .longLatencyResponse k => Sys2Proof.Machine.execLongLatencyResponse k s
  | .heldAccessResponse k => Sys2Proof.Machine.execHeldAccessResponse k s
  | .portWordTransfer p dir => Sys2Proof.Machine.execPortWordTransfer p dir s
  | .translationComplete p k => Sys2Proof.Machine.execTranslationComplete p k s
  | .engineGrant p => Sys2Proof.Machine.execEngineGrant p s
  | .invocationArrival k => Sys2Proof.Machine.execInvocationArrival k s
  | .rawMessageArrival k => Sys2Proof.Machine.execRawMessageArrival k s
  | .agentListAppend k => Sys2Proof.Machine.execAgentListAppend k s
  | .agentReturn f k => Sys2Proof.Machine.execAgentReturn f k s
  | .directoryForward k => Sys2Proof.Machine.execDirectoryForward k s
  | .taskStart p => Sys2Proof.Machine.execTaskStart p s
  | .contextFree p c => Sys2Proof.Machine.execContextFree p c s
  | .spill p => Sys2Proof.Machine.execSpill p s
  | .spillComplete p => Sys2Proof.Machine.execSpillComplete p s
  | .restore p => Sys2Proof.Machine.execRestore p s
  | .floorTick p => Sys2Proof.Machine.execFloorTick p s
  | .sleepWake p k => Sys2Proof.Machine.execSleepWake p k s
  | .quantumEnd p => Sys2Proof.Machine.execQuantumEnd p s
  | .quantumApply x => Sys2Proof.Machine.execQuantumApply x s
  | .followJoin k => Sys2Proof.Machine.execFollowJoin k s
  | .furrowTimeoutSplit p c => Sys2Proof.Machine.execFurrowTimeoutSplit p c s
  | .settlementArrival k => Sys2Proof.Machine.execSettlementArrival k s
  | .recordQueueEntry p r => Sys2Proof.Machine.execRecordQueueEntry p r s
  | .acceptanceNotice k => Sys2Proof.Machine.execAcceptanceNotice k s
  | .chainRegistration k => Sys2Proof.Machine.execChainRegistration k s
  | .chainCollapse k => Sys2Proof.Machine.execChainCollapse k s
  | .awaitRequest k => Sys2Proof.Machine.execAwaitRequest k s
  | .awaitAnswer k => Sys2Proof.Machine.execAwaitAnswer k s
  | .hstatRequest k => Sys2Proof.Machine.execHstatRequest k s
  | .recordFree p r => Sys2Proof.Machine.execRecordFree p r s
  | .remotePortAccess k => Sys2Proof.Machine.execRemotePortAccess k s
  | .parkedRequestServe k => Sys2Proof.Machine.execParkedRequestServe k s
  | .requestResend k => Sys2Proof.Machine.execRequestResend k s
  | .baseDieAccess k => Sys2Proof.Machine.execBaseDieAccess k s
  | .amoServe k => Sys2Proof.Machine.execAmoServe k s
  | .headgateRequest k => Sys2Proof.Machine.execHeadgateRequest k s
  | .headgateGrant k => Sys2Proof.Machine.execHeadgateGrant k s
  | .headgateRelease k => Sys2Proof.Machine.execHeadgateRelease k s
  | .handoverGrant k => Sys2Proof.Machine.execHandoverGrant k s
  | .hgbindChange k => Sys2Proof.Machine.execHgbindChange k s
  | .barrierArrival k => Sys2Proof.Machine.execBarrierArrival k s
  | .barrierRelease f k => Sys2Proof.Machine.execBarrierRelease f k s
  | .weirPut k => Sys2Proof.Machine.execWeirPut k s
  | .putRedirect k => Sys2Proof.Machine.execPutRedirect k s
  | .announcement k => Sys2Proof.Machine.execAnnouncement k s
  | .announcementAck k => Sys2Proof.Machine.execAnnouncementAck k s
  | .weirTake k => Sys2Proof.Machine.execWeirTake k s
  | .weirPeek k => Sys2Proof.Machine.execWeirPeek k s
  | .weirStat k => Sys2Proof.Machine.execWeirStat k s
  | .weirCfg k => Sys2Proof.Machine.execWeirCfg k s
  | .weirSummary f q => Sys2Proof.Machine.execWeirSummary f q s
  | .summaryArrival k => Sys2Proof.Machine.execSummaryArrival k s
  | .moveArrival k => Sys2Proof.Machine.execMoveArrival k s
  | .pull k => Sys2Proof.Machine.execPull k s
  | .pullAnswer k => Sys2Proof.Machine.execPullAnswer k s
  | .emptinessCollect k => Sys2Proof.Machine.execEmptinessCollect k s
  | .collectAnswer k => Sys2Proof.Machine.execCollectAnswer k s
  | .elementOverdue f k => Sys2Proof.Machine.execElementOverdue f k s
  | .flumeAccept k => Sys2Proof.Machine.execFlumeAccept k s
  | .copyPiece f k => Sys2Proof.Machine.execCopyPiece f k s
  | .copyComplete k => Sys2Proof.Machine.execCopyComplete k s
  | .copyLate p c k => Sys2Proof.Machine.execCopyLate p c k s
  | .copyFailed k => Sys2Proof.Machine.execCopyFailed k s
  | .putsSignal k => Sys2Proof.Machine.execPutsSignal k s
  | .collRequest k => Sys2Proof.Machine.execCollRequest k s
  | .collAccept x => Sys2Proof.Machine.execCollAccept x s
  | .collwRequest k => Sys2Proof.Machine.execCollwRequest k s
  | .chunkArrival k => Sys2Proof.Machine.execChunkArrival k s
  | .chunkTakeup x => Sys2Proof.Machine.execChunkTakeup x s
  | .commBreakNotice k => Sys2Proof.Machine.execCommBreakNotice k s
  | .lintilData k => Sys2Proof.Machine.execLintilData k s
  | .lintilAck k => Sys2Proof.Machine.execLintilAck k s
  | .lintilNack k => Sys2Proof.Machine.execLintilNack k s
  | .lintilOpen k => Sys2Proof.Machine.execLintilOpen k s
  | .lintilOpenAck k => Sys2Proof.Machine.execLintilOpenAck k s
  | .lintilClose k => Sys2Proof.Machine.execLintilClose k s
  | .pauseFrameReceive k => Sys2Proof.Machine.execPauseFrameReceive k s
  | .ackTimer k => Sys2Proof.Machine.execAckTimer k s
  | .retransmitTimeout k => Sys2Proof.Machine.execRetransmitTimeout k s
  | .connectionStateFetch k => Sys2Proof.Machine.execConnectionStateFetch k s
  | .thresholdWindowReset p k => Sys2Proof.Machine.execThresholdWindowReset p k s
  | .watchdog p k => Sys2Proof.Machine.execWatchdog p k s
  | .scrub p => Sys2Proof.Machine.execScrub p s
  | .squareRebuildComplete p k => Sys2Proof.Machine.execSquareRebuildComplete p k s
  | .ptrootWrite p w => Sys2Proof.Machine.execPtrootWrite p w s
  | .objentWrite p k w => Sys2Proof.Machine.execObjentWrite p k w s
  | .chentWrite p k w => Sys2Proof.Machine.execChentWrite p k w s
  | .cisternWrite p w => Sys2Proof.Machine.execCisternWrite p w s
  | .sqstatWrite p w => Sys2Proof.Machine.execSqstatWrite p w s
  | .debugHalt k => Sys2Proof.Machine.execDebugHalt k s
  | .debugResume k => Sys2Proof.Machine.execDebugResume k s
  | .debugDeliver k => Sys2Proof.Machine.execDebugDeliver k s
  | .debugStep k => Sys2Proof.Machine.execDebugStep k s
  | .debugRegRead k => Sys2Proof.Machine.execDebugRegRead k s
  | .debugRegWrite k => Sys2Proof.Machine.execDebugRegWrite k s
  | .debugCsrRead k => Sys2Proof.Machine.execDebugCsrRead k s
  | .debugCsrWrite k => Sys2Proof.Machine.execDebugCsrWrite k s
  | .debugBufferRead k => Sys2Proof.Machine.execDebugBufferRead k s
  | .debugBufferWrite k => Sys2Proof.Machine.execDebugBufferWrite k s
  | .debugSnapshot k => Sys2Proof.Machine.execDebugSnapshot k s
  | .debugIstoreWrite k => Sys2Proof.Machine.execDebugIstoreWrite k s
  | .debugTemplateWrite k => Sys2Proof.Machine.execDebugTemplateWrite k s
  | .hostWindowRead k => Sys2Proof.Machine.execHostWindowRead k s
  | .hostWindowWrite k => Sys2Proof.Machine.execHostWindowWrite k s
  | .hostInvoke k => Sys2Proof.Machine.execHostInvoke k s
  | .release k => Sys2Proof.Machine.execRelease k s
  | .partCreate => Sys2Proof.Machine.execPartCreate s
  | .partDestroy => Sys2Proof.Machine.execPartDestroy s
  | .partDestroyTimeout => Sys2Proof.Machine.execPartDestroyTimeout s
  | .partSetdet => Sys2Proof.Machine.execPartSetdet s
  | .partSetcont => Sys2Proof.Machine.execPartSetcont s
  | .commSet => Sys2Proof.Machine.execCommSet s
  | .windowMap => Sys2Proof.Machine.execWindowMap s
  | .imageLoad => Sys2Proof.Machine.execImageLoad s
  | .resync => Sys2Proof.Machine.execResync s
  | .portCfg => Sys2Proof.Machine.execPortCfg s
  | .powerCap => Sys2Proof.Machine.execPowerCap s
  | .evqSet => Sys2Proof.Machine.execEvqSet s
  | .pkgId => Sys2Proof.Machine.execPkgId s
  | .getVersion k => Sys2Proof.Machine.execGetVersion k s
  | .getCapabilities k => Sys2Proof.Machine.execGetCapabilities k s
  | .negotiateAlgorithms k => Sys2Proof.Machine.execNegotiateAlgorithms k s
  | .getDigests k => Sys2Proof.Machine.execGetDigests k s
  | .getCertificate k => Sys2Proof.Machine.execGetCertificate k s
  | .challenge k => Sys2Proof.Machine.execChallenge k s
  | .getMeasurements k => Sys2Proof.Machine.execGetMeasurements k s
  | .powerOn => Sys2Proof.Machine.execPowerOn s
  | .startupStageComplete => Sys2Proof.Machine.execStartupStageComplete s
  | .cxlLinkUp => Sys2Proof.Machine.execCxlLinkUp s
  | .retentionEnter p => Sys2Proof.Machine.execRetentionEnter p s
  | .paritySweepComplete p => Sys2Proof.Machine.execParitySweepComplete p s
  | .throttleChange n => Sys2Proof.Machine.execThrottleChange n s
  | .hostRequest k => Sys2Proof.Machine.execHostRequest k s
  | .cxlCompletion k => Sys2Proof.Machine.execCxlCompletion k s
  | .channelBlockRequest k => Sys2Proof.Machine.execChannelBlockRequest k s
  | .tlbInvalidate k => Sys2Proof.Machine.execTlbInvalidate k s
  | .directoryMapUpdate k => Sys2Proof.Machine.execDirectoryMapUpdate k s
  | .lintilUnknownKind k => Sys2Proof.Machine.execLintilUnknownKind k s

end Sys2Proof.Machine
end

