-- ==== Sys2Proof/Machine/Select.lean ====
section
/-!
DEFINITION. One issue attempt of a context (04, R53, R54, R71; 03, R66, R67; 14, R313, R327, R338), the furrow's side path (09,
R198, R199), and the issue selector (09, R182).
-/

namespace Sys2Proof.Machine

open Sys2Proof

/-! ## Boundaries (R313) -/

/-- R283: the record of which a context would take LATE in a cycle: the lowest-numbered failed one, or else the lowest-numbered with LT = 1
whose promise has passed with the copy incomplete, as `late` says. -/
def Ctx.lateDue (y : Ctx) (late : CopyRec → Bool) : Option CopyRec :=
  match firstBy (fun r => [r.no]) (y.copies.filter (·.failed)) with
  | some r => some r
  | none => firstBy (fun r => [r.no]) (y.copies.filter fun r => r.lt && late r)

/-- R283: the TVAL of a LATE: all ones for a failed copy, or else the new estimate. -/
def lateValue (r : CopyRec) (est : Nat) : Word := if r.failed then 0xFFFFFFFFFFFFFFFF else .ofNat 64 est

/-- R283: the record of a LATE that is taken: a failed one frees, a late one has the new promise. -/
def Ctx.lateTaken (y : Ctx) (r : CopyRec) (est : Nat) : Ctx :=
  { y with copies := if r.failed then y.copies.filter fun c => c.id != r.id else y.copies.map fun c =>
      if c.id = r.id then { c with promise := est } else c }

/-- R313: the first of STEP, NUMERIC, SPILL-FULL and LATE that is due, and the context without it; `late` says which copies are late, and `est` is
the estimate for a record. -/
def Ctx.boundary (y : Ctx) (late : CopyRec → Bool) (est : CopyRec → Nat) : Option (Cause × Word × Ctx) :=
  match y.due.step, y.due.numeric, y.due.spillFull, y.lateDue late with
  | some a, _, _, _ => some (.step, a, { y with due := { y.due with step := none } })
  | none, k :: ks, _, _ => some (.numeric, k, { y with due := { y.due with numeric := ks } })
  | none, [], some n, _ => some (.spillFull, n, { y with due := { y.due with spillFull := none } })
  | none, [], none, some r => some (.late, lateValue r (est r), y.lateTaken r (est r))
  | none, [], none, none => none

/-- R313: a context is at a boundary where it takes such traps: not in a trap, not inside a pair, and
no multiply of it has the engine. (One that is blocked takes none before it
would issue: see `attempt`.) -/
def Ctx.takesDue (y : Ctx) : Bool := !tsIntrap y.csr.tstat && y.pair.isNone && y.mul.point.isNone

/-- The trap that is due to a context at its boundary. -/
def State.dueTrap (s : State) (p c : Nat) : Option (Cause × Word × Ctx) :=
  let y := s.ctx p c
  if y.takesDue then y.boundary (s.passed (s.plotId p) y.csr.taskid) fun r => s.lateEstimate (s.plotId p) y.csr.taskid r.id else none

/-! ## Breakpoints (R327) -/

/-- R327: an enabled breakpoint matches an address. -/
def Ctx.breaks (y : Ctx) (a : Nat) : Bool :=
  (List.range 4).any fun n => bitw y.csr.dbgctl (1 + n) && (Sparse.get 0 y.csr.bka n).toNat == a

/-- R327, R67, R312: the address of the instruction, or of either word of the pair, that a breakpoint matches. -/
def Plot.breakAt (x : Plot) (y : Ctx) : Option Nat :=
  let a := y.pc.toNat
  if y.suppressed || y.mul.point.isSome then none
  else if y.breaks a then some a
  else if isModWord (x.wordFor y a) && y.breaks (a + 4) then some (a + 4)
  else none

/-! ## The attempt (R71) -/

/-- R70, R71: a word is decoded and executed. -/
def runWord (w : W32) (s : State) : Res :=
  match decode w with
  | .ok i => exec i s
  | .error _ => exec (.ill w) s

/-- R71, R54, R338: the current context's next instruction, or the second word of its pair: breakpoints, the fetch, and the word. A
follower fetches nothing, nor does one that ends the entry that was under way when its leader split. A bad PC that no branch delivered reports
PC - 4 in TVAL (DESIGN CHOICE, log entry 107). -/
def runNext (s : State) : Res :=
  let (p, c) := s.cur
  let y := s.me
  let x := s.myPlot
  if y.pair.isSome then runWord y.second s
  else match x.breakAt y with
    | some a => .next (s.trapAt p c .breakpoint (.ofNat 64 a) y.pc false)
    | none =>
      if y.furrow.leader.isSome || y.furrow.resume.isSome then runWord (x.wordFor y y.pc.toNat) s
      else if y.pc.toNat % 4 ≠ 0 then .next (s.trapAt p c .fetchMisalign (y.pc - 4) y.pc false)
      else if 0x1FFC < y.pc.toNat then .next (s.trapAt p c .fetchFault (y.pc - 4) y.pc false)
      else if Sparse.get false x.istoreBad (y.pc.toNat / 4) then
        .next (s.trap .eccUncorrected (.ofNat 64 (2 ^ 62 + y.pc.toNat)))
      else runWord (x.word y.pc.toNat) s

/-! ## Furrows (R197 to R199) -/

/-- R198: an instruction that is not sent to followers: follow, lead, split, tself.f. -/
def notSent (w : W32) : Bool :=
  match decode w with
  | .ok (.follow ..) | .ok .lead | .ok .split | .ok (.tselfF ..) => true
  | _ => false

/-- The instruction of a context has issued: it has retired, or holds its context. -/
def State.hasIssued (s t : State) (p c : Nat) : Bool :=
  decide ((s.plot p).sched.retired < (t.plot p).sched.retired) || ((s.ctx p c).hold.isNone && (t.ctx p c).hold.isSome)

/-- The address at which a context goes on after the instruction it has issued, whatever trap followed. -/
def State.wentTo (s t : State) (p c : Nat) : Word :=
  let y := t.ctx p c
  let after := (s.ctx p c).pc + .ofNat 64 (4 * (s.ctx p c).words)
  if y.hold.isSome || y.ended || !y.live then after
  else match y.hotTrap with
    | some (_, _, epc, _) => epc
    | none => if tsIntrap y.csr.tstat && !tsIntrap (s.ctx p c).csr.tstat then y.csr.epc else y.pc

/-- R64: a modifier's word. -/
def Modifier.word : Modifier → W32
  | .imm p => 0xF8#8 ++ p
  | .vf p => 0xF9#8 ++ p
  | .inv p => 0xFA#8 ++ p
  | .hint p => 0xFB#8 ++ p

/-- R198: what a leader has issued goes to its followers, as it was fetched; what it issues in a trap handler does not. -/
def State.sendRow (s t : State) (p c : Nat) : State :=
  let y := s.ctx p c
  let x := s.plot p
  let ws := match y.pair with
    | some m => [m.word, y.second]
    | none => [x.word y.pc.toNat]
  if !y.furrow.lead || decide (0 < y.handlers) || notSent (ws.getLastD 0) || !s.hasIssued t p c then t
  else
    let e : FurrowEntry := ⟨y.pc, ws, s.wentTo t p c⟩
    y.furrow.followers.foldl (fun t f => t.modCtx f.1 f.2 fun z =>
      if z.furrow.leader.isSome then { z with furrow := { z.furrow with queue := z.furrow.queue ++ [e] } } else z) t

/-- R199: a follower has issued an entry: the entry leaves its queue, and a branch of its own that goes elsewhere splits it. -/
def State.tookEntry (s t : State) (p c : Nat) : State :=
  match (s.ctx p c).furrow.leader, (s.ctx p c).furrow.queue with
  | some _, e :: rest =>
    if (t.ctx p c).furrow.leader.isNone || !s.hasIssued t p c then t
    else
      let t := t.modCtx p c fun z => { z with furrow := { z.furrow with queue := rest } }
      if (t.ctx p c).ended || s.wentTo t p c = e.next then t else t.splitFollower p c 1
  | _, _ => t

/-- R197: a follower's PC is its leader's PC for the entry it takes. -/
def Ctx.atEntry (y : Ctx) : Ctx :=
  match y.furrow.leader, y.furrow.queue with
  | some _, e :: _ => { y with pc := e.pc }
  | _, _ => y

/-- R199: the instruction that was under way when the leader split has retired: fetch resumes where the split said. One that holds its context
retires later (`State.retireTask`). -/
def State.resumed (s t : State) (p c : Nat) : State :=
  if (s.ctx p c).furrow.resume.isSome && (t.ctx p c).hold.isNone && s.hasIssued t p c then t.modCtx p c fun z => z.goTo z.pc else t

/-- The context of an attempt did not issue, and another may have the cycle. -/
def State.stuck (s : State) (p c : Nat) : Bool := (s.ctx p c).block.isSome && (s.ctx p c).pair.isNone

/-- R67, R72: the first cycle of a pair: a pair whose instruction would block blocks as a whole, before it issues. -/
def tryPair (p c : Nat) (s t : State) : State :=
  if (s.ctx p c).pair.isSome || (t.ctx p c).pair.isNone then t
  else match runNext t with
    | .next u => if u.stuck p c then u else t
    | _ => t

/-- R72, R315: the port words that an instruction popped and that now holds its context: they go back if it traps. -/
def State.notePops (s t : State) (p c : Nat) : State :=
  match (s.ctx p c).hold, (t.ctx p c).hold with
  | none, some h =>
    let ws := (List.range 4).flatMap fun d =>
      (((s.plot p).inbound d).take (((s.plot p).inbound d).length - ((t.plot p).inbound d).length)).map fun w => (d, w)
    t.modCtx p c fun y => { y with hold := some { h with popped := ws } }
  | _, _ => t

/-- R182, R67, R198: the next instruction of a context, the second word of its pair, or a follower's entry. -/
def tryNext (p c : Nat) (s : State) : Res :=
  match runNext s with
  | .next t =>
    let t := tryPair p c s t
    .next (s.resumed (s.tookEntry (s.sendRow (s.notePops t p c) p c) p c) p c)
  | r => r

/-- R329, R199: a follower that is stepped splits first, with cause 4. -/
def State.stepSplits (s : State) (p c : Nat) : State :=
  let y := s.ctx p c
  if y.furrow.leader.isSome && dbgStepBit y.csr.dbgctl && !y.sup && y.pair.isNone then s.splitFollower p c 4 else s

/-- R313, R188: a trap that was due is raised at the boundary, and leaves the context as given; the plot keeps the value of the last SPILL-FULL. -/
def State.raiseDue (s : State) (p c : Nat) (k : Cause) (v : Word) (z : Ctx) : State :=
  let s := s.setCtx p c z
  let s := if k = .spillFull then s.modPlot p fun x => { x with sched := { x.sched with lastSpillFull := some v.toNat } } else s
  s.trapAt p c k v z.pc true

/-- One attempt of a context: a trap that waited for the task, one that the debugger delivers, a trap due at the boundary, or its next instruction. A context that is blocked
takes a trap that is due when it would issue (R313, R283). -/
def attempt (p c : Nat) (s : State) : Res :=
  let s := { s with cur := (p, c) }
  let y := s.ctx p c
  match if y.mul.point.isSome then none else y.pendTrap with
  | some (k, v) => .next ((s.modCtx p c fun y => { y with pendTrap := none }).trapAt p c k v y.pc false)
  | none =>
  match y.hotTrap with
  -- R330: `deliver` of a task that was spilled
  | some (k, v, epc, async) => .next ((s.modCtx p c fun y => { y with hotTrap := none }).enterTrap p c k v epc async)
  | none =>
    let s := (s.stepSplits p c).modCtx p c (·.atEntry)
    match s.dueTrap p c, y.block with
    | some (k, v, z), none => .next (s.raiseDue p c k v z)
    | some (k, v, z), some _ =>
      match tryNext p c s with
      | .next t => if t.stuck p c then .next t else .next (s.raiseDue p c k v z)
      | r => r
    | none, _ => tryNext p c s

/-! ## The selector (R182) -/

/-- R182, R198, R185: a context is not kept from an attempt from outside: it holds a task that is not ended, halted or held; a
follower has an entry; a leader's followers have room; its spill has not been chosen, or waits for a pair or for the engine (R139). -/
def State.mayTry (s : State) (p c : Nat) : Bool :=
  let y := s.ctx p c
  y.live && !y.ended && !y.halted && y.hold.isNone && (y.furrow.leader.isNone || !y.furrow.queue.isEmpty) &&
    (y.furrow.followers.all fun f => decide ((s.ctx f.1 f.2).furrow.queue.length < 16)) &&
    ((s.plot p).sched.spilling != some c || y.pair.isSome || (s.plot p).engine.running == some c)

/-- R182: the place of a context in the selector's order: a floor-tick quantum first, then TASKPRI, then ascending cyclic CTXID after
the context that last issued at that priority. Where none has, the order is that after context 0 (log entry 72). -/
def Plot.selKey (x : Plot) (c : Nat) : List Nat :=
  let y := x.ctx c
  let last := Sparse.get 4 x.sched.last y.csr.taskpri
  [if y.quantum.isSome then 0 else 1, 7 - y.csr.taskpri, (c + 7 - last) % 4]

/-- R182, R67: the contexts in the order in which they are tried; a context that owes the second word of a pair is the only one. -/
def State.order (s : State) (p : Nat) : List Nat :=
  let cs := (List.range 4).filter fun c => s.mayTry p c
  match cs.find? fun c => (s.ctx p c).pair.isSome with
  | some c => [c]
  | none => insertSort (fun a b => lexLt ((s.plot p).selKey b) ((s.plot p).selKey a)) cs
where
  /-- insertion into a list: before the first element that `after` puts later -/
  insert (after : Nat → Nat → Bool) (a : Nat) : List Nat → List Nat
    | [] => [a]
    | b :: t => if after b a then a :: b :: t else b :: insert after a t
  /-- a stable sort -/
  insertSort (after : Nat → Nat → Bool) : List Nat → List Nat
    | [] => []
    | a :: t => insert after a (insertSort after t)

/-- R182, R60: the contexts after the one that issues: the next instruction of each is checked in this cycle too. One that would block or
wait is blocked from now on; one that was blocked and could issue no longer is. -/
def probe (p : Nat) : List Nat → State → State
  | [], s => s
  | c :: rest, s =>
    match attempt p c s with
    | .next t =>
      if t.stuck p c then probe p rest { t with cur := s.cur }
      else probe p rest (if (s.ctx p c).block.isSome && !(s.ctx p c).goesOn then s.modCtx p c fun y => { y with block := none, readySince := s.now, issued := false } else s)
    | _ => probe p rest s

/-- R182: contexts are tried in order until one issues. -/
def tryOrder (p : Nat) : List Nat → State → Res
  | [], s => .next s
  | c :: rest, s =>
    match attempt p c s with
    | .next t => if t.stuck p c then tryOrder p rest t else .next (if (t.ctx p c).pair.isSome then t else probe p rest t)
    | r => r

/-- R383, R202, R388: a plot issues: the package is ready, its quantum is not over, and it is awake and swept. -/
def State.issues (s : State) (p : Nat) : Bool :=
  let x := s.plot p
  decide (s.stage = 5) && !x.sched.asleep && !x.sched.sweep && !x.sched.ended && !(x.det && x.quantumOver)

/-- One cycle of a plot (log entry 7). -/
def plotCycle (p : Nat) (s : State) : Res :=
  let s := ((s.noteFollow p).modPlot p (·.refresh s.now)).findLate p
  let r := if s.issues p then tryOrder p (s.order p) s else .next s
  match r with
  | .next t => .next { t with cycle := t.cycle + 1 }
  | r => r

end Sys2Proof.Machine
end

