-- ==== Sys2Proof/Machine/Auto.lean ====
section
/-!
DEFINITION. The model's own order of moves where the state's agenda names none (log entry 7): the first pending event that changes
the state, or else a cycle of the next plot. Events that only time brings (a watchdog, a tick, a summary, a timeout) and those from
outside the package happen only when the agenda names them.
-/

namespace Sys2Proof.Machine

open Sys2Proof

/-- The events that a packet under way can be. -/
def packetMoves : List (Nat → State → Res) :=
  [execHeldAccessResponse, execAwaitAnswer, execLongLatencyResponse, execRemotePortAccess, execBaseDieAccess, execHostRequest, execAmoServe,
   execInvocationArrival, execRawMessageArrival, execAgentListAppend, execDirectoryForward, execDirectoryMapUpdate, execChannelBlockRequest,
   execTlbInvalidate] ++
  [execSettlementArrival, execAcceptanceNotice, execChainRegistration, execChainCollapse, execAwaitRequest, execHstatRequest,
   execFollowJoin, execHeadgateRequest, execHeadgateGrant, execHeadgateRelease, execHandoverGrant, execHgbindChange, execBarrierArrival] ++
  [execWeirPut, execPutRedirect, execAnnouncement, execAnnouncementAck, execWeirTake, execWeirPeek, execWeirStat, execWeirCfg,
   execSummaryArrival, execMoveArrival, execPull, execPullAnswer, execEmptinessCollect, execCollectAnswer] ++
  [execFlumeAccept, execPutsSignal, execCopyComplete, execCopyFailed, execCollRequest, execCollwRequest, execChunkArrival, execCommBreakNotice]

/-- The events of a plot. -/
def plotMoves (s : State) (p : Nat) : List (State → Res) :=
  [execSpillComplete p, execTaskStart p, execRestore p, execSpill p, execEngineGrant p, execTranslationComplete p 0, execQuantumEnd p] ++
  (List.range 4).flatMap (fun c => [execContextFree p c, execMulticycleResult p c 0, execSleepWake p c, execPortWordTransfer p c]) ++
  (List.range (s.plot p).sched.images.length).map (fun k => execSleepWake p (4 + k)) ++
  (s.plot p).records.flatMap fun r => [execRecordQueueEntry p r.1, execRecordFree p r.1]

/-- The events of the other units and of the host's side. -/
def unitMoves (s : State) : List (State → Res) :=
  (List.range 16).flatMap (fun f => execAgentReturn f 0 :: (List.range 16).map fun k => execBarrierRelease f k) ++
  (List.range (s.parked.length + s.parkedPort.length)).map execParkedRequestServe ++
  (List.range s.resend.length).map execRequestResend ++
  (List.range 24).flatMap (fun f => (List.range 4).map fun k => execCopyPiece f k) ++
  s.comms.map (fun c => execCollAccept c.1) ++ (List.range s.steps.length).map execChunkTakeup ++
  (List.range s.host.parts.length).map execQuantumApply ++
  (List.range (s.host.cxl.length + s.link.spills.length)).map execCxlCompletion

/-- What the link, the host and the debugger have asked for. -/
def outerMoves (s : State) : List (State → Res) :=
  (List.range s.link.rx.length).flatMap (fun k => [execLintilData k, execLintilAck k, execLintilNack k, execLintilOpen k, execLintilOpenAck k,
    execLintilClose k, execPauseFrameReceive k, execLintilUnknownKind k]) ++
  (List.range s.host.ops.length).flatMap (fun k => [execHostWindowRead k, execHostWindowWrite k, execHostInvoke k, execRelease k,
    execGetVersion k, execGetCapabilities k, execNegotiateAlgorithms k, execGetDigests k, execGetCertificate k, execChallenge k,
    execGetMeasurements k]) ++
  [execPartCreate, execPartDestroy, execPartSetdet, execPartSetcont, execCommSet, execWindowMap, execImageLoad, execResync, execPortCfg,
   execPowerCap, execEvqSet, execPkgId, execStartupStageComplete] ++
  (List.range s.dbgOps.length).flatMap fun k => [execDebugHalt k, execDebugResume k, execDebugDeliver k, execDebugStep k, execDebugRegRead k,
    execDebugRegWrite k, execDebugCsrRead k, execDebugCsrWrite k, execDebugBufferRead k, execDebugBufferWrite k, execDebugSnapshot k,
    execDebugIstoreWrite k, execDebugTemplateWrite k]

/-- The first move of a list that changes the state. -/
def firstChange : List (State → Res) → State → Option Res
  | [], _ => none
  | f :: rest, s =>
    match f s with
    | .next t => if t = s then firstChange rest s else some (.next t)
    | r => some r

/-- The pending moves, in the model's order. -/
def pending (s : State) : List (State → Res) :=
  (List.range s.net.length).flatMap (fun k => packetMoves.map fun f => f k) ++ (s.plots.map (·.1)).flatMap (plotMoves s) ++ unitMoves s ++
    outerMoves s

/-- A step without an agenda. With no plot that anything has touched, the package idles for a cycle. -/
def autoMove (s : State) : Res :=
  match firstChange (pending s) s with
  | some r => r
  | none =>
    match (s.plots.map (·.1))[s.now % s.plots.length]? with
    | some p => plotCycle p s
    | none => .next { s with cycle := s.cycle + 1 }

/-- A move of the agenda. -/
def runMove (s : State) : Move → Res
  | .event i => exec i s
  | .plot p => if decide (p < 2 ^ 20) && plotOk p then plotCycle p s else .fault (.noSuchPlot p)
  | .wait n => .next { s with cycle := s.cycle + .ofNat 64 n }

/-- A plot whose only task is in context 0, at address 0, with nothing to keep it from issuing, and with the words given at
address 0. -/
def Plot.holding (x : Plot) (ws : List W32) : Plot :=
  let y := x.ctx 0
  { x with
    ctxs := Sparse.set Ctx.empty [] 0 { y with
      live := true, ended := false, pc := 0, pair := none, multi := [], second := 0, hold := none, block := none, due := ⟨none, [], none⟩, copies := []
      furrow := Furrow.none, halted := false, bsup := false, pendTrap := none, hotTrap := none, mul := MulWork.none, csr := { y.csr with dbgctl := 0 } }
    istore := Sparse.setN 0 x.istore 0 ws
    istoreBad := []
    sched := { x.sched with spilling := none, retired := 0, ended := false, asleep := false, sweep := false } }

end Sys2Proof.Machine
end

