-- ==== Sys2Proof/Machine/Step.lean ====
section
/-!
DEFINITION. The step, and the placing of an instruction where the next step fetches.
-/

namespace Sys2Proof.Machine

open Sys2Proof

/-- One step: the first move of the agenda; without one, the model's own order (log entry 7). -/
def step (s : State) : Host.Outcome State Fault Refusal :=
  match s.agenda with
  | m :: rest => runMove { s with agenda := rest } m
  | [] => autoMove s

/-- `s` with an instruction placed for the next step: the package is ready (R383), the next move is a cycle of plot 0, and its context 0
holds a task at address 0 of the instruction store, where the instruction's words stand (log entry 19). -/
def State.withFetchWord (s : State) (nbits w : Nat) : State :=
  { s.modPlot 0 fun x => x.holding [.ofNat 32 (w % 2 ^ nbits), 0] with stage := 5, agenda := [.plot 0] }

end Sys2Proof.Machine
end

