-- ==== Sys2Proof/Safety.lean ====
section
/-!
DEFINITION. What a safe run is, and the terms in which claims say what a step leaves.
-/

namespace Sys2Proof.Machine

open Sys2Proof

/-! ## Invariants -/

/-- Every table of the memories is in its canonical form. -/
def Memory.wf (m : Memory) : Bool :=
  Sparse.wf 0 m.hbm && Sparse.wf false m.fe && Sparse.wf false m.bad && Sparse.wf false m.gate && Sparse.wf 0 m.host

/-- R383: the start-up stage is one of the five. -/
def State.stageLegal (s : State) : Prop := 1 ≤ s.stage ∧ s.stage ≤ 5

/-- What every state of a run keeps. -/
def State.Inv (s : State) : Prop := s.mem.wf = true ∧ s.stageLegal

/-- A run is safe when no number of steps ends in a fault or a refusal. -/
def State.neverStops (s : State) : Prop := ∀ k, ∃ t, Host.Core.run core k s = .next t

/-! ## What a step leaves -/

/-- The sources and destinations of an instruction pass the checks of an issue attempt: sources full, no destination pending, room
at the ports, no poison (R59 to R61, R75, R79, R338). -/
abbrev Ready (s : State) (srcs : List Src) (dsts : List Nat) : Prop := checkRegs s srcs dsts = .ok ()

/-- A g register as a source. -/
abbrev gs (r : BitVec 6) (t : Bool) : Src := ⟨regG r, t⟩

/-- Nothing changes outside the current plot, nor in it outside the current context, the scheduler's record of issue and the outbound
port queues. -/
structure OnlyMe (s t : State) : Prop where
  package : t = { s with plots := t.plots }
  plots : ∀ q, q ≠ s.cur.1 → t.plot q = s.plot q
  plot : t.plot s.cur.1 = { s.plot s.cur.1 with
    ctxs := (t.plot s.cur.1).ctxs, sched := (t.plot s.cur.1).sched, outq := (t.plot s.cur.1).outq }
  sched : (t.plot s.cur.1).sched = { (s.plot s.cur.1).sched with
    last := (t.plot s.cur.1).sched.last, retired := (s.plot s.cur.1).sched.retired + s.me.words }
  ctxs : ∀ c, c ≠ s.cur.2 → t.ctx s.cur.1 c = s.ctx s.cur.1 c

/-- The registers of the current context beside one. -/
structure OtherRegs (s t : State) (r : Nat) : Prop where
  values : ∀ q, q ≠ r → t.me.regs.gv q = s.me.regs.gv q
  vectors : ∀ q, 64 + q ≠ r → t.me.regs.vv q = s.me.regs.vv q
  records : ∀ q, 80 + q ≠ r → t.me.regs.sv q = s.me.regs.sv q
  full : ∀ q, q ≠ r → t.me.regs.isEmpty q = s.me.regs.isEmpty q

/-- The current instruction has retired to an address, with a value for a g register or port and no other effect: g0 discards it
(R59), a port queues it (R61). TSTAT changes as R310 and R312 say. -/
structure WroteTo (s t : State) (r : Nat) (w pc : Word) : Prop where
  only : OnlyMe s t
  others : OtherRegs s t r
  value : r ≠ 0 → r < 60 → t.me.regs.gv r = w ∧ t.me.regs.isEmpty r = false
  zero : t.me.regs.gv 0 = 0
  port : 60 ≤ r → r < 64 → t.myPlot.outbound (r - 60) = s.myPlot.outbound (r - 60) ++ [⟨s.serial, some w⟩]
  ports : ∀ d, 60 + d ≠ r → t.myPlot.outbound d = s.myPlot.outbound d
  ctx : t.me = { s.me.retired with pc := pc, regs := t.me.regs, issued := true, lastIssue := s.now }

/-- The address after the current instruction or pair (R54). -/
def State.nextPc (s : State) : Word := s.me.pc + .ofNat 64 (4 * s.me.words)

/-- The current instruction has retired to the next one, with a value for a g register or port and no other effect. -/
abbrev Wrote (s t : State) (r : Nat) (w : Word) : Prop := WroteTo s t r w s.nextPc

/-- The current instruction has retired with no effect but its own advance, at an address. -/
structure Went (s t : State) (pc : Word) : Prop where
  only : OnlyMe s t
  ports : t.myPlot.outq = s.myPlot.outq
  ctx : t.me = { s.me.retired with pc := pc, issued := true, lastIssue := s.now }

end Sys2Proof.Machine
end

