-- ==== Sys2Proof/Certificates/Slice0/Obligations.lean ====
section
/-!
DEFINITION. The statements for the provers, and the words they are made in.
-/

namespace Sys2Proof.Claims

open Sys2Proof Sys2Proof.Machine

/-! ## Words of the statements -/

/-- The values of two g sources, a before b, and the state after they have been read (R60, R61). -/
def src2 (s : State) (a b : BitVec 6) : Word × Word × State :=
  let r := s.takeG (regG a)
  let q := r.2.takeG (regG b)
  (r.1, q.1, q.2)

/-- The truth value of a comparison. -/
def truth (p : Prop) [Decidable p] : Word := if p then 1 else 0

/-- R7: the word of a byte of a buffer: 0b11, the PLOTID, the buffer, eight zeros, the offset. -/
def bufferWord (buf : BitVec 2) (x y : Word) : Word :=
  (3#2 ++ x.extractLsb' 0 36 ++ buf ++ 0#8 ++ y.extractLsb' 0 16).setWidth 64

/-- R76, R85: the instructions of two sources and one result, and the result. -/
def twoSource (h : BitVec 3) : List ((BitVec 6 → BitVec 6 → BitVec 6 → Bool → Bool → Instr) × (Word → Word → Word)) :=
  [(.and, fun x y => x &&& y), (.or, fun x y => x ||| y), (.xor, fun x y => x ^^^ y), (.andn, fun x y => x &&& ~~~y),
   (.orn, fun x y => x ||| ~~~y), (.xnor, fun x y => ~~~(x ^^^ y)),
   (.sll, fun x y => x <<< (y &&& 63#64)), (.srl, fun x y => x >>> (y &&& 63#64)), (.sra, fun x y => x.sshiftRight (y.toNat % 64)),
   (.rol, fun x y => x.rotateLeft y.toNat), (.ror, fun x y => x.rotateRight y.toNat),
   (.slt, fun x y => truth (x.toInt < y.toInt)), (.sltn, fun x y => truth (x.toNat < y.toNat)),
   (.seq, fun x y => truth (x = y)), (.sne, fun x y => truth (x ≠ y)),
   (.min, fun x y => if x.toInt ≤ y.toInt then x else y), (.max, fun x y => if x.toInt ≤ y.toInt then y else x),
   (.minn, fun x y => if x.toNat ≤ y.toNat then x else y), (.maxn, fun x y => if x.toNat ≤ y.toNat then y else x)] ++
  [(fun d a b t u => .lea d a b t u h, fun x y => x + y * .ofNat 64 (2 ^ h.toNat)),
   (.leaA, bufferWord 0), (.leaW, bufferWord 1), (.leaC, bufferWord 2)]

/-- R72, R64: the immediate of ADDI, ANDI, ORI and XORI. -/
def imm (m : Option Modifier) (i : BitVec 13) : Word :=
  match m with
  | some (.imm p) => (p ++ i).signExtend 64
  | _ => i.signExtend 64

/-- Element `e` of `w` bits of a word. -/
def elem (w e : Nat) (x : Word) : Nat := x.toNat / 2 ^ (w * e) % 2 ^ w

/-- R29: a count of a non-zero element of `w` bits, told by what it counts. -/
def counts (w : Nat) (x r : Word) (p : Nat → Nat → Prop) : Prop := ∀ e, e < 64 / w → p (elem w e x) (elem w e r)

/-- R29: CLZ: the bit below the leading zeros is the highest that is set. -/
def isClz (w x n : Nat) : Prop := if x = 0 then n = w else n < w ∧ 2 ^ (w - 1 - n) ≤ x ∧ x < 2 ^ (w - n)

/-- R29: CTZ. -/
def isCtz (w x n : Nat) : Prop := if x = 0 then n = w else x.testBit n = true ∧ ∀ i, i < n → x.testBit i = false

/-- R29: FFS. -/
def isFfs (x n : Nat) : Prop := if x = 0 then n = 0 else 0 < n ∧ x.testBit (n - 1) = true ∧ ∀ i, i < n - 1 → x.testBit i = false

/-- R29: POPC. -/
def isPopc (w x n : Nat) : Prop := n = ((List.range w).map fun i => x / 2 ^ i % 2).sum

/-- R76, R80 to R83: the instructions of one source and one result, and what the result is. -/
def oneSource (w : BitVec 2) (i : BitVec 13) (j : BitVec 12) (h l : BitVec 6) :
    List ((BitVec 6 → BitVec 6 → Bool → Instr) × (Option Modifier → Word → Word → Prop)) :=
  [(fun d a t => .addi d a t i, fun m x r => r = x + imm m i), (fun d a t => .andi d a t i, fun m x r => r = x &&& imm m i),
   (fun d a t => .ori d a t i, fun m x r => r = x ||| imm m i), (fun d a t => .xori d a t i, fun m x r => r = x ^^^ imm m i),
   (fun d a t => .slti d a t j, fun _ x r => r = truth (x.toInt < (j.signExtend 64).toInt)),
   (fun d a t => .sltni d a t j, fun _ x r => r = truth (x.toNat < (j.signExtend 64).toNat)),
   (fun d a t => .slli d a t h, fun _ x r => r = x <<< h.toNat), (fun d a t => .srli d a t h, fun _ x r => r = x >>> h.toNat),
   (fun d a t => .srai d a t h, fun _ x r => r = x.sshiftRight h.toNat), (fun d a t => .rori d a t h, fun _ x r => r = x.rotateRight h.toNat),
   (fun d a t => .exti d a t h l, fun _ x r => r.toNat = x.toNat / 2 ^ h.toNat % 2 ^ (l.toNat + 1)),
   (.brev, fun _ x r => ∀ k, k < 64 → r.getLsbD k = x.getLsbD (63 - k)),
   (.bswap, fun _ x r => ∀ k, k < 8 → elem 8 k r = elem 8 (7 - k) x)] ++
  [(fun d a t => .clz d a t w, fun _ x r => counts (8 * 2 ^ w.toNat) x r (isClz (8 * 2 ^ w.toNat))),
   (fun d a t => .ctz d a t w, fun _ x r => counts (8 * 2 ^ w.toNat) x r (isCtz (8 * 2 ^ w.toNat))),
   (fun d a t => .ffs d a t w, fun _ x r => counts (8 * 2 ^ w.toNat) x r isFfs),
   (fun d a t => .popc d a t w, fun _ x r => counts (8 * 2 ^ w.toNat) x r (isPopc (8 * 2 ^ w.toNat)))]

/-- R76, R78: the sums and differences: element width, and whether it is a difference. -/
def sums (w : BitVec 2) : List ((BitVec 6 → BitVec 6 → BitVec 6 → Bool → Bool → Instr) × Nat × Bool) :=
  [(.add, 64, false), (.sub, 64, true), (fun d a b t u => .padd d a b t u w, 8 * 2 ^ w.toNat, false),
   (fun d a b t u => .psub d a b t u w, 8 * 2 ^ w.toNat, true)]

/-- A code of `w` bits as a number, two's complement unless `uns`. -/
def valueOf (w : Nat) (uns : Bool) (x : Nat) : Int := if uns = false ∧ 2 ^ (w - 1) ≤ x then (x : Int) - 2 ^ w else x

/-- R26: the least and the greatest number of `w` bits. -/
def least (w : Nat) (uns : Bool) : Int := if uns then 0 else -(2 ^ (w - 1))
/-- R26 -/
def greatest (w : Nat) (uns : Bool) : Int := if uns then 2 ^ w - 1 else 2 ^ (w - 1) - 1

/-- R78: the exact sum or difference of two elements, clamped under sat. -/
def exactSum (w : Nat) (minus uns : Bool) (x y : Nat) : Int :=
  if minus then valueOf w uns x - valueOf w uns y else valueOf w uns x + valueOf w uns y

/-- R76: mul, mulh, mulhn, mulhsn: the product and whether its high half is meant. -/
def products : List ((BitVec 6 → BitVec 6 → BitVec 6 → Bool → Bool → Instr) × (Word → Word → Word)) :=
  [(.mul, fun x y => x * y), (.mulh, fun x y => .ofInt 64 (x.toInt * y.toInt / 2 ^ 64)),
   (.mulhn, fun x y => .ofNat 64 (x.toNat * y.toNat / 2 ^ 64)), (.mulhsn, fun x y => .ofInt 64 (x.toInt * y.toNat / 2 ^ 64))]

/-- R76, R28: div, divn, rem, remn. -/
def quotients : List ((BitVec 6 → BitVec 6 → BitVec 6 → Bool → Bool → Instr) × (Word → Word → Word)) :=
  [(.div, fun x y => if y = 0 then BitVec.allOnes 64 else .ofInt 64 (x.toInt.tdiv y.toInt)),
   (.divn, fun x y => if y = 0 then BitVec.allOnes 64 else .ofNat 64 (x.toNat / y.toNat)),
   (.rem, fun x y => if y = 0 then x else .ofInt 64 (x.toInt.tmod y.toInt)), (.remn, fun x y => if y = 0 then x else .ofNat 64 (x.toNat % y.toNat))]

/-- R86: the branches and when they are taken. -/
def branches : List ((BitVec 6 → BitVec 6 → Bool → Bool → BitVec 12 → Instr) × (Word → Word → Prop)) :=
  [(.beq, fun x y => x = y), (.bne, fun x y => x ≠ y), (.blt, fun x y => x.toInt < y.toInt), (.bge, fun x y => y.toInt ≤ x.toInt),
   (.bltn, fun x y => x.toNat < y.toNat), (.bgen, fun x y => y.toNat ≤ x.toNat)]

/-- R54: a target that the front end accepts. -/
def goodTarget (t : Word) : Prop := t.toNat % 4 = 0 ∧ t.toNat ≤ 0x1FFC

/-- R54: the trap of a target: EPC is the target, TVAL the address of the branch. -/
def badTarget (s : State) (t from_ : Word) : State :=
  s.trapAt s.cur.1 s.cur.2 (if t.toNat % 4 ≠ 0 then .fetchMisalign else .fetchFault) from_ t false

end Sys2Proof.Claims

open Sys2Proof Sys2Proof.Machine

/-! ## Words and instructions -/

/-- R55, R70: decoding an encoded well-formed instruction gives it back. -/
def Obligations.DecodeEncode : Prop :=
  ∀ (i : Instr) (w : W32), i.wf = true → encode i = some w → decode w = .ok i

/-- R70: a word that decodes is the encoding of one well-formed instruction: no bit of it is left out. -/
def Obligations.EncodeDecode : Prop :=
  ∀ (w : W32) (i : Instr), decode w = .ok i → i.wf = true ∧ encode i = some w

/-- R70: no word has the fixed fields of two rows of the opcode table. -/
def Obligations.RowsDisjoint : Prop :=
  rows.Pairwise fun r q => ∀ w : Nat, ¬ (r.fits w = true ∧ q.fits w = true)

/-! ## Sources and scalar instructions -/

/-- R59, R61: what reading a g source does: g0 is zero, a register below 60 is read and nothing changes, and a port gives the oldest
word of its queue and pops it, with nothing else changed. -/
def Obligations.SourceIsRead : Prop :=
  ∀ (s : State) (r : Nat),
    (r = 0 → s.takeG r = (0, s)) ∧ (0 < r → r < 60 → s.takeG r = (Sparse.get 0 s.me.regs.g r, s)) ∧
    ∀ w rest, 60 ≤ r → r < 64 → s.myPlot.inbound (r - 60) = w :: rest →
      (s.takeG r).1 = w ∧ (s.takeG r).2.myPlot.inbound (r - 60) = rest ∧
      (∀ d, d ≠ r - 60 → (s.takeG r).2.myPlot.inbound d = s.myPlot.inbound d) ∧
      (s.takeG r).2.myPlot = { s.myPlot with inq := (s.takeG r).2.myPlot.inq } ∧
      (∀ q, q ≠ s.cur.1 → (s.takeG r).2.plot q = s.plot q) ∧ (s.takeG r).2 = { s with plots := (s.takeG r).2.plots }

/-- R76, R77, R85: and, or, xor, andn, orn, xnor, the shifts and rotations, the comparisons, min and max, lea and the BADDRs: ready
operands give the result of the table, and the instruction retires with no other effect. -/
def Obligations.TwoSourceResult : Prop :=
  ∀ (h : BitVec 3), ∀ f ∈ Claims.twoSource h, ∀ (s : State) (d a b : BitVec 6) (t u : Bool), Ready s [gs a t, gs b u] [regG d] →
    ∃ r, exec (f.1 d a b t u) s = .next r ∧
      Wrote (Claims.src2 s a b).2.2 r (regG d) (f.2 (Claims.src2 s a b).1 (Claims.src2 s a b).2.1)

/-- R29, R76, R80 to R83: the immediate forms, exti, brev, bswap and the counting forms, each element on its own. -/
def Obligations.OneSourceResult : Prop :=
  ∀ (w : BitVec 2) (i : BitVec 13) (j : BitVec 12) (h l : BitVec 6), ∀ f ∈ Claims.oneSource w i j h l,
    ∀ (s : State) (d a : BitVec 6) (t : Bool), Ready s [gs a t] [regG d] →
      ∃ r v, exec (f.1 d a t) s = .next r ∧ f.2 s.me.pair (s.takeG (regG a)).1 v ∧ Wrote (s.takeG (regG a)).2 r (regG d) v

/-- R77, R83: csel takes a if the old G[d] is not 0, else b; insi replaces the bits pos to pos + len - 1 of G[d] by the low bits of a
and keeps the others. Neither writes a port (R77, R83: such words are ILLEGAL). -/
def Obligations.ThirdSourceResult : Prop :=
  ∀ (s : State) (d a b : BitVec 6) (t u : Bool) (p l : BitVec 6), d.toNat < 60 →
    (Ready s [gs a t, gs b u, gs d false] [regG d] →
      ∃ r, exec (.csel d a b t u) s = .next r ∧ Wrote (Claims.src2 s a b).2.2 r (regG d)
        (if s.me.regs.gv (regG d) ≠ 0 then (Claims.src2 s a b).1 else (Claims.src2 s a b).2.1)) ∧
    (Ready s [gs a t, gs d false] [regG d] → p.toNat + l.toNat < 64 →
      ∃ r v, exec (.insi d a t p l) s = .next r ∧ Wrote (s.takeG (regG a)).2 r (regG d) v ∧
        ∀ k, k < 64 → v.getLsbD k = if p.toNat ≤ k ∧ k ≤ p.toNat + l.toNat then (s.takeG (regG a)).1.getLsbD (k - p.toNat)
          else (s.me.regs.gv (regG d)).getLsbD k)

/-- R27, R78: add, sub, padd and psub wrap each element, or under sat clamp its exact sum or difference to the range of its width;
SAT is raised exactly if a clamp changed a value. -/
def Obligations.SumResult : Prop :=
  ∀ (w : BitVec 2), ∀ f ∈ Claims.sums w, ∀ (s : State) (d a b : BitVec 6) (t u : Bool), Ready s [gs a t, gs b u] [regG d] →
    ∃ v fl, exec (f.1 d a b t u) s =
        .next ((((Claims.src2 s a b).2.2.setG (regG d) v).raise s.cur.1 s.cur.2 fl).retire) ∧
      let m := modVf s.me.pair
      let sum := fun e => Claims.exactSum f.2.1 f.2.2 m.uns (Claims.elem f.2.1 e (Claims.src2 s a b).1) (Claims.elem f.2.1 e (Claims.src2 s a b).2.1)
      (∀ e, e < 64 / f.2.1 → (Claims.elem f.2.1 e v : Int) =
        (if m.sat then max (Claims.least f.2.1 m.uns) (min (sum e) (Claims.greatest f.2.1 m.uns)) else sum e) % 2 ^ f.2.1) ∧
      ((m.sat = true ∧ ∃ e, e < 64 / f.2.1 ∧ (sum e < Claims.least f.2.1 m.uns ∨ Claims.greatest f.2.1 m.uns < sum e)) → fl = 32) ∧
      (¬ (m.sat = true ∧ ∃ e, e < 64 / f.2.1 ∧ (sum e < Claims.least f.2.1 m.uns ∨ Claims.greatest f.2.1 m.uns < sum e)) → fl = 0)

/-- R76, R79, R28: the products and quotients: the instruction retires, and its result waits to be written: to g0 a product is
nowhere; a division holds the divider. -/
def Sys2Proof.Stated.LateResult : Prop :=
  ∀ (s : State) (d a b : BitVec 6) (t u : Bool), Ready s [gs a t, gs b u] [regG d] →
    let q := Claims.src2 s a b
    (∀ f ∈ Claims.products, exec (f.1 d a b t u) s =
      .next (if d = 0 then q.2.2 else q.2.2.later (regG d) ((f.2 q.1 q.2.1).setWidth 256) false).retire) ∧
    (s.myPlot.divBusy = none → ∀ f ∈ Claims.quotients, exec (f.1 d a b t u) s =
      .next ((q.2.2.modPlot s.cur.1 fun x => { x with divBusy := some s.cur.2 }).later (regG d) ((f.2 q.1 q.2.1).setWidth 256) true).retire)

/-- R79, R59, R61: a multi-cycle result is written: to its g, v or s register, which is full and holds it, or to its slot of an outbound queue;
to g0 it is written nowhere. The other registers and slots are as they were, the context waits for it no longer, and a division gives the
divider back. -/
def Obligations.LateResultIsWritten : Prop :=
  ∀ (s : State) (p c k : Nat) (m : Multi), (s.ctx p c).multi[k]? = some m →
    ∃ t, exec (.multicycleResult p c k) s = .next t ∧
      let x := s.ctx p c
      let y := t.ctx p c
      let port := 60 ≤ m.reg ∧ m.reg < 64
      (0 < m.reg → m.reg < 60 → y.regs.gv m.reg = m.val.setWidth 64) ∧ (64 ≤ m.reg → m.reg < 80 → y.regs.vv (m.reg - 64) = m.val) ∧
      (80 ≤ m.reg → y.regs.sv (m.reg - 80) = m.val.setWidth 128) ∧ (m.reg ≠ 0 → ¬ port → y.regs.isEmpty m.reg = false) ∧
      (m.reg = 0 ∨ port → y.regs = x.regs) ∧
      (∀ r, r ≠ m.reg → y.regs.gv r = x.regs.gv r ∧ y.regs.isEmpty r = x.regs.isEmpty r) ∧
      (∀ r, r + 64 ≠ m.reg → y.regs.vv r = x.regs.vv r) ∧ (∀ r, r + 80 ≠ m.reg → y.regs.sv r = x.regs.sv r) ∧
      (port → (t.plot p).outbound (m.reg - 60) = ((s.plot p).outbound (m.reg - 60)).map fun e =>
        if e.id = m.slot ∧ e.word = none then { e with word := some (m.val.setWidth 64) } else e) ∧
      (∀ d, d + 60 ≠ m.reg → d < 4 → (t.plot p).outbound d = (s.plot p).outbound d) ∧
      y = { x with multi := x.multi.eraseIdx k, regs := y.regs } ∧ (t.plot p).divBusy = (if m.div then none else (s.plot p).divBusy) ∧
      (∀ q, q ≠ p → t.plot q = s.plot q) ∧ (∀ j, j ≠ c → t.ctx p j = s.ctx p j) ∧ t.mem = s.mem

/-- R28: quotient and remainder of two codes of `w` bits. -/
def Sys2Proof.Stated.DivisionTable : Prop :=
  ∀ (w : Nat) (signed : Bool) (x y : Nat), 0 < w → x < 2 ^ w → y < 2 ^ w →
    (y = 0 → divCode w signed x y = (2 ^ w - 1, x)) ∧
    (signed = true → x = 2 ^ (w - 1) → y = 2 ^ w - 1 → 1 < w → divCode w signed x y = (x, 0)) ∧
    (y ≠ 0 → signed = false → divCode w signed x y = (x / y, x % y)) ∧
    (y ≠ 0 → signed = true → ((divCode w signed x y).1 : Int) = (toInt w true x).tdiv (toInt w true y) % 2 ^ w ∧
      ((divCode w signed x y).2 : Int) = (toInt w true x).tmod (toInt w true y) % 2 ^ w)

/-! ## Branches, calls and tasks -/

/-- R54, R86: a branch: taken, it retires and goes to its target, or traps with EPC the target and TVAL its own address if the target
is bad; not taken, it retires to the next instruction. -/
def Sys2Proof.Stated.BranchGoes : Prop :=
  ∀ f ∈ Claims.branches, ∀ (s : State) (a b : BitVec 6) (t u : Bool) (i : BitVec 12), Ready s [gs a t, gs b u] [] →
    let q := Claims.src2 s a b
    let target := s.ipc + (i.signExtend 64) * 4
    (¬ f.2 q.1 q.2.1 → ∃ r, exec (f.1 a b t u i) s = .next r ∧ Went q.2.2 r q.2.2.nextPc) ∧
    (f.2 q.1 q.2.1 → Claims.goodTarget target → ∃ r, exec (f.1 a b t u i) s = .next r ∧ Went q.2.2 r target) ∧
    (f.2 q.1 q.2.1 → ¬ Claims.goodTarget target → ∃ r, exec (f.1 a b t u i) s = .next (Claims.badTarget r target s.ipc) ∧ Went q.2.2 r target)

/-- R54, R87: jal and jalr write the address after them to the link and go to their target; a bad target traps with the link kept. -/
def Sys2Proof.Stated.JumpGoes : Prop :=
  ∀ (s : State) (d a : BitVec 6) (t : Bool) (i : BitVec 13) (j : BitVec 20),
    (Ready s [] [regG d] →
      let target := s.ipc + (j.signExtend 64) * 4
      ∃ r, WroteTo s r (regG d) (s.ipc + 4) target ∧
        (Claims.goodTarget target → exec (.jal d j) s = .next r) ∧
        (¬ Claims.goodTarget target → exec (.jal d j) s = .next (Claims.badTarget r target s.ipc))) ∧
    (Ready s [gs a t] [regG d] →
      let q := s.takeG (regG a)
      let target := q.1 + i.signExtend 64
      ∃ r, WroteTo q.2 r (regG d) (s.ipc + 4) target ∧
        (Claims.goodTarget target → exec (.jalr d a t i) s = .next r) ∧
        (¬ Claims.goodTarget target → exec (.jalr d a t i) s = .next (Claims.badTarget r target s.ipc)))

/-! ## The machine -/

namespace Sys2Proof.Claims

open Sys2Proof Sys2Proof.Machine

/-- The state in which a plot's cycle begins, and its selected context with the others to try after it (R182). -/
structure Selected (s : State) (p c : Nat) (rest : List Nat) : Prop where
  plot : p < 2 ^ 20 ∧ plotOk p = true
  issues : s.issues p = true
  order : s.order p = c :: rest
  quiet : (s.ctx p c).pendTrap = none ∧ (s.ctx p c).hotTrap = none ∧
    ((s.ctx p c).takesDue = false ∨ ∀ est, (s.ctx p c).boundary (s.passed (s.plotId p) (s.ctx p c).csr.taskid) est = none)
  alone : (s.ctx p c).furrow.leader = none ∧ (s.ctx p c).furrow.lead = false ∧ (s.ctx p c).furrow.resume = none

/-- R71: a context outside a pair fetches the word at its PC: no breakpoint matches, the PC is good, and the store reads right. -/
structure Fetches (s : State) (p c : Nat) (w : W32) : Prop where
  pair : (s.ctx p c).pair = none
  noBreak : (s.plot p).breakAt (s.ctx p c) = none
  good : (s.ctx p c).pc.toNat % 4 = 0 ∧ (s.ctx p c).pc.toNat ≤ 0x1FFC
  sound : Sparse.get false (s.plot p).istoreBad ((s.ctx p c).pc.toNat / 4) = false
  word : (s.plot p).word (s.ctx p c).pc.toNat = w

/-- R67: a context inside a pair goes on with the second word. -/
def Second (s : State) (p c : Nat) (w : W32) : Prop :=
  (s.ctx p c).pair.isSome = true ∧ (s.ctx p c).second = w

/-- R70: the instruction of a word; a word that decodes to none is executed as such. -/
def instrOf (w : W32) : Instr := match decode w with
  | .ok i => i
  | .error _ => .ill w

end Sys2Proof.Claims

/-- R97, R99, R178, R201, R205, R306, R333, R382, R383: right after reset the package has ended stage 3 (the model's choice of the moment,
log entry 1), CYCLE is 0, no packet is under way, HBM is zero with every sector full, and every plot is idle: tenant 0, no context holds
a task, buffers zero and full, no record, object, queue or live group, every channel disabled, TVEC.EN = 0, DETQ = 4,096.
The moment taken as reset is the model's choice (DEDUCED, log entry 1); values the spec does not give are not stated. -/
def Obligations.ResetState : Prop :=
  State.reset.stage = 3 ∧ State.reset.cycle = 0 ∧ State.reset.net = [] ∧ State.reset.Inv ∧
  (∀ t, Sparse.get 0 State.reset.mem.hbm t = 0 ∧ Sparse.get false State.reset.mem.fe t = false) ∧
  (∀ p, let x := State.reset.plot p
    x.tenant = 0 ∧ (∀ c, (x.ctx c).live = false ∧ (x.ctx c).csr.vfmt = 4 ∧ (x.ctx c).csr.fpcsr = 0) ∧
    (∀ b o, x.bufs.byte b o = 0 ∧ x.bufs.wordEmpty b o = false) ∧ (∀ r, (x.rec_ r).st = .free ∧ (x.rec_ r).gen = 0) ∧
    (∀ k, (x.chan k).en = false ∧ x.queue k = [] ∧ (x.obj k).v = false) ∧ (∀ t, (x.group t).live = false ∧ x.base t = t) ∧
    bitw x.csr.tvec 63 = false ∧ x.csr.detctl = 0 ∧ x.csr.detq = 4096 ∧ x.csr.pcont = 0 ∧ x.csr.sqstat = 0 ∧
    (∀ k, (Sparse.get Thr.reset x.thr k).lim = 0)) ∧
  State.reset.host.parts = [] ∧ State.reset.link.ethertype = 0x88B5

/-- What every step keeps, whatever the state: the canonical form of every memory table, and a legal start-up stage (R383).
The canonical form is the model's own way of holding memory. -/
def Obligations.StepKeepsInv : Prop :=
  ∀ s t : State, s.Inv → step s = .next t → t.Inv

/-- Every instruction and event has a next state, in every state: only a state that names a plot that does not exist (R3) stops a
step. -/
def Obligations.StepsGoOn : Prop :=
  (∀ (i : Instr) (s : State), ∃ t, exec i s = .next t) ∧
  ∀ (s : State), (∃ t, step s = .next t) ∨ ∃ p rest, s.agenda = .plot p :: rest ∧ (2 ^ 20 ≤ p ∨ plotOk p = false) ∧ step s = .fault (.noSuchPlot p)

/-- A cycle of a plot ends: CYCLE counts on. -/
def Sys2Proof.Claims.cycleEnds : Res → Res
  | .next t => .next { t with cycle := t.cycle + 1 }
  | r => r

/-- R53, R70, R71, R182, R67: a step that is a cycle of a plot executes, on its selected context, the instruction of the word at its PC or,
in a pair, of the second word; CYCLE counts on. The context is written back as it is before the instruction. A modifier whose second
word would block has not issued either; a context that has not issued leaves the cycle to the others, one that has lets the others look at
their next instruction. A held instruction has a note of the port words it popped (R315). -/
def Sys2Proof.Stated.StepRunsDecoded : Prop :=
  ∀ (s : State) (p c : Nat) (rest : List Nat) (moves : List Move) (w : W32) (r : State), s.agenda = .plot p :: moves →
    let u := ((({ s with agenda := moves } : State).noteFollow p).modPlot p (·.refresh s.now)).findLate p
    Claims.Selected u p c rest → (Claims.Fetches u p c w ∨ Claims.Second u p c w) →
    let v := ({ u with cur := (p, c) } : State).setCtx p c (u.ctx p c)
    exec (Claims.instrOf w) v = .next r →
    let t := v.notePops (tryPair p c v r) p c
    (t.stuck p c = false → step s = Claims.cycleEnds (.next (if (t.ctx p c).pair.isSome then t else probe p rest t))) ∧
    (t.stuck p c = true → step s = Claims.cycleEnds (tryOrder p rest t))

/-- An event that the agenda names is that step. -/
def Sys2Proof.Stated.StepRunsEvents : Prop :=
  ∀ (s : State) (i : Instr) (moves : List Move), s.agenda = .event i :: moves → step s = exec i { s with agenda := moves }

/-- 04, 05, 06, 08 and 14: words of the spec's own listings, and two words that are no instruction. -/
def Obligations.SampleWords : Prop :=
  decode 0x04108100 = .ok (.add 1 2 1 false false) ∧ decode 0x08701357 = .ok (.addi 7 0 false 0x1357) ∧
  decode 0x58628300 = .ok (.stg 6 10 false 3 0) ∧ decode 0x60818101 = .ok (.ldfe 8 6 false 0 1) ∧
  decode 0x68014001 = .ok (.acqX 5 false) ∧ decode 0xF4000400 = .ok .tret ∧ decode 0xF9000080 = .ok (.modVf 0x80) ∧
  (∀ i, decode 0x00000000 ≠ .ok i) ∧ ∀ i, decode 0xFFFFFFFF ≠ .ok i

/-! ## Traps, control registers and system instructions -/

namespace Sys2Proof.Claims

open Sys2Proof Sys2Proof.Machine

/-- R326: HOT asks for a halt instead of the entry of a trap with a cause. -/
def HotHalts (x : Ctx) (k : Cause) : Prop :=
  dbgHot x.csr.dbgctl = 2 ∨ (dbgHot x.csr.dbgctl = 1 ∧ (k = .breakpoint ∨ k = .watchpoint ∨ k = .step))

/-- R311: what a trap saves. -/
structure Saved (x y : Ctx) (k : Cause) (v epc : Word) (async : Bool) : Prop where
  csr : y.csr = { x.csr with epc := epc, tcause := .ofNat 64 k.code, tval := v, tstat := y.csr.tstat }
  ppriv : tsPpriv y.csr.tstat = x.sup
  intrap : tsIntrap y.csr.tstat = true
  bsup : tsBsup y.csr.tstat = (k == .breakpoint || k == .watchpoint)
  async_ : tsAsync y.csr.tstat = async
  rcnt : tsRcnt y.csr.tstat = tsRcnt x.csr.tstat
  regs : y.regs = x.regs

/-- R318: a level decides: it is enabled, and is no retry level with RCNT = 3. -/
def decides (rcnt : Nat) (l : Bool × Nat) : Prop := l.1 = true ∧ ¬ (l.2 = 1 ∧ rcnt = 3)

/-- R318: the trapped context goes on: the mode of PPRIV, INTRAP and ASYNC cleared, at an address. -/
structure Resumed (x y : Ctx) (pc : Word) (rcnt : Nat) : Prop where
  pc : y.pc = pc
  mode : y.sup = tsPpriv x.csr.tstat
  intrap : tsIntrap y.csr.tstat = false
  async_ : tsAsync y.csr.tstat = false
  rcnt : tsRcnt y.csr.tstat = rcnt
  regs : y.regs = x.regs

/-- R305, R309: the instructions that only the supervisor may execute. -/
def supervisorOnly (a b : BitVec 6) (t u : Bool) : List Instr :=
  [.tret, .tfault, .iswr a t, .tlbinv a t, .tlbinvAll, .objhome a t, .pcfg a b t u]

/-- The CSR instructions that write, and the new value from the old one and the operand (R307, R308). -/
def csrOps : List ((BitVec 6 → BitVec 6 → Bool → BitVec 8 → Instr) × (Word → Word → Word)) :=
  [(.csrw, fun _ x => x), (.csrs, fun o x => o ||| x), (.csrc, fun o x => o &&& ~~~x)]

end Sys2Proof.Claims

/-- R311, R313, R316, R326: trap entry of a context that is no follower: with HOT the context halts and nothing is saved; in a handler
the trap goes to containment; else EPC, TCAUSE, TVAL and TSTAT are saved, and with TVEC.EN = 1 the context goes on in supervisor mode at
TVEC's entry, with TVEC.EN = 0 by the cause's default action. No register changes. -/
def Obligations.TrapEntry : Prop :=
  ∀ (s : State) (p c : Nat) (k : Cause) (v epc : Word) (async : Bool), (s.ctx p c).furrow.leader = none → (s.ctx p c).mul.flags = 0 →
    let x := s.ctx p c
    let t := s.trapAt p c k v epc async
    let y := t.ctx p c
    (Claims.HotHalts x k → y.halted = true ∧ y.csr = x.csr ∧ y.pc = x.pc ∧ y.sup = x.sup ∧ y.regs = x.regs) ∧
    (¬ Claims.HotHalts x k → tsIntrap x.csr.tstat = true →
      ∃ u : State, u.ctx p c = { (x.dropMul.halts !async) with
        pair := none, block := none, xfault := none, bsup := false, handlers := x.handlers - 1, furrow := { x.furrow with resume := none } } ∧
          t = u.contain p c k.code) ∧
    (¬ Claims.HotHalts x k → tsIntrap x.csr.tstat = false → bitw (s.plot p).csr.tvec 63 = true →
      Claims.Saved x y k v epc async ∧ y.sup = true ∧ y.pc = .ofNat 64 (fldw (s.plot p).csr.tvec 2 11 * 4)) ∧
    (¬ Claims.HotHalts x k → tsIntrap x.csr.tstat = false → bitw (s.plot p).csr.tvec 63 = false →
      ∃ u : State, Claims.Saved x (u.ctx p c) k v epc async ∧ (u.ctx p c).sup = x.sup ∧ (u.ctx p c).pc = x.pc ∧ t = u.defaultAct p c k v)

/-- R312: tret in a handler, with a good EPC: the mode of PPRIV, INTRAP and ASYNC cleared, PPRIV, BSUP and RCNT kept, and a jump to EPC;
with BSUP = 1 the first instruction there issues without breakpoint and watchpoint checks. A tret that is such a first instruction itself
clears BSUP as it retires. A bad EPC traps as a jump from the tret does (R54). -/
def Sys2Proof.Stated.TrapReturn : Prop :=
  ∀ (s : State), s.me.sup = true → tsIntrap s.me.csr.tstat = true → Ready s [] [] →
    ∃ r, OnlyMe s r ∧ r.myPlot.outq = s.myPlot.outq ∧ Claims.Resumed s.me r.me s.me.csr.epc (tsRcnt s.me.csr.tstat) ∧
      tsPpriv r.me.csr.tstat = tsPpriv s.me.csr.tstat ∧ tsBsup r.me.csr.tstat = (tsBsup s.me.csr.tstat && !s.me.suppressed) ∧
      r.me.suppressed = (tsBsup s.me.csr.tstat && !s.me.suppressed) ∧
      r.me.csr = { s.me.csr with tstat := r.me.csr.tstat } ∧
      (Claims.goodTarget s.me.csr.epc → exec .tret s = .next r) ∧
      (¬ Claims.goodTarget s.me.csr.epc → exec .tret s = .next (Claims.badTarget r s.me.csr.epc s.ipc))

/-- R318: which level decides. -/
def Sys2Proof.Stated.ContainmentLevel : Prop :=
  ∀ (rcnt : Nat) (ls : List (Bool × Nat)),
    ((∀ l ∈ ls, ¬ Claims.decides rcnt l) → containAct rcnt ls = 2) ∧
    ∀ (before after : List (Bool × Nat)) (l : Bool × Nat), ls = before ++ l :: after → (∀ k ∈ before, ¬ Claims.decides rcnt k) →
      Claims.decides rcnt l → containAct rcnt ls = l.2

/-- R318, R319: what containment does: ignore goes on after the trapped instruction, or at EPC after an asynchronous trap, and clears
MRP.V of an ignored multiply; retry counts and goes back; the others kill. -/
def Sys2Proof.Stated.Containment : Prop :=
  ∀ (s : State) (p c cause : Nat),
    let x := s.ctx p c
    let act := containAct (tsRcnt x.csr.tstat) ((s.plot p).levels x.task.chan)
    let y := (s.contain p c cause).ctx p c
    (act = 0 → Claims.Resumed x y (if tsAsync x.csr.tstat then x.csr.epc else (s.plot p).after x.csr.epc) (tsRcnt x.csr.tstat) ∧
      ((tsAsync x.csr.tstat = false ∧ isMultiply ((s.plot p).word
          (if isModWord ((s.plot p).word x.csr.epc.toNat) then x.csr.epc.toNat + 4 else x.csr.epc.toNat)) = true →
        bitw y.csr.mrp 63 = false))) ∧
    (act = 1 → tsRcnt x.csr.tstat < 15 → Claims.Resumed x y x.csr.epc (tsRcnt x.csr.tstat + 1) ∧ y.csr.mrp = x.csr.mrp) ∧
    (act = 2 → s.contain p c cause = s.kill p c cause false) ∧ (act = 3 → s.contain p c cause = s.kill p c cause true)

/-- R319, R227, R191: a killed task: its unsettled promise is asked to break with the task as origin and the cause, with kill parent the
parent's promise too, one deeper; its context is empty afterwards. The results that it owes are discarded, with the slots that they hold in
the outbound port queues (that the slots go is the model's choice, log entry 61). -/
def Sys2Proof.Stated.Killed : Prop :=
  ∀ (s : State) (p c cause : Nat) (parent : Bool),
    (s.kill p c cause parent).ctx p c = Ctx.empty ∧
    ((s.ctx p c).gates = [] → (s.ctx p c).furrow = Furrow.none → (s.ctx p c).task.promise ≠ 0 → ((s.ctx p c).before 4) = [] →
      (∀ h ∈ (s.plot p).outbox, h.task ≠ (s.ctx p c).csr.taskid) →
      let h := (s.ctx p c).task.promise
      let note := fun (to_ : Word) (deep : Nat) (own : Bool) => (⟨.clo, .plot (s.plotId p), .plot (hPlot to_), (s.plot p).tenant,
        .settle to_ (.broken (mkBreak h cause deep)) own⟩ : Packet)
      let one := s.push (note h 0 true)
      s.kill p c cause parent =
        ((if parent ∧ (s.ctx p c).task.parent ≠ 0 then one.push (note (s.ctx p c).task.parent 1 false) else one).modPlot p
          (·.dropSlots (s.ctx p c))).freeCtx p c) ∧
    ∀ d, ((s.plot p).dropSlots (s.ctx p c)).outbound d = ((s.plot p).outbound d).filter fun k => k.word.isSome ||
      !((s.ctx p c).multi.any (fun m => decide (60 ≤ m.reg) && decide (m.reg < 64) && m.slot == k.id) ||
        (s.ctx p c).hold.any fun h => (match h.kind with
          | .sleep _ | .follow => false
          | _ => true) && h.id == k.id)

/-- R307, R314, R315: trap and brk retire, and then trap with EPC the next instruction and ASYNC = 1. -/
def Sys2Proof.Stated.SoftwareTraps : Prop :=
  ∀ (s : State) (a : BitVec 6) (t : Bool) (n : BitVec 8),
    (Ready s [gs a t] [] → ∃ r, Went (s.takeG (regG a)).2 r s.nextPc ∧
      exec (.trap a t) s = .next (r.trapAt s.cur.1 s.cur.2 .software (s.takeG (regG a)).1 s.nextPc true)) ∧
    (Ready s [] [] → ∃ r, Went s r s.nextPc ∧
      exec (.brk n) s = .next (r.trapAt s.cur.1 s.cur.2 .breakpoint (.ofNat 64 (0x10000 + n.toNat)) s.nextPc true))

/-- R320: tfault hands the recorded trap to containment, as if no handler had been entered; it ends a step and a halt that was asked for takes
effect (R330). -/
def Sys2Proof.Stated.TrapFault : Prop :=
  ∀ (s : State), s.me.sup = true → Ready s [] [] →
    exec .tfault s = .next ((s.modMe fun x => { (x.halts true) with
      pair := none, block := none, bsup := false, handlers := x.handlers - 1 }).contain s.cur.1 s.cur.2 (s.me.csr.tcause.toNat % 256))

/-- R305, R309, R71: in task mode the supervisor's instructions, and a CSR instruction on a CSR that a task may not use, raise PRIVILEGE
with the instruction word as TVAL. -/
def Obligations.PrivilegeTraps : Prop :=
  ∀ (s : State) (d a b : BitVec 6) (t u : Bool) (c : BitVec 8), s.me.sup = false →
    (∀ i ∈ Claims.supervisorOnly a b t u, exec i s = .next (s.trap .privilege (s.iword.setWidth 64))) ∧
    (csrTask c.toNat = false → exec (.csrr d c) s = .next (s.trap .privilege (s.iword.setWidth 64)) ∧
      ∀ f ∈ Claims.csrOps, exec (f.1 d a t c) s = .next (s.trap .privilege (s.iword.setWidth 64)))

/-- R307, R308: csrr reads a CSR; csrw, csrs and csrc give d the old value and write the new one through the field rules; d may be a. -/
def Obligations.CsrAccess : Prop :=
  ∀ (s : State) (d a : BitVec 6) (t : Bool) (c : BitVec 8), s.me.sup = true ∨ csrTask c.toNat = true →
    (Ready s [] [regG d] → ∃ r, exec (.csrr d c) s = .next r ∧ Wrote s r (regG d) (s.csrRead s.cur.1 s.cur.2 c.toNat)) ∧
    (Ready s [gs a t] [regG d] → ∀ f ∈ Claims.csrOps,
      let q := s.takeG (regG a)
      let old := q.2.csrRead s.cur.1 s.cur.2 c.toNat
      ∃ r, exec (f.1 d a t c) s = .next r ∧ Wrote (q.2.csrWrite s.cur.1 s.cur.2 c.toNat (f.2 old q.1)) r (regG d) old)

/-- R50: VFMT: a read after a write gives the bits [3:0] written, P unchanged by a write of 0, and zeros; its reset value is P = 4, X = 0. -/
def Obligations.VfmtLayout : Prop :=
  Csrs.reset.vfmt = 4 ∧ ∀ (s : State) (p c : Nat) (w : Word),
    let old := (s.csrRead p c 0x11).toNat
    let new := ((s.csrWrite p c 0x11 w).csrRead p c 0x11).toNat
    new / 16 = 0 ∧ new / 8 % 2 = w.toNat / 8 % 2 ∧ new % 8 = (if w.toNat % 8 = 0 then old % 8 else w.toNat % 8)

/-- R49, R51: FPCSR: a read after a write gives FTZ and the flags as written, RM unchanged by a write of 5, 6 or 7, and zeros elsewhere;
its reset value is 0; flags that an operation raises stay set beside those that were. -/
def Sys2Proof.Stated.FpcsrLayout : Prop :=
  Csrs.reset.fpcsr = 0 ∧ ∀ (s : State) (p c : Nat) (w : Word),
    let old := (s.csrRead p c 0x10).toNat
    let new := ((s.csrWrite p c 0x10 w).csrRead p c 0x10).toNat
    new / 4096 = 0 ∧ new / 2048 % 2 = w.toNat / 2048 % 2 ∧ new / 64 % 4 = 0 ∧ new % 64 = w.toNat % 64 ∧
    new / 256 % 8 = (if 5 ≤ w.toNat / 256 % 8 then old / 256 % 8 else w.toNat / 256 % 8) ∧
    ∀ fl k, k < 64 → ((s.raise p c fl).csrRead p c 0x10).getLsbD k = ((s.csrRead p c 0x10).getLsbD k || (decide (k < 6) && fl.testBit k))

/-- R306, R308, R143, R178, R321, R323, R326, R333, R335: what a write of each other CSR leaves for a read of it: the fields of its map that
can be written, and no others; a read-only CSR is not changed. MTCFG shows the tile that SEL names, CHENT and OBJENT are those that CHSEL and
OBJSEL name, THWIN, THCNT and THLIM those of THSEL's class; a class of 14 or 15, a HOT of 3 and a square out of range are ignored, and
CISTERN's BASE is written only while no image is stored. -/
def Sys2Proof.Stated.CsrFields : Prop :=
  ∀ (s : State) (p c : Nat) (w : Word),
    let back := fun n => (s.csrWrite p c n w).csrRead p c n
    (∀ n ∈ [0x08, 0x0A, 0x0D, 0x18, 0x19, 0x24, 0x25, 0x26, 0x27, 0x41, 0x42], back n = w) ∧
    (∀ n ∈ [0x00, 0x01, 0x02, 0x03, 0x04, 0x30, 0x31, 0x48], s.csrWrite p c n w = s) ∧
    back 0x09 = w &&& 0xFF ∧ back 0x0C = w &&& 0x8000000000001FFC ∧ back 0x1A = w &&& 0x1FFFFFFFFFFFF ∧
    back 0x0B = (s.csrRead p c 0x0B &&& ~~~0xF) ||| (w &&& 0xF) ∧ back 0x12 = w &&& 0x87FF1F0FFFFFFFFF ∧
    (∀ n ∈ [0x20, 0x21, 0x22, 0x23], back n = w &&& 0x1FFC) ∧ (∀ n ∈ [0x28, 0x29, 0x2A, 0x2B], back n = w &&& 0xF0FFFFFFFFFFFFFF) ∧
    back 0x40 = w &&& 0xFFFFFFFF0001 ∧ ((s.csrWrite p c 0x40 w).plot p).utlb = [] ∧ back 0x44 = w &&& 0x3F ∧ back 0x46 = w &&& 0xF ∧
    (let n := (back 0x13).toNat
     let g := (s.plot p).group ((s.plot p).base (w.toNat % 64))
     n % 64 = w.toNat % 64 ∧ n / 2 ^ 6 % 8 = 0 ∧ (g.rows < 4 → g.cols < 4 →
       n / 2 ^ 9 % 2 = bit g.i32 ∧ n / 2 ^ 10 % 4 = g.cols ∧ n / 2 ^ 12 % 4 = g.rows ∧ n / 2 ^ 14 % 64 = (s.plot p).base (w.toNat % 64) ∧
       n / 2 ^ 20 % 2 = bit g.held.isSome ∧ n / 2 ^ 21 = bit g.live)) ∧
    (let n := (back 0x2C).toNat
     n % 2 ^ 9 = w.toNat % 2 ^ 9 ∧ n / 2 ^ 9 % 4 = (if w.toNat / 2 ^ 9 % 4 = 3 then (s.csrRead p c 0x2C).toNat / 2 ^ 9 % 4 else w.toNat / 2 ^ 9 % 4) ∧
       n / 2 ^ 11 % 16 = 0 ∧ n / 2 ^ 15 = bit (s.ctx p c).halted) ∧
    back 0x38 = (if 14 ≤ w.toNat % 16 then s.csrRead p c 0x38 else w &&& 0xF) ∧
    back 0x39 = w &&& 0xFFFFFFFF ∧ back 0x3A = w &&& 0xFFFFFFFF ∧ back 0x3B = w &&& 0xE0000000FFFFFFFF ∧
    back 0x43 = (if (s.plot p).sched.images = [] then w &&& 0xFFF000FFFFFFFFC0
      else (w &&& 0xFFF0000000000000) ||| (s.csrRead p c 0x43 &&& 0xFFFFFFFFFF)) ∧
    back 0x45 = (s.csrRead p c 0x45 &&& 0xF800000000) ||| (w &&& 0xFFF807FF) ∧ back 0x47 = w &&& 0xF800000000000FFF ∧
    (∀ f ∈ [(17, 32, 18), (10, 64, 34), (5, 16, 10)], (back 0x49).toNat / 2 ^ f.1 % (2 * f.2.1) =
      (if w.toNat / 2 ^ f.1 % f.2.1 < f.2.2 then w.toNat else (s.csrRead p c 0x49).toNat) / 2 ^ f.1 % (2 * f.2.1)) ∧
    back 0x49 &&& ~~~0x7FFFE0 = s.csrRead p c 0x49 &&& ~~~0x7FFFE0

/-- R325: iswr writes one word of the instruction store, at an address that is good, and traps otherwise. -/
def Sys2Proof.Stated.StoreWordWritten : Prop :=
  ∀ (s : State) (a : BitVec 6) (t : Bool), a.toNat < 59 → s.me.sup = true → Ready s [gs a t, ⟨regG a + 1, false⟩] [] →
    let x := s.me.regs.gv (regG a)
    (x.toNat % 4 = 0 → x.toNat ≤ 0x1FFC → ∃ u r, exec (.iswr a t) s = .next r ∧ Went u r u.nextPc ∧
      u = s.setPlot s.cur.1 { s.myPlot with istore := u.myPlot.istore, istoreBad := u.myPlot.istoreBad } ∧
      ∀ b, u.myPlot.word b = if b / 4 = x.toNat / 4 then (s.me.regs.gv (regG a + 1)).setWidth 32 else s.myPlot.word b) ∧
    ((x.toNat % 4 ≠ 0 ∨ 0x1FFC < x.toNat) → exec (.iswr a t) s = .next (s.trap .storeFault x))

/-! ## Tasks and furrows -/

namespace Sys2Proof.Claims

open Sys2Proof Sys2Proof.Machine

/-- The instruction has issued and holds its context: what holds it, an access noted with its destinations empty, and nothing else
changed in the plot but the selector's last. -/
structure Holds (s t : State) (h : Hold) (o : Option Outst) : Prop where
  me : t.me = { s.me with
    hold := some h, block := none, quantum := none, issued := true, lastIssue := s.now, outst := s.me.outst ++ o.toList
    regs := { s.me.regs with empt := t.me.regs.empt } }
  empt : ∀ r, t.me.regs.isEmpty r = (s.me.regs.isEmpty r || decide (r ≠ 0 ∧ r ∈ (o.map (·.act.marks)).getD []))
  plot : t.myPlot = { s.myPlot with
    ctxs := t.myPlot.ctxs, sched := { s.myPlot.sched with last := Sparse.set 4 s.myPlot.sched.last s.me.csr.taskpri s.cur.2 } }
  ctxs : ∀ c, c ≠ s.cur.2 → t.ctx s.cur.1 c = s.ctx s.cur.1 c
  plots : ∀ q, q ≠ s.cur.1 → t.plot q = s.plot q

/-- It holds its context for the answer to packets that have left, under a fresh serial number. -/
def Asks (s t : State) (k : HoldKind) (ds : List Nat) (v : Word) (n : Nat) (o : Option Outst) (ps : List Packet) : Prop :=
  Holds s t ⟨k, s.serial, s.now, ds.map fun d => (d, s.me.regs.isEmpty d), v, n, []⟩ o ∧
    t = ps.foldl State.push { s with plots := t.plots, serial := s.serial + 1 }

/-- A packet of the current plot. -/
def mine (s : State) (cls : Cls) (dst : Endpoint) (m : Msg) : Packet := ⟨cls, .plot (s.plotId s.cur.1), dst, s.myPlot.tenant, m⟩

/-- R197: the plot that a follow names. -/
def Leader (s : State) (w : Word) (q : Nat) : Prop :=
  let o := (w.setWidth 5).toInt
  w = (w.setWidth 5).signExtend 64 ∧ o ≠ 0 ∧ 0 ≤ (colOf s.cur.1 : Int) + o ∧ (colOf s.cur.1 : Int) + o ≤ 215 ∧
    q / 256 = s.cur.1 / 256 ∧ ((q % 256 : Nat) : Int) = (colOf s.cur.1 : Int) + o

/-- R191: the task has ended at its instruction: its context keeps only what R191 waits for, and its promise is asked to settle. -/
structure Ends (s t : State) (st : PState) : Prop where
  me : t.me = { s.me.retired with
    issued := true, lastIssue := s.now, ended := true, gates := [], copies := [], quantum := none, due := ⟨none, [], none⟩ }
  ctxs : ∀ c, c ≠ s.cur.2 → t.ctx s.cur.1 c = s.ctx s.cur.1 c
  plots : ∀ q, q ≠ s.cur.1 → t.plot q = s.plot q
  sent : s.me.gates = [] → t = { s.settle s.cur.1 s.cur.2 s.me.task.promise st true with plots := t.plots } ∧
    t.myPlot.outbox = (s.settle s.cur.1 s.cur.2 s.me.task.promise st true).myPlot.outbox

/-- R248: an outstanding access keeps a fence of a scope (0 ctx, 1 plot, 2 field, 3 pkg, 4 sys) waiting. -/
def Waits (scope : Nat) (o : Outst) : Prop :=
  o.space ≠ .other ∧ (o.store = false ∨ (o.space = .scratchOwn ∧ 1 ≤ scope) ∨ (o.space = .scratch ∧ 2 ≤ scope) ∨
    (o.space = .hbm ∧ 3 ≤ scope) ∨ ((o.space = .peer ∨ o.space = .host) ∧ 4 ≤ scope))

end Sys2Proof.Claims

/-- R192, R193: yield retires, ends a floor-tick quantum and makes the context the last of its priority; sleep and sleepuntil hold the
context until their cycle, or only retire when it has been reached. -/
def Sys2Proof.Stated.YieldAndSleep : Prop :=
  ∀ (s : State) (a : BitVec 6) (t : Bool),
    (Ready s [] [] → ∃ r, Went s r s.nextPc ∧ exec .yield s = .next (r.modMe fun x => { x with quantum := none }) ∧
      Sparse.get 4 r.myPlot.sched.last s.me.csr.taskpri = s.cur.2) ∧
    (Ready s [gs a t] [] →
      let q := s.takeG (regG a)
      ∀ f ∈ [(Instr.sleep a t, s.now + q.1.toNat), (Instr.sleepuntil a t, q.1.toNat)],
        (f.2 ≤ s.now → ∃ r, exec f.1 s = .next r ∧ Went q.2 r q.2.nextPc) ∧
        (s.now < f.2 → ∃ r, exec f.1 s = .next r ∧ Claims.Holds q.2 r ⟨.sleep f.2, 0, s.now, [], .ofNat 64 f.2, 0, []⟩ none ∧
          r = { q.2 with plots := r.plots }))

/-- R194, R200: tself gives the handle of the task's own promise, 0 without one; tself.f the furrow state word, of which NFOL counts up
to 63 followers (for more it is a free value, the model's choice, log entry 106). -/
def Sys2Proof.Stated.TaskSelf : Prop :=
  ∀ (s : State) (d : BitVec 6), Ready s [] [regG d] →
    (∃ r, exec (.tself d) s = .next r ∧ Wrote s r (regG d) s.me.task.promise) ∧
    ∃ r v, exec (.tselfF d) s = .next r ∧ Wrote s r (regG d) v ∧
      let f := s.me.furrow
      let n := v.toNat
      n / 2 ^ 16 = 0 ∧ n / 2 ^ 13 = f.lcause % 8 ∧ ((n / 2 ^ 8 % 32 : Nat) : Int) = (if f.leader.isSome then f.ofs % 32 else 0) ∧
      (f.lead = true → f.followers.length < 64 → n / 4 % 64 = f.followers.length) ∧ (f.lead = false → n / 4 % 64 = 0) ∧ n / 2 % 2 = (if f.leader.isSome then 1 else 0) ∧
      n % 2 = (if f.lead then 1 else 0)

/-- R195: chblk and chunb: a plot word or channel word that is not one raises STORE-FAULT; on the issuing plot the bit changes, and
nothing else of the channel but the cycle of its unblocking; a request leaves for another plot. -/
def Sys2Proof.Stated.ChannelBlock : Prop :=
  ∀ (s : State) (a b : BitVec 6) (t u : Bool), Ready s [gs a t, gs b u] [] →
    let q := Claims.src2 s a b
    let x := q.1.toNat
    let y := q.2.1.toNat
    ∀ f ∈ [(Instr.chblk a b t u, true), (Instr.chunb a b t u, false)],
      (x < 2 ^ 36 → x / 256 % 256 ≤ 191 → x % 256 ≤ 215 → x / 2 ^ 20 = s.pkg → y < 64 →
        (x % 2 ^ 20 = s.cur.1 → ∃ v r, exec f.1 s = .next r ∧ Went v r v.nextPc ∧
          v = q.2.2.setPlot s.cur.1 { q.2.2.myPlot with chans := v.myPlot.chans } ∧ (∀ k, k ≠ y → v.myPlot.chan k = q.2.2.myPlot.chan k) ∧
          v.myPlot.chan y = { q.2.2.myPlot.chan y with
            blk := f.2, unblocked := if (q.2.2.myPlot.chan y).blk = true ∧ f.2 = false then s.now else (q.2.2.myPlot.chan y).unblocked }) ∧
        (x % 2 ^ 20 ≠ s.cur.1 → ∃ r, exec f.1 s = .next r ∧
          Went (q.2.2.push (Claims.mine s .sys (.plot x) (.chanBlock x y f.2))) r q.2.2.nextPc)) ∧
      (x < 2 ^ 36 ∧ x / 256 % 256 ≤ 191 ∧ x % 256 ≤ 215 ∧ x / 2 ^ 20 = s.pkg → 64 ≤ y → exec f.1 s = .next (s.trap .storeFault q.2.1)) ∧
      (¬ (x < 2 ^ 36 ∧ x / 256 % 256 ≤ 191 ∧ x % 256 ≤ 215 ∧ x / 2 ^ 20 = s.pkg) → exec f.1 s = .next (s.trap .storeFault q.1))

/-- R196, R191: lead makes the context its plot's leading one; where another that has not ended leads, it raises FOLLOW-INVALID with that context; where the task
that leads is spilled and has no context, TVAL is a free value (the model's choice, log entry 75). -/
def Sys2Proof.Stated.LeadTakes : Prop :=
  ∀ (s : State), Ready s [] [] →
    let leads := fun (c : Nat) => (s.ctx s.cur.1 c).furrow.lead = true ∧ (s.ctx s.cur.1 c).ended = false
    ((∀ c, c < 4 → c ≠ s.cur.2 → ¬ leads c) → (∀ i ∈ s.myPlot.sched.images, i.1.furrow.lead = false) →
      ∃ r, exec .lead s = .next r ∧ Went (s.modMe fun x => { x with furrow := { x.furrow with lead := true } }) r s.nextPc) ∧
    (∀ c, c < 4 → c ≠ s.cur.2 → leads c → (∀ k, k < c → k ≠ s.cur.2 → ¬ leads k) →
      exec .lead s = .next (s.trap .followInvalid (.ofNat 64 c))) ∧
    ((∀ c, c < 4 → c ≠ s.cur.2 → ¬ leads c) → (∃ i ∈ s.myPlot.sched.images, i.1.furrow.lead = true) →
      ∃ v, exec .lead s = .next (s.trap .followInvalid v))

/-- R197: follow: a bad offset, or a context that leads, raises FOLLOW-INVALID; else the join request leaves and the context waits. -/
def Sys2Proof.Stated.FollowAsks : Prop :=
  ∀ (s : State) (a : BitVec 6) (t : Bool), Ready s [gs a t] [] →
    let q := s.takeG (regG a)
    ((s.me.furrow.lead = true ∨ ∀ p, ¬ Claims.Leader s q.1 p) → exec (.follow a t) s = .next (s.trap .followInvalid q.1)) ∧
    ∀ p, s.me.furrow.lead = false → Claims.Leader s q.1 p →
      ∃ r, exec (.follow a t) s = .next r ∧ Claims.Asks q.2 r .follow [] q.1 0 none
        [Claims.mine s .sys (.plot (s.plotId p)) (.join ⟨s.plotId s.cur.1, s.me.csr.taskid, s.serial⟩ s.cur.2 (s.plotId p) q.1)]

/-- R199: split: every follower goes on by itself after the split, with cause 2 and an empty queue; the leader leads no more. A follower that is held
by its instruction, owes the second word of a pair or has a multiply under way ends that first, and resumes there afterwards (DEDUCED, log
entry 83). No other context changes, and no register. -/
def Sys2Proof.Stated.SplitDissolves : Prop :=
  ∀ (s : State), Ready s [] [] → s.myPlot.find s.me.csr.taskid = some (.ctx s.cur.2) →
    (∀ f ∈ s.me.furrow.followers, f ≠ s.cur ∧ (s.ctx f.1 f.2).furrow.leader = some (s.cur.1, s.me.csr.taskid)) →
    ∃ r, exec .split s = .next r ∧ r = { s with plots := r.plots } ∧
      r.me = { s.me.retired with
        pc := s.nextPc, issued := true, lastIssue := s.now, furrow := { s.me.furrow with lead := false, followers := [] } } ∧
      (∀ f ∈ s.me.furrow.followers, let x := s.ctx f.1 f.2
        let y := r.ctx f.1 f.2
        let busy := (∃ h, x.hold = some h ∧ h.kind ≠ .follow) ∨ x.pair.isSome ∨ x.mul.point.isSome ∨ (s.plot f.1).hasYielded x = true
        y.regs = x.regs ∧ y.csr = x.csr ∧ y.pair = x.pair ∧
        y.furrow = { x.furrow with leader := none, ofs := 0, queue := [], lcause := 2, resume := y.furrow.resume } ∧
        (¬ busy → y.pc = s.ipc + 4 ∧ y.furrow.resume = x.furrow.resume) ∧
        (busy → y.pc = x.pc ∧ ∃ ws, y.furrow.resume = some ⟨x.pc, ws, s.ipc + 4⟩)) ∧
      ∀ p c, (p, c) ≠ s.cur → (p, c) ∉ s.me.furrow.followers → r.ctx p c = s.ctx p c

/-- R191, R223: tend, resolve, resolveref and break end the task, and ask its promise to settle: with 0, with a value, with an OREF or a
next handle, or broken with the code a gives. -/
def Sys2Proof.Stated.TaskEnds : Prop :=
  ∀ (s : State) (a : BitVec 6) (t : Bool),
    (Ready s [] [] → ∃ r, exec .tend s = .next r ∧ Claims.Ends s r (.value 0)) ∧
    (Ready s [gs a t] [] →
      let q := s.takeG (regG a)
      (∃ r, exec (.resolve a t) s = .next r ∧ Claims.Ends q.2 r (.value q.1)) ∧
      (∃ r, exec (.breakP a t) s = .next r ∧ Claims.Ends q.2 r (.broken (mkBreak s.me.task.promise (0x80 + q.1.toNat % 128) 0))) ∧
      (q.2.ownSettled = true → ∃ r, exec (.resolveref a t) s = .next r ∧ Claims.Ends q.2 r (.value 0)) ∧
      (q.2.ownSettled = false → q.1 = s.me.task.promise → exec (.resolveref a t) s = .next (s.trap .deadWait q.1)) ∧
      (q.2.ownSettled = false → q.1 ≠ s.me.task.promise → orefOk q.1 = false → hrefOk q.1 = false →
        exec (.resolveref a t) s = .next (s.trap .staleRef q.1)) ∧
      (q.2.ownSettled = false → q.1 ≠ s.me.task.promise → (orefOk q.1 = true ∨ hrefOk q.1 = true) →
        ∃ r, exec (.resolveref a t) s = .next r ∧ Claims.Ends q.2 r (if bitw q.1 0 then .chained q.1 else .oref q.1)))

/-- R223, R349: a settlement leaves in CLO for the promise's plot as soon as no access of the task and nothing it sent before is
outstanding; without a promise nothing leaves. -/
def Sys2Proof.Stated.SettlementLeaves : Prop :=
  ∀ (s : State) (p c : Nat) (h : Word) (st : PState) (m : Bool),
    (h = 0 → s.settle p c h st m = s) ∧
    (h ≠ 0 → (∀ o ∈ (s.ctx p c).outst, ¬ Claims.Waits 4 o) → (∀ k ∈ (s.plot p).outbox, k.task ≠ (s.ctx p c).csr.taskid) →
      s.settle p c h st m = s.push ⟨.clo, .plot (s.plotId p), .plot (hPlot h), (s.plot p).tenant, .settle h st m⟩) ∧
    (h ≠ 0 → (∃ o ∈ (s.ctx p c).outst, Claims.Waits 4 o) → ∃ w, w ≠ [] ∧ s.settle p c h st m = s.modPlot p fun x => { x with
      outbox := x.outbox ++ [⟨(s.ctx p c).csr.taskid, w, .packet ⟨.clo, .plot (s.plotId p), .plot (hPlot h), (s.plot p).tenant, .settle h st m⟩⟩] })

/-- R248: a fence retires when no access that its scope names is outstanding, and blocks otherwise. -/
def Sys2Proof.Stated.FenceWaits : Prop :=
  ∀ (s : State), Ready s [] [] →
    ∀ f ∈ [(Instr.fenceCtx, 0), (Instr.fencePlot, 1), (Instr.fenceField, 2), (Instr.fencePkg, 3), (Instr.fenceSys, 4)],
      ((∀ o ∈ s.me.outst, ¬ Claims.Waits f.2 o) → ∃ r, exec f.1 s = .next r ∧ Went s r s.nextPc) ∧
      ((∃ o ∈ s.me.outst, Claims.Waits f.2 o) → exec f.1 s = .next (s.blocked (.fence f.2)))

/-! ## Own buffers -/

namespace Sys2Proof.Claims

open Sys2Proof Sys2Proof.Machine

/-- R56: the bytes of an access of size code `w`. -/
def size (w : BitVec 3) : Nat := 2 ^ (w.toNat % 4)

/-- R56: the value of `n` little-endian bytes, zero-extended for the codes 0 to 3 and sign-extended for the others. -/
def loaded (w : BitVec 3) (bs : List Byte) : Word :=
  if w.toNat ≤ 3 then .ofNat 64 (numLE bs) else .ofInt 64 ((numLE bs : Int) - if 2 ^ (8 * size w - 1) ≤ numLE bs then 2 ^ (8 * size w) else 0)

/-- R91: the bytes of a buffer by code. -/
def lengthOf (buf : Nat) : Nat := if buf = 0 then 16384 else if buf = 1 then 32768 else if buf = 2 then 8192 else 0

/-- The `n` bytes of a buffer of the current plot from an offset on. -/
def bytesAt (s : State) (buf o n : Nat) : List Byte := (List.range n).map fun k => s.myPlot.bufs.byte buf (o + k)

/-- R328: no watchpoint stops an access to bytes in a space. -/
def Quiet (s : State) (sp : Nat) (ld st : Bool) (as : List Nat) : Prop :=
  s.me.suppressed = true ∨ ∀ a ∈ as, ∀ n, n < 4 → s.me.watches n sp ld st a = false

/-- R328: a watchpoint stops an access to bytes in a space, and the lowest byte that matches is `h`. -/
structure Hit (s : State) (sp : Nat) (ld st : Bool) (as : List Nat) (h : Nat) : Prop where
  checked : s.me.suppressed = false
  hit : h ∈ as ∧ ∃ n, n < 4 ∧ s.me.watches n sp ld st h = true
  least : ∀ a ∈ as, a < h → ∀ n, n < 4 → s.me.watches n sp ld st a = false

/-- R334: a state after a read of a buffer that corrected symbols: every byte and every FE reads as before, no register changes, and with no
wrong symbol the state is the same. -/
structure ReadOf (s u : State) : Prop where
  me : u.me = s.me
  cur : u.cur = s.cur ∧ u.net = s.net ∧ u.cycle = s.cycle ∧ u.serial = s.serial
  bytes : ∀ b o, u.myPlot.bufs.byte b o = s.myPlot.bufs.byte b o ∧ u.myPlot.bufs.wordEmpty b o = s.myPlot.bufs.wordEmpty b o
  ports : u.myPlot.outq = s.myPlot.outq ∧ u.myPlot.inq = s.myPlot.inq
  clean : s.myPlot.bufs.errs = [] → u = s

/-- The buffers of the current plot have changed, and nothing else: bytes of a buffer from an offset on, and the FE of its words. -/
structure Stored (s u : State) (buf : Nat) (new : Nat → Option Byte) (fe : Nat → Option Bool) : Prop where
  only : u = s.setPlot s.cur.1 { s.myPlot with bufs := u.myPlot.bufs }
  bytes : ∀ o, u.myPlot.bufs.byte buf o = (new o).getD (s.myPlot.bufs.byte buf o)
  words : ∀ i, u.myPlot.bufs.wordEmpty buf i = (fe i).getD (s.myPlot.bufs.wordEmpty buf i)
  others : ∀ b o, b < 3 → b ≠ buf →
    u.myPlot.bufs.byte b o = s.myPlot.bufs.byte b o ∧ u.myPlot.bufs.wordEmpty b o = s.myPlot.bufs.wordEmpty b o

/-- The low `n` bytes of a word, little-endian, from an offset on. -/
def wordAt (o n : Nat) (w : Word) (k : Nat) : Option Byte := if o ≤ k ∧ k < o + n then some (w.extractLsb' (8 * (k - o)) 8) else none

/-- Nothing. -/
def same {α : Type} (_ : Nat) : Option α := none

/-- One word's bit. -/
def bitAt (i : Nat) (b : Bool) (k : Nat) : Option Bool := if k = i then some b else none

end Sys2Proof.Claims

/-- R328: watchpoint n of a context matches a byte address of a space that is loaded or stored: DBGCTL enables it, it is of the space, for
loads or stores as the access is, and the address agrees with WPAn in the bits of the mask, and in bits [63:56] where it is global. -/
def Sys2Proof.Stated.WatchpointMatches : Prop :=
  ∀ (x : Ctx) (n sp a : Nat) (ld st : Bool), n < 4 → a < 2 ^ 64 →
    let m := Sparse.get 0 x.csr.wpm n
    let w := Sparse.get 0 x.csr.wpa n
    (x.watches n sp ld st a = true ↔ x.csr.dbgctl.getLsbD (5 + n) = true ∧ m.toNat / 2 ^ 62 = sp ∧
      ((ld = true ∧ m.getLsbD 61 = true) ∨ (st = true ∧ m.getLsbD 60 = true)) ∧
      (∀ k, k < 56 → m.getLsbD k = true → a.testBit k = w.getLsbD k) ∧ (sp = 3 → a / 2 ^ 56 = w.toNat / 2 ^ 56))

/-- R328, R312: a watched access raises WATCHPOINT with the lowest address that matches; an access goes on if none matches, or in the first
instruction after a return from a breakpoint or watchpoint. -/
def Sys2Proof.Stated.WatchpointTraps : Prop :=
  ∀ (s : State) (sp : Nat) (ld st : Bool) (as : List Nat),
    (Claims.Quiet s sp ld st as → s.watch sp ld st as = .ok ()) ∧
    ∀ h, Claims.Hit s sp ld st as h → s.watch sp ld st as = .error (.trap .watchpoint (.ofNat 64 h))

/-- R56, R94, R100, R337, R113: ldl: a bad offset raises BUFFER-BOUNDS; while a write of the task to its own plot through the remote port is
outstanding it waits; a byte that cannot be corrected raises ECC-UNCORRECTED; else d receives the bytes, extended. -/
def Sys2Proof.Stated.OwnLoad : Prop :=
  ∀ (s : State) (d b : BitVec 6) (t : Bool) (x : BitVec 2) (w : BitVec 3) (o : BitVec 8), Ready s [gs b t] [regG d] →
    let q := s.takeG (regG b)
    let n := Claims.size w
    let a := q.1 + .ofNat 64 (o.toNat * n)
    let good := a.toNat < Claims.lengthOf x.toNat ∧ a.toNat % n = 0
    (¬ good → exec (.ldl d b t x w o) s = .next (s.trap .bufferBounds a)) ∧
    (good → Claims.Quiet q.2 x.toNat true false (span a.toNat n) → s.me.ownStore = true → exec (.ldl d b t x w o) s = .next (s.blocked .ownStore)) ∧
    (good → Claims.Quiet q.2 x.toNat true false (span a.toNat n) → s.me.ownStore = false →
      ((∀ k ∈ span a.toNat n, q.2.myPlot.uncorrectable x.toNat k = false) →
        ∃ u r, exec (.ldl d b t x w o) s = .next r ∧ Claims.ReadOf q.2 u ∧
          Wrote u r (regG d) (Claims.loaded w (Claims.bytesAt q.2 x.toNat a.toNat n))) ∧
      ∀ k, k < n → q.2.myPlot.uncorrectable x.toNat (a.toNat + k) = true →
        (∀ j, j < k → q.2.myPlot.uncorrectable x.toNat (a.toNat + j) = false) →
        exec (.ldl d b t x w o) s = .next (s.trap .eccUncorrected (.ofNat 64 (x.toNat * 2 ^ 16 + (a.toNat + k)))))

/-- R56, R94, R97, R100, R113: stl stores the low bytes of its register at the address, and no FE changes; a bad offset raises BUFFER-BOUNDS, and a
write of the task to its own plot through the remote port is waited for. -/
def Sys2Proof.Stated.OwnStore : Prop :=
  ∀ (s : State) (r b : BitVec 6) (t : Bool) (x : BitVec 2) (w : BitVec 3) (o : BitVec 8), x.toNat < 3 → Ready s [gs b t, gs r false] [] →
    let q := Claims.src2 s b r
    let n := Claims.size w
    let a := q.1 + .ofNat 64 (o.toNat * n)
    let good := a.toNat < Claims.lengthOf x.toNat ∧ a.toNat % n = 0
    (¬ good → exec (.stl r b t x w o) s = .next (s.trap .bufferBounds a)) ∧
    (good → Claims.Quiet q.2.2 x.toNat false true (span a.toNat n) → s.me.ownStore = true → exec (.stl r b t x w o) s = .next (s.blocked .ownStore)) ∧
    (good → Claims.Quiet q.2.2 x.toNat false true (span a.toNat n) → s.me.ownStore = false →
      ∃ u v, exec (.stl r b t x w o) s = .next v ∧ Went u v u.nextPc ∧
        Claims.Stored q.2.2 u x.toNat (Claims.wordAt a.toNat n q.2.1) Claims.same)

/-- R94, R97, R102, R113, R337: ldsync and ldfe of an own buffer wait for a full word and give it, ldfe leaving it empty; stfull writes a word and sets
it full, clrfe sets it empty and keeps its contents, each whatever its bit was. A bad offset raises BUFFER-BOUNDS; a full word that cannot be
corrected raises ECC-UNCORRECTED at a load, with the buffer and the byte; and a write of the task to its own plot through the remote port is
waited for. -/
def Obligations.OwnSync : Prop :=
  ∀ (s : State) (d b : BitVec 6) (t : Bool) (x : BitVec 2) (o : BitVec 8), x.toNat < 3 →
    let base := s.takeG (regG b)
    let at_ := base.1 + .ofNat 64 (8 * o.toNat)
    let a := at_.toNat
    let good := a < Claims.lengthOf x.toNat ∧ a % 8 = 0
    (Ready s [gs b t] [regG d] →
      let q := base.2
      ∀ f ∈ [(Instr.ldsync d b t x o, false), (Instr.ldfe d b t x o, true)],
        (¬ good → exec f.1 s = .next (s.trap .bufferBounds at_)) ∧
        (good → Claims.Quiet q x.toNat true false (span a 8) →
          (q.myPlot.bufs.wordEmpty x.toNat (a / 8) = true → exec f.1 s = .next (s.blocked (.word x.toNat (a / 8)))) ∧
          (q.myPlot.bufs.wordEmpty x.toNat (a / 8) = false → s.me.ownStore = true → exec f.1 s = .next (s.blocked .ownStore)) ∧
          (q.myPlot.bufs.wordEmpty x.toNat (a / 8) = false → s.me.ownStore = false →
            ((∀ k ∈ span a 8, q.myPlot.uncorrectable x.toNat k = false) →
              ∃ u v w r, exec f.1 s = .next r ∧ Claims.ReadOf q u ∧ v = u.setG (regG d) (.ofNat 64 (numLE (Claims.bytesAt q x.toNat a 8))) ∧
                (if f.2 then Claims.Stored v w x.toNat Claims.same (Claims.bitAt (a / 8) true) else w = v) ∧ Went w r w.nextPc) ∧
            ∀ k, k < 8 → q.myPlot.uncorrectable x.toNat (a + k) = true → (∀ j, j < k → q.myPlot.uncorrectable x.toNat (a + j) = false) →
              exec f.1 s = .next (s.trap .eccUncorrected (.ofNat 64 (x.toNat * 2 ^ 16 + (a + k)))))) ∧
    (Ready s [gs b t, gs d false] [] →
      let q := Claims.src2 s b d
      (¬ good → exec (.stfull d b t x o) s = .next (s.trap .bufferBounds at_)) ∧
      (good → Claims.Quiet q.2.2 x.toNat false true (span a 8) →
        (s.me.ownStore = true → exec (.stfull d b t x o) s = .next (s.blocked .ownStore)) ∧
        (s.me.ownStore = false → ∃ u r, exec (.stfull d b t x o) s = .next r ∧ Went u r u.nextPc ∧
          Claims.Stored q.2.2 u x.toNat (Claims.wordAt a 8 q.2.1) (Claims.bitAt (a / 8) false)))) ∧
    (Ready s [gs b t] [] →
      (¬ good → exec (.clrfe b t x o) s = .next (s.trap .bufferBounds at_)) ∧
      (good → Claims.Quiet base.2 x.toNat false true (span a 8) →
        (s.me.ownStore = true → exec (.clrfe b t x o) s = .next (s.blocked .ownStore)) ∧
        (s.me.ownStore = false → ∃ u r, exec (.clrfe b t x o) s = .next r ∧ Went u r u.nextPc ∧
          Claims.Stored base.2 u x.toNat Claims.same (Claims.bitAt (a / 8) true)))))

/-! ## Accesses that leave the plot -/

namespace Sys2Proof.Claims

open Sys2Proof Sys2Proof.Machine

/-- The instruction has retired, and an access it has sent is outstanding: its destinations are empty. -/
structure Sends (s t : State) (o : Outst) (p : Packet) : Prop where
  me : t.me = { s.me.retired with
    pc := s.nextPc, issued := true, lastIssue := s.now, outst := s.me.outst ++ [o], regs := { s.me.regs with empt := t.me.regs.empt } }
  empt : ∀ r, t.me.regs.isEmpty r = (s.me.regs.isEmpty r || decide (r ≠ 0 ∧ r ∈ o.act.dests))
  plot : t.myPlot = { s.myPlot with ctxs := t.myPlot.ctxs, sched := t.myPlot.sched }
  ctxs : ∀ c, c ≠ s.cur.2 → t.ctx s.cur.1 c = s.ctx s.cur.1 c
  plots : ∀ q, q ≠ s.cur.1 → t.plot q = s.plot q
  sent : t = ({ s with plots := t.plots, serial := s.serial + 1 } : State).push p

/-- R106: the context is held: the access is sent, and a rejection would raise the fault with the address. -/
def HeldAccess (s t : State) (f : Cause) (va : Word) (o : Outst) (p : Packet) : Prop :=
  Asks s t (.access f) o.act.dests va 0 (some o) [p]

/-- R104, R106, R111, R112: an access of a translated address leaves: its translation becomes the most recently used; HBM is served by the base
die of the page's 4 KiB interleave, PEER by the peer package, HOST by headworks 0; PEER holds the context. -/
def Accesses (s t : State) (e : Tlb) (va : Word) (store held : Bool) (op : MemOp) (act : RspAct) (f : Cause) : Prop :=
  let u := s.setPlot s.cur.1 { s.myPlot with utlb := e :: s.myPlot.utlb.filter fun x => x != e }
  let target := e.target + (va.toNat - e.va)
  let who : Who := ⟨s.plotId s.cur.1, s.me.csr.taskid, s.serial⟩
  let o : Space → Outst := fun sp => ⟨s.serial, sp, store, act, va⟩
  let p : Endpoint → Nat → Packet := fun dst buf => mine s .req dst (.acc ⟨who, buf, target, op⟩)
  (e.ty = 0 → if held then HeldAccess u t f va (o .hbm) (p (.base (target / 4096 % 12)) 3) else Sends u t (o .hbm) (p (.base (target / 4096 % 12)) 3)) ∧
  (e.ty = 1 → HeldAccess u t f va (o .peer) (p (.peer e.pkg) 5)) ∧
  (e.ty = 2 → if held then HeldAccess u t f va (o .host) (p (.head 0) 4) else Sends u t (o .host) (p (.head 0) 4))

/-- R107: a SCRATCH access leaves for the remote port of its plot, and holds the context. -/
def Scratch (s t : State) (x : Word) (store : Bool) (op : MemOp) (act : RspAct) (f : Cause) : Prop :=
  HeldAccess s t f x ⟨s.serial, if bPlot x = s.plotId s.cur.1 then .scratchOwn else .scratch, store, act, x⟩
    (mine s .req (.plot (bPlot x)) (.acc ⟨⟨s.plotId s.cur.1, s.me.csr.taskid, s.serial⟩, bBuf x, bOff x, op⟩))

/-- R105, R110, R246, R247: a global address of `n` bytes that a load or store may use: aligned, below 2^56, in the micro-TLB with the
permissions, and with the capability of a bound region. -/
structure Allowed (s : State) (va : Word) (n : Nat) (ld st : Bool) (e : Tlb) : Prop where
  aligned : va.toNat % n = 0 ∧ va.toNat < 2 ^ 56
  walk : s.me.xfault = none
  hit : s.myPlot.lookup va.toNat = some e
  perms : (ld = true → e.rd = true) ∧ (st = true → e.wr = true)
  store : st = true → ∀ r, e.region = some r → s.me.holdsExcl r = true
  load : st = false → ∀ r, e.region = some r → bitw s.myPlot.csr.detctl 1 = true → ∃ g ∈ s.me.gates, g.target = r ∧ g.home = none

/-- R328: a global address that an access may use and that is not watched. -/
structure MayUse (s : State) (va : Word) (n : Nat) (ld st : Bool) (e : Tlb) (bytes : List Nat) : Prop where
  allowed : Allowed s va n ld st e
  quiet : Quiet s 3 ld st bytes

/-- R107: a BADDR that an access of `n` bytes may use: bits [23:16] zero, a buffer, a plot of this package, within the buffer, aligned, no
store to C. -/
structure Reaches (s : State) (x : Word) (n : Nat) (st : Bool) : Prop where
  form : x.toNat / 2 ^ 62 = 3 ∧ x.toNat / 2 ^ 16 % 256 = 0
  buf : bBuf x ≠ 3 ∧ (st = true → bBuf x ≠ 2)
  plot : bPlot x / 2 ^ 20 = s.pkg ∧ plotOk (bPlot x) = true
  range : x.toNat % 2 ^ 16 + n ≤ lengthOf (bBuf x) ∧ x.toNat % 2 ^ 16 % n = 0

/-- R328: a BADDR that an access may use and that is not watched. -/
structure MayReach (s : State) (x : Word) (n : Nat) (ld st : Bool) (bytes : List Nat) : Prop where
  reaches : Reaches s x n st
  quiet : Quiet s 3 ld st bytes

/-- Little-endian bytes of a word with their offsets. -/
def leBytes (n : Nat) (w : Word) : List (Nat × Byte) := (List.range n).map fun k => (k, w.extractLsb' (8 * k) 8)

/-- R249: the AMOs: the code that travels, the bytes, whether the operand is a pair, and whether the result is. -/
def amos : List ((BitVec 6 → BitVec 6 → BitVec 6 → Bool → Bool → BitVec 2 → Instr) × Nat × Nat × Bool × Bool) :=
  [(.amoAdd, 0, 8, false, false), (.amoSwap, 1, 8, false, false), (.amoCas, 2, 8, true, false), (.amoMin, 3, 8, false, false),
   (.amoMax, 4, 8, false, false), (.amoMinn, 5, 8, false, false), (.amoMaxn, 6, 8, false, false), (.amoAnd, 7, 8, false, false),
   (.amoOr, 8, 8, false, false), (.amoXor, 9, 8, false, false), (.amoFaddF, 10, 4, false, false), (.amoFaddD, 11, 8, false, false),
   (.amoAmerge, 12, 16, true, true)]

/-- R251: the fence scope that .rel waits with. -/
def relOf (sp : Space) (near : Bool) : Nat :=
  if sp = .scratchOwn then 1 else if sp = .scratch then (if near then 2 else 3) else if sp = .hbm then 3 else 4

end Sys2Proof.Claims

/-- R105, R106, R107: ldg and ldx send a load, with their destination empty until its answer; stg and stx send the low bytes of a register.
ldx, stx and any PEER access hold the context; the others retire. -/
def Sys2Proof.Stated.GlobalAccess : Prop :=
  ∀ (s : State) (d a b : BitVec 6) (t u : Bool) (w : BitVec 3) (v : BitVec 2) (o : BitVec 8),
    (Ready s [gs b t] [regG d] →
      let q := s.takeG (regG b)
      let va := q.1 + .ofNat 64 (o.toNat * Claims.size w)
      ∀ e, e.ty ≤ 2 → Claims.MayUse q.2 va (Claims.size w) true false e (span va.toNat (Claims.size w)) →
        ∃ r, exec (.ldg d b t w o) s = .next r ∧
          Claims.Accesses q.2 r e va false false (.load (Claims.size w)) (.load (regG d) w.toNat) .loadFault) ∧
    (Ready s [gs b t, gs d false] [] →
      let q := Claims.src2 s b d
      let va := q.1 + .ofNat 64 (o.toNat * Claims.size w)
      ∀ e, e.ty ≤ 2 → Claims.MayUse q.2.2 va (Claims.size w) false true e (span va.toNat (Claims.size w)) →
        ∃ r, exec (.stg d b t w o) s = .next r ∧
          Claims.Accesses q.2.2 r e va true false (.store (Claims.leBytes (Claims.size w) q.2.1)) .ack .storeFault) ∧
    (Ready s [gs a t, gs b u] [regG d] →
      let q := Claims.src2 s a b
      let x := q.1 + q.2.1
      Claims.MayReach q.2.2 x (Claims.size w) true false (span x.toNat (Claims.size w)) →
        ∃ r, exec (.ldx d a b t u w) s = .next r ∧ Claims.Scratch q.2.2 r x false (.load (Claims.size w)) (.load (regG d) w.toNat) .loadFault) ∧
    (Ready s [gs a t, gs b u, gs d false] [] →
      let q := Claims.src2 s a b
      let z := q.2.2.takeG (regG d)
      let x := q.1 + q.2.1
      Claims.MayReach z.2 x (2 ^ v.toNat) false true (span x.toNat (2 ^ v.toNat)) →
        ∃ r, exec (.stx d a b t u v) s = .next r ∧ Claims.Scratch z.2 r x true (.store (Claims.leBytes (2 ^ v.toNat) z.1)) .ack .storeFault)

/-- R103: the global forms of ldsync, ldfe, stfull and clrfe: on a BADDR to the remote port of its plot, else to HBM or the peer. -/
def Sys2Proof.Stated.GlobalSync : Prop :=
  ∀ (s : State) (d b : BitVec 6) (t : Bool) (o : BitVec 8),
    (Ready s [gs b t] [regG d] →
      let q := s.takeG (regG b)
      let a := q.1 + .ofNat 64 (8 * o.toNat)
      ∀ f ∈ [(Instr.ldsync d b t 3 o, 0), (Instr.ldfe d b t 3 o, 1)],
        (Claims.MayReach q.2 a 8 true false (span a.toNat 8) → a.toNat % 8 = 0 →
          ∃ r, exec f.1 s = .next r ∧ Claims.Scratch q.2 r a false (.sync f.2 0) (.words [regG d]) .loadFault) ∧
        ∀ e, e.ty ≤ 1 → Claims.MayUse q.2 a 8 true false e (span a.toNat 8) →
          ∃ r, exec f.1 s = .next r ∧ Claims.Accesses q.2 r e a false false (.sync f.2 0) (.words [regG d]) .loadFault) ∧
    (Ready s [gs b t, gs d false] [] →
      let q := Claims.src2 s b d
      let a := q.1 + .ofNat 64 (8 * o.toNat)
      (Claims.MayReach q.2.2 a 8 false true (span a.toNat 8) → a.toNat % 8 = 0 →
        ∃ r, exec (.stfull d b t 3 o) s = .next r ∧ Claims.Scratch q.2.2 r a true (.sync 2 q.2.1) .ack .storeFault) ∧
      ∀ e, e.ty ≤ 1 → Claims.MayUse q.2.2 a 8 false true e (span a.toNat 8) →
        ∃ r, exec (.stfull d b t 3 o) s = .next r ∧ Claims.Accesses q.2.2 r e a true false (.sync 2 q.2.1) .ack .storeFault) ∧
    (Ready s [gs b t] [] →
      let q := s.takeG (regG b)
      let a := q.1 + .ofNat 64 (8 * o.toNat)
      (Claims.MayReach q.2 a 8 false true (span a.toNat 8) → a.toNat % 8 = 0 →
        ∃ r, exec (.clrfe b t 3 o) s = .next r ∧ Claims.Scratch q.2 r a true (.sync 3 0) .ack .storeFault) ∧
      ∀ e, e.ty ≤ 1 → Claims.MayUse q.2 a 8 false true e (span a.toNat 8) →
        ∃ r, exec (.clrfe b t 3 o) s = .next r ∧ Claims.Accesses q.2 r e a true false (.sync 3 0) .ack .storeFault)

/-- R249 to R251: an AMO sends its operands and holds the context until its result; with .rel it waits first for the stores of the scope of
its memory. The pair of cas and amerge blocks while one of it is empty and never traps, whatever the word's bit for b. -/
def Sys2Proof.Stated.AtomicAccess : Prop :=
  ∀ (s : State) (d a b : BitVec 6) (t u : Bool) (o : BitVec 2), ∀ f ∈ Claims.amos,
    let n := f.2.2.1
    let more := if f.2.2.2.1 then [(⟨regG b + 1, false⟩ : Src)] else []
    let ds := if f.2.2.2.2 then [regG d, regG d + 1] else [regG d]
    Ready s ([gs a t, gs b (u && !f.2.2.2.1)] ++ more) ds →
      let q := Claims.src2 s a b
      let op := MemOp.amo f.2.1 q.2.1 (if f.2.2.2.1 then s.me.regs.gv (regG b + 1) else 0)
      let free := fun (scope : Nat) => 2 ≤ o.toNat → ∀ x ∈ s.me.outst, ¬ Claims.Waits scope x
      let near := fieldOf (bPlot q.1) == fieldOf s.cur.1
      (Claims.MayReach q.2.2 q.1 n true true (span q.1.toNat n) →
        free (Claims.relOf (if bPlot q.1 = s.plotId s.cur.1 then .scratchOwn else .scratch) near) →
        ∃ r, exec (f.1 d a b t u o) s = .next r ∧ Claims.Scratch q.2.2 r q.1 true op (.words ds) .storeFault) ∧
      ∀ e, e.ty ≤ 2 → Claims.MayUse q.2.2 q.1 n true true e (span q.1.toNat n) → q.1.toNat / 2 ^ 62 ≠ 3 → free (if e.ty = 0 then 3 else 4) →
        ∃ r, exec (f.1 d a b t u o) s = .next r ∧ Claims.Accesses q.2.2 r e q.1 true true op (.words ds) .storeFault

/-- R105, R110, R111, R246, R247: what stops a global access, in this order: its alignment, bits [63:56], a translation that failed, a miss,
which asks for the translation and blocks, its permissions, and the capability of a bound region. -/
def Sys2Proof.Stated.GlobalFaults : Prop :=
  ∀ (s : State) (d b : BitVec 6) (t : Bool) (w : BitVec 3) (o : BitVec 8) (st : Bool),
    Ready s (if st then [gs b t, gs d false] else [gs b t]) (if st then [] else [regG d]) →
    let q := if st then (Claims.src2 s b d).2.2 else (s.takeG (regG b)).2
    let va := (s.takeG (regG b)).1 + .ofNat 64 (o.toNat * Claims.size w)
    let out := exec (if st then .stg d b t w o else .ldg d b t w o) s
    let fault := Host.Outcome.next (s.trap (if st then .storeFault else .loadFault) va)
    (va.toNat % Claims.size w ≠ 0 ∨ 2 ^ 56 ≤ va.toNat → out = fault) ∧
    (va.toNat % Claims.size w = 0 → va.toNat < 2 ^ 56 →
      (s.me.xfault = some (va.toNat / 2 ^ 16) → out = fault) ∧
      (s.me.xfault ≠ some (va.toNat / 2 ^ 16) →
        (q.myPlot.lookup va.toNat = none → out = .next (s.blocked (.translation (va.toNat / 2 ^ 16)))) ∧
        ∀ e, q.myPlot.lookup va.toNat = some e →
          ((if st then e.wr else e.rd) = false → out = fault) ∧
          ((if st then e.wr else e.rd) = true → ∀ r, e.region = some r →
            (st = true → s.me.holdsExcl r = false → out = .next (s.trap .capability va)) ∧
            (st = false → bitw s.myPlot.csr.detctl 1 = true → (∀ g ∈ s.me.gates, ¬ (g.target = r ∧ g.home = none)) → out = .next (s.trap .capability va)))))

/-! ## Invocations and handles -/

namespace Sys2Proof.Claims

open Sys2Proof Sys2Proof.Machine

/-- The argument registers of an INVOKE or SEND of n words (R210). -/
def argSrcs (n : Nat) : List Src := (List.range n).map fun k => ⟨3 + k, false⟩

/-- Their values. -/
def argVals (s : State) (n : Nat) : List Word := (List.range n).map fun k => s.me.regs.gv (3 + k)

/-- R207: the lowest-numbered free record. -/
def FreeRec (x : Plot) (k : Nat) : Prop := k < 128 ∧ (x.rec_ k).st = .free ∧ ∀ j, j < k → (x.rec_ j).st ≠ .free

/-- R211: the record that an INVOKE makes. -/
def newRecord (task gen members : Nat) (st : PState) : Record :=
  { Record.reset with gen := gen, st := st, owner := .task task, members := members, left := members }

/-- R211: the members of a rectangle word. -/
def area (w : Word) : Nat := (w.toNat / 2 ^ 20 % 256 + 1) * (w.toNat / 2 ^ 12 % 256 + 1)

/-- R6: a handle of a record of the current plot. -/
def handleAt (s : State) (k gen : Nat) : Word := .ofNat 64 (s.plotId s.cur.1 * 2 ^ 28 + k * 2 ^ 21 + gen * 2 ^ 13 + 1)

/-- The current plot with one record replaced, whose log begins with the creation (R402), and a fresh serial number taken. -/
def withRecord (s : State) (k : Nat) (r : Record) (target : Word) (method : Nat) : State :=
  { s.setPlot s.cur.1 { s.myPlot with records := Sparse.set Record.reset s.myPlot.records k r } with
    serial := s.serial + 1
    recLogs := Sparse.set ⟨0, []⟩ s.recLogs (recKey s.cur.1 k) ⟨s.now, [(0, .created s.ipc target method)]⟩ }

/-- The answer address of the current task's next access. -/
def asker (s : State) : Who := ⟨s.plotId s.cur.1, s.me.csr.taskid, s.serial⟩

/-- R224: what await and awaitb mark: both are written by the answer. -/
def answerTo (s : State) (ds : List Nat) (x : Word) : Outst := ⟨s.serial, .other, false, .words ds, x⟩

end Sys2Proof.Claims

/-- R206, R211, R243: invoke takes the lowest free record, gives d its handle at once, and sends the invocation, with the exclusive capabilities
under cap; a target that breaks its form makes the record broken with STALE-REF, and nothing is sent but releases of the capabilities.
Without a free record it blocks; cap with mc raises CAPABILITY. -/
def Sys2Proof.Stated.InvokeSends : Prop :=
  ∀ (s : State) (d a n m : BitVec 6) (t : Bool), Ready s (gs a t :: Claims.argSrcs n.toNat) [regG d] →
    let q := s.takeG (regG a)
    let f := modInvFields s.me.pair
    let caps := if f.cap then s.me.gates.filter (·.excl) else []
    let c := if f.cap then q.2.modMe fun x => { x with gates := x.gates.filter fun g => !g.excl } else q.2
    (f.cap = true → f.mc = true → exec (.invoke d a n t m) s = .next (s.trap .capability 0)) ∧
    (¬ (f.cap = true ∧ f.mc = true) → (∀ k, k < 128 → (s.myPlot.rec_ k).st ≠ .free) → exec (.invoke d a n t m) s = .next (s.blocked .record)) ∧
    ∀ k, ¬ (f.cap = true ∧ f.mc = true) → Claims.FreeRec s.myPlot k → (∀ g ∈ caps, q.2.relWait (q.2.copiesFor s.cur.1 s.me g) = .ok ()) →
      let gen := ((s.myPlot.rec_ k).gen + 1) % 256
      let h := Claims.handleAt s k gen
      let i : Inv := {
        target := q.1, mc := f.mc, member := false, method := m.toNat, args := Claims.argVals s n.toNat, hmask := f.hmask, smask := f.smask,
        pri := f.pri, caps := caps, promise := h, parent := s.me.task.promise, sender := .ofNat 64 (s.plotId s.cur.1), hops := 0, path := [],
        tenant := s.myPlot.tenant, order := s.serial }
      let size := if f.mc then Claims.area q.1 else 0
      (targetOk q.1 f.mc = true → ∃ r, exec (.invoke d a n t m) s = .next r ∧
        Wrote ((Claims.withRecord c k (Claims.newRecord s.me.csr.taskid gen size .unresolved) q.1 m.toNat).leave s.cur.1 s.me.csr.taskid
          (s.me.before 4) (.invocation i)) r (regG d) h) ∧
      (targetOk q.1 f.mc = false → ∃ r, exec (.invoke d a n t m) s = .next r ∧
        Wrote ((Claims.withRecord c k (Claims.newRecord s.me.csr.taskid gen 0 (.broken (mkBreak h 0x19 0))) q.1 m.toNat).releaseCaps
          (.plot (s.plotId s.cur.1)) i) r (regG d) h)

/-- R212, R213, R216: where an invocation goes: to the plot of its lowest strict argument that is still a handle, else to its target's plot, and
a multicast to every plot of its rectangle. A handle whose plot does not exist breaks it. -/
def Sys2Proof.Stated.InvocationRoutes : Prop :=
  ∀ (s : State) (src : Endpoint) (i : Inv),
    let goes := fun (h : Word) => s.route src i = if plotOk (hPlot h) then s.push ⟨.inv, src, .plot (hPlot h), i.tenant, .inv i⟩
      else s.breakInv src i (mkBreak h 0x19 1)
    (∀ k h, i.args[k]? = some h → i.smask.testBit k = true → bitw h 0 = true →
      (∀ j w, j < k → i.args[j]? = some w → i.smask.testBit j = true → bitw w 0 = false) → goes h) ∧
    ((∀ k h, i.args[k]? = some h → i.smask.testBit k = true → bitw h 0 = false) →
      (i.mc = false ∨ i.member = true → goes i.target) ∧
      (i.mc = true → i.member = false → i.path = [] → s.route src i = (rectPlots i.target).foldl (fun s q =>
        s.push ⟨.inv, src, .plot q, i.tenant, .inv { i with target := .ofNat 64 (q * 2 ^ 28), member := true }⟩) s))

/-- R224, R225, R229: await and awaitb: a word that is no handle is delivered at once; the own promise raises DEAD-WAIT; a plot that does not
exist makes the handle stale; else the request leaves in INV, the destinations are empty, and the context is held. It leaves behind an invocation of
the task that names a handle and still waits to leave (R221; DEDUCED, log entry 103). -/
def Sys2Proof.Stated.AwaitAsks : Prop :=
  ∀ (s : State) (d a b : BitVec 6) (t : Bool),
    let q := s.takeG (regG a)
    let msg := Claims.mine s .inv (.plot (hPlot q.1)) (.awaitReq q.1 (Claims.asker s))
    let behind := ∃ l ∈ s.myPlot.outbox, l.task = s.me.csr.taskid ∧ ∃ i, l.what = .invocation i ∧ bitw i.target 0 = true
    let asks := fun (ds : List Nat) (r : State) (ps : List Packet) => Claims.Asks q.2 r .await ds q.1 0 (some (Claims.answerTo s ds q.1)) ps
    let ask := fun (ds : List Nat) (r : State) => (¬ behind → asks ds r [msg]) ∧
      (behind → ∃ u : State, asks ds u [] ∧
        r = u.modPlot s.cur.1 fun x => { x with outbox := x.outbox ++ [⟨s.me.csr.taskid, [], .packet msg⟩] })
    (Ready s [gs a t] [regG d] →
      (bitw q.1 0 = false → ∃ r, exec (.await d a t) s = .next r ∧ Wrote q.2 r (regG d) q.1) ∧
      (bitw q.1 0 = true → q.1 = s.me.task.promise → exec (.await d a t) s = .next (s.trap .deadWait q.1)) ∧
      (bitw q.1 0 = true → q.1 ≠ s.me.task.promise → plotOk (hPlot q.1) = false →
        exec (.await d a t) s = .next (s.trap .broken (mkBreak q.1 0x19 0))) ∧
      (bitw q.1 0 = true → q.1 ≠ s.me.task.promise → plotOk (hPlot q.1) = true → ∃ r, exec (.await d a t) s = .next r ∧ ask [regG d] r)) ∧
    (Ready s [gs a t] [regG d, regG b] →
      (bitw q.1 0 = false → ∃ r, exec (.awaitb d a b t) s = .next r ∧ Wrote (q.2.setG (regG d) q.1) r (regG b) 0) ∧
      (bitw q.1 0 = true → q.1 = s.me.task.promise → exec (.awaitb d a b t) s = .next (s.trap .deadWait q.1)) ∧
      (bitw q.1 0 = true → q.1 ≠ s.me.task.promise → plotOk (hPlot q.1) = false →
        ∃ r, exec (.awaitb d a b t) s = .next r ∧ Wrote (q.2.setG (regG d) (mkBreak q.1 0x19 0)) r (regG b) 1) ∧
      (bitw q.1 0 = true → q.1 ≠ s.me.task.promise → plotOk (hPlot q.1) = true → ∃ r, exec (.awaitb d a b t) s = .next r ∧ ask [regG d, regG b] r))

/-- R226, R232, R233: hstat asks and goes on; send posts its words, or raises STORE-FAULT; recv waits at its channel without holding its
context, where it is served at once if a message is there. -/
def Sys2Proof.Stated.MessagesLeave : Prop :=
  ∀ (s : State) (d a n : BitVec 6) (t : Bool),
    let q := s.takeG (regG a)
    let x := q.1.toNat
    (Ready s [gs a t] [regG d] →
      ((bitw q.1 0 = false ∨ plotOk (hPlot q.1) = false) → ∃ r, exec (.hstat d a t) s = .next r ∧ Wrote q.2 r (regG d) 0) ∧
      (bitw q.1 0 = true → plotOk (hPlot q.1) = true → ∃ r, exec (.hstat d a t) s = .next r ∧
        Claims.Sends q.2 r (Claims.answerTo s [regG d] q.1) (Claims.mine s .inv (.plot (hPlot q.1)) (.hstatReq q.1 (Claims.asker s))))) ∧
    (Ready s (gs a t :: Claims.argSrcs n.toNat) [] →
      (2 ^ 42 ≤ x ∨ plotOk (x % 2 ^ 36) = false → exec (.send a n t) s = .next (s.trap .storeFault q.1)) ∧
      (x < 2 ^ 42 → plotOk (x % 2 ^ 36) = true → ∃ r, exec (.send a n t) s = .next r ∧
        Went (q.2.leave s.cur.1 s.me.csr.taskid (s.me.before 4) (.packet (Claims.mine s .inv (.plot (x % 2 ^ 36))
          (.raw (Claims.argVals s n.toNat) (.ofNat 64 (s.plotId s.cur.1)) (x / 2 ^ 36))))) r q.2.nextPc)) ∧
    (Ready s [gs a t] [regG d] →
      (64 ≤ x → exec (.recv d a t) s = .next (s.trap .loadFault q.1)) ∧
      (x < 64 → ∃ r : State, exec (.recv d a t) s = .next (r.serveAll s.cur.1 x) ∧
        r.me = { s.me.retired with
          pc := s.nextPc, issued := true, lastIssue := s.now, outst := s.me.outst ++ [Claims.answerTo s [regG d] q.1]
          regs := { s.me.regs with empt := r.me.regs.empt } } ∧
        (∀ k, r.me.regs.isEmpty k = (s.me.regs.isEmpty k || decide (k ≠ 0 ∧ k = regG d))) ∧
        r.myPlot.chan x = { q.2.myPlot.chan x with recvs := (q.2.myPlot.chan x).recvs ++ [(Claims.asker s, regG d)] } ∧
        (∀ k, k ≠ x → r.myPlot.chan k = q.2.myPlot.chan k) ∧ r = { q.2 with plots := r.plots, serial := s.serial + 1 }))

/-! ## Headgates, barriers, pools and services -/

namespace Sys2Proof.Claims

open Sys2Proof Sys2Proof.Machine

/-- R238: a record's address: 64-aligned, below 2^56, translated as for a store, in HBM. -/
structure RecordAt (s : State) (x : Word) (e : Tlb) : Prop where
  aligned : x.toNat % 64 = 0 ∧ x.toNat < 2 ^ 56
  walk : s.me.xfault = none
  hit : s.myPlot.lookup x.toNat = some e
  perms : e.wr = true ∧ e.ty = 0

/-- R238: the request to the headgate unit of a record. -/
def gateAsk (s : State) (x : Word) (target : Nat) (op : GateOp) : Packet :=
  mine s .req (.base (target / 4096 % 12)) (.gate ⟨asker s, s.cur.2, x, target, op, s.myPlot.tenant⟩)

/-- R241: nothing that a release of a record waits for is outstanding. -/
def Released (s : State) (target : Nat) : Prop := (∀ o ∈ s.me.outst, ¬ Waits 3 o) ∧ s.copiesBefore s.cur.1 s.me target = []

/-- R211, R252: the issuer is a member of a rectangle of its own field. -/
def BarrierWord (s : State) (w : Word) : Prop :=
  let p := w.toNat / 2 ^ 28
  let q := s.plotId s.cur.1
  let h := w.toNat / 2 ^ 20 % 256 + 1
  let n := w.toNat / 2 ^ 12 % 256 + 1
  w.toNat % 4096 = 0 ∧ plotOk p = true ∧ rowOf p + h ≤ 192 ∧ colOf p + n ≤ 216 ∧ p / 2 ^ 16 = q / 2 ^ 16 ∧
    rowOf p ≤ rowOf q ∧ rowOf q < rowOf p + h ∧ colOf p ≤ colOf q ∧ colOf q < colOf p + n

/-- R261: a POOL request leaves for the field's weir, and the context is held for its answer. -/
def PoolAsks (s t : State) (k : HoldKind) (pool : Nat) (op : PoolOp) (ds : List Nat) (v : Word) (n : Nat) : Prop :=
  Asks s t k ds v n (some (answerTo s ds v)) [mine s .req (.service (fieldOf s.cur.1)) (.pool (asker s) pool op v)]

/-- R260: the POOL instructions with a pool word alone: their destinations and requests, and what holds the context. -/
def poolOps (d a : BitVec 6) (t : Bool) : List (Instr × List Nat × PoolOp × HoldKind) :=
  [(.ptake d a t, [regG d, regG d + 1], .take false, .take), (.ptaken d a t, [regG d, regG d + 1], .take true, .take),
   (.ppeek d a t, [regG d], .peek, .pool), (.pstat d a t, [regG d], .stat, .pool)]

end Sys2Proof.Claims

/-- R238, R240: acq.s and acq.x: a record in the table is enough where its mode is; a shared one is not raised, and a full table takes no
more (CAPABILITY); else the request leaves and the context waits for the grant. -/
def Sys2Proof.Stated.AcquireAsks : Prop :=
  ∀ (s : State) (a : BitVec 6) (t : Bool) (e : Tlb), Ready s [gs a t] [] →
    let q := s.takeG (regG a)
    let tg := e.target + (q.1.toNat - e.va)
    Claims.RecordAt q.2 q.1 e →
    ∀ f ∈ [(Instr.acqS a t, false), (Instr.acqX a t, true)],
      (∀ g, s.me.gate tg = some g → (f.2 = false ∨ g.excl = true) → ∃ r, exec f.1 s = .next r ∧ Went q.2 r q.2.nextPc) ∧
      (∀ g, s.me.gate tg = some g → f.2 = true → g.excl = false → exec f.1 s = .next (s.trap .capability q.1)) ∧
      (s.me.gate tg = none → 4 ≤ s.me.gates.length → exec f.1 s = .next (s.trap .capability q.1)) ∧
      (s.me.gate tg = none → s.me.gates.length < 4 → ∃ r, exec f.1 s = .next r ∧
        Claims.Asks q.2 r (.acquire q.1 tg f.2) [] q.1 0 none [Claims.gateAsk s q.1 tg (.acq f.2)])

/-- R241, R242, R245: rel, handover and hgbind need the record in the table, handover and hgbind as exclusive (CAPABILITY); rel and handover
wait for what R241 names, take the record from the table, and ask; hgbind asks with its region word. -/
def Sys2Proof.Stated.ReleaseAsks : Prop :=
  ∀ (s : State) (a b : BitVec 6) (t u : Bool) (e : Tlb),
    let one := s.takeG (regG a)
    let two := Claims.src2 s a b
    let tg := e.target + (one.1.toNat - e.va)
    let drop := fun (s : State) => s.modMe fun x => { x with gates := x.gates.filter fun g => !g.names tg }
    (Ready s [gs a t] [] → Claims.RecordAt one.2 one.1 e →
      (s.me.gate tg = none → exec (.rel a t) s = .next (s.trap .capability one.1)) ∧
      (s.me.gate tg ≠ none → ¬ Claims.Released one.2 tg → exec (.rel a t) s = .next (s.blocked (.release (s.copiesBefore s.cur.1 s.me tg)))) ∧
      (s.me.gate tg ≠ none → Claims.Released one.2 tg → ∃ r, exec (.rel a t) s = .next r ∧
        Claims.Asks (drop one.2) r (.gate one.1) [] one.1 0 none [Claims.gateAsk s one.1 tg .rel])) ∧
    (Ready s [gs a t, gs b u] [] → Claims.RecordAt two.2.2 two.1 e →
      (s.me.holdsExcl tg = false → exec (.handover a b t u) s = .next (s.trap .capability two.1) ∧
        exec (.hgbind a b t u) s = .next (s.trap .capability two.1)) ∧
      (s.me.holdsExcl tg = true →
        (¬ Claims.Released two.2.2 tg → exec (.handover a b t u) s = .next (s.blocked (.release (s.copiesBefore s.cur.1 s.me tg)))) ∧
        (Claims.Released two.2.2 tg → ∃ r, exec (.handover a b t u) s = .next r ∧
          Claims.Asks (drop two.2.2) r .handover [] two.1 0 none [Claims.gateAsk s two.1 tg (.handover two.2.1)]) ∧
        (2 ^ 56 ≤ two.2.1.toNat → exec (.hgbind a b t u) s = .next (s.trap .capability two.2.1)) ∧
        (two.2.1.toNat < 2 ^ 56 → ∃ r, exec (.hgbind a b t u) s = .next r ∧
          Claims.Asks two.2.2 r .bind [] two.1 16 none [Claims.gateAsk s two.1 tg (.bind two.2.1)])))

/-- R252, R253: bar: a rectangle that is none of the issuer's raises STORE-FAULT; it waits as fence.pkg does and for another barrier of the plot,
of a spilled task's too, and then arrives and holds its context for the generation. -/
def Sys2Proof.Stated.BarrierArrives : Prop :=
  ∀ (s : State) (d a : BitVec 6) (t : Bool), Ready s [gs a t] [regG d] →
    let q := s.takeG (regG a)
    let idle := ∀ y, ((∃ c, c < 4 ∧ y = s.ctx s.cur.1 c) ∨ ∃ i ∈ s.myPlot.sched.images, y = i.1) → ∀ h, y.hold = some h → h.kind ≠ .barrier
    (¬ Claims.BarrierWord s q.1 → exec (.bar d a t) s = .next (s.trap .storeFault q.1)) ∧
    (Claims.BarrierWord s q.1 →
      ((∃ o ∈ s.me.outst, Claims.Waits 3 o) → exec (.bar d a t) s = .next (s.blocked (.fence 3))) ∧
      ((∀ o ∈ s.me.outst, ¬ Claims.Waits 3 o) → ¬ idle → exec (.bar d a t) s = .next (s.blocked .barrier)) ∧
      ((∀ o ∈ s.me.outst, ¬ Claims.Waits 3 o) → idle → ∃ r, exec (.bar d a t) s = .next r ∧
        Claims.Asks q.2 r .barrier [regG d] q.1 0 (some (Claims.answerTo s [regG d] q.1))
          [Claims.mine s .req (.service (fieldOf s.cur.1)) (.barArrive (Claims.asker s) q.1)]))

/-- R260 to R266: the POOL instructions: a pool word with other bits, or a bad configuration, faults; else the request leaves for the field's
weir and the context is held for the answer, pcfg for sixteen. -/
def Sys2Proof.Stated.PoolRequests : Prop :=
  ∀ (s : State) (d a b : BitVec 6) (t u : Bool),
    let one := s.takeG (regG a)
    let two := Claims.src2 s a b
    (Ready s [gs a t, gs b u] [regG d] →
      (2 ^ 38 ≤ two.1.toNat → exec (.pput d a b t u) s = .next (s.trap .storeFault two.1)) ∧
      (two.1.toNat < 2 ^ 38 → ∃ r, exec (.pput d a b t u) s = .next r ∧
        Claims.PoolAsks two.2.2 r .put (two.1.toNat / 2 ^ 32) (.put (two.1.toNat % 2 ^ 32) two.2.1) [regG d] two.1 0)) ∧
    (∀ f ∈ Claims.poolOps d a t, Ready s [gs a t] f.2.1 →
      (one.1.toNat % 2 ^ 32 ≠ 0 ∨ 2 ^ 38 ≤ one.1.toNat → exec f.1 s = .next (s.trap .loadFault one.1)) ∧
      (one.1.toNat % 2 ^ 32 = 0 → one.1.toNat < 2 ^ 38 → ∃ r, exec f.1 s = .next r ∧
        Claims.PoolAsks one.2 r f.2.2.2 (one.1.toNat / 2 ^ 32) f.2.2.1 f.2.1 one.1 0)) ∧
    (s.me.sup = true → Ready s [gs a t, gs b u] [] →
      (two.1.toNat % 2 ^ 32 ≠ 0 ∨ 2 ^ 38 ≤ two.1.toNat → exec (.pcfg a b t u) s = .next (s.trap .storeFault two.1)) ∧
      (two.1.toNat % 2 ^ 32 = 0 → two.1.toNat < 2 ^ 38 →
        let w := two.2.1.toNat
        let ok := w / 2 ^ 54 % 2 ^ 9 = 0 ∧ w / 2 ^ 24 % 256 = 0 ∧ w / 2 ^ 14 % 4 = 0 ∧ w / 2 ^ 16 % 256 ≠ 0
        (¬ ok → exec (.pcfg a b t u) s = .next (s.trap .storeFault two.2.1)) ∧
        (ok → ∃ r, exec (.pcfg a b t u) s = .next r ∧
          Claims.PoolAsks two.2.2 r .pcfg (two.1.toNat / 2 ^ 32) (.cfg two.2.1) [] two.2.1 16)))

/-- R322, R324: tlbinv and tlbinv.all send their invalidation to all sixteen service blocks and hold the context for their acknowledgements;
objhome sends a mapping of an object of the plot to the field of the old one, or to the gateway plot of another package. -/
def Sys2Proof.Stated.ServiceRequests : Prop :=
  ∀ (s : State) (a : BitVec 6) (t : Bool), s.me.sup = true →
    let q := s.takeG (regG a)
    let all := fun (va : Option Nat) => (List.range 16).map fun f =>
      Claims.mine s .sys (.service f) (.tlbInv va (Claims.asker s) f s.myPlot.tenant)
    (Ready s [gs a t] [] →
      (2 ^ 56 ≤ q.1.toNat → exec (.tlbinv a t) s = .next (s.trap .storeFault q.1)) ∧
      (q.1.toNat < 2 ^ 56 → ∃ r, exec (.tlbinv a t) s = .next r ∧ Claims.Asks q.2 r .tlbinv [] 0 16 none (all (some q.1.toNat)))) ∧
    (Ready s [] [] → ∃ r, exec .tlbinvAll s = .next r ∧ Claims.Asks s r .tlbinv [] 0 16 none (all none)) ∧
    (Ready s [⟨regG a, false⟩, ⟨regG a + 1, false⟩] [] →
      let old := s.me.regs.gv (regG a)
      let new := s.me.regs.gv (regG a + 1)
      let o := s.myPlot.obj (oSlot new)
      let here := hPlot new = s.plotId s.cur.1 ∧ o.v = true ∧ o.gen = oGen new
      (orefOk old = false → exec (.objhome a t) s = .next (s.trap .storeFault old)) ∧
      (orefOk old = true → (orefOk new = false ∨ ¬ here) → exec (.objhome a t) s = .next (s.trap .storeFault new)) ∧
      (orefOk old = true → orefOk new = true → here → ∃ r, exec (.objhome a t) s = .next r ∧
        Claims.Asks s r .objhome [] new 1 none [Claims.mine s .sys
          (if hPlot old / 2 ^ 20 = s.pkg then .service (hPlot old / 2 ^ 16 % 16) else .plot (hPlot old / 2 ^ 16 * 2 ^ 16 + 96 * 256 + 108))
          (.dirMap old new (Claims.asker s))]))

/-! ## Copies and collectives -/

namespace Sys2Proof.Claims

open Sys2Proof Sys2Proof.Machine

/-- R281, R59, R61: beside its hold, an engine's instruction leaves its result register as it is, or takes a port's slot. -/
structure Slotted (s u t : State) (d : Nat) : Prop where
  only : t = { u with plots := t.plots }
  plots : ∀ q, q ≠ s.cur.1 → t.plot q = u.plot q
  regs : t.me.regs = u.me.regs
  port : 60 ≤ d → d < 64 → t.myPlot.outbound (d - 60) = s.myPlot.outbound (d - 60) ++ [⟨s.serial, none⟩]
  ports : ∀ k, 60 + k ≠ d → t.myPlot.outbound k = s.myPlot.outbound k

/-- R281, R283, R285: a copy command has left for a flume, with an outstanding-copy record, and the context is held for the acceptance. -/
def CopyLeaves (s t : State) (c : CopyCmd) (d flume : Nat) : Prop :=
  ∃ u, Asks s u (.flume c.lt (c.kind == 1) c.len) [] 0 0 (some ⟨s.serial, .other, false, .take d, 0⟩)
      [mine s .req (.base (flume / 2)) (.copy { c with who := asker s } flume)] ∧ Slotted s u t d ∧
    t.me = { u.me with
      regs := t.me.regs
      copies := s.me.copies ++ [⟨s.serial, s.me.freeCopy, c.lt, 2 ^ 64, false, false, (c.dst.virt c.len).1, (c.dst.virt c.len).2⟩] }

/-- R289, R292: a request has left for the sluice of a communicator's word, and the context is held for the answer. -/
def SluiceAsks (s t : State) (k : HoldKind) (w : Word) (m : Msg) (d : Nat) : Prop :=
  ∃ u, Asks s u k [] w 0 (some ⟨s.serial, .other, false, .take d, w⟩) [mine s .req (.head (w.toNat % 256 / 32 / 2)) m] ∧ Slotted s u t d ∧
    t.me = { u.me with regs := t.me.regs }

/-- R280, R281: the places of a copy have been found, and nothing it waits for is outstanding. -/
structure MayCopy (s : State) (x y : Word) (n : Nat) (src dst : Loc) (srcTy dstTy : Nat → Bool) (srcBuf dstBuf : Bool) : Prop where
  room : s.me.copies.length < 8
  source : s.locTry x n false srcTy srcBuf = .ok src
  dest : s.locTry y n true dstTy dstBuf = .ok dst
  ends : rangeEnd x n .loadFault = .ok () ∧ rangeEnd y n .storeFault = .ok ()
  cap : s.capRange dst = .ok ()
  idle : ∀ o ∈ s.me.outst, ¬ Waits 4 o

/-- R279, R280: the place of a guard word: none for 0, else an aligned word of a buffer, or of HBM that may be read. -/
def GuardAt (s : State) (g : Word) (l : Option Loc) : Prop :=
  (g = 0 ∧ l = none) ∨
  (g ≠ 0 ∧ isBaddr g = true ∧ s.baddrOk g 8 8 false = true ∧ l = some (.scratch (bPlot g) (bBuf g) (bOff g))) ∨
  (g ≠ 0 ∧ g.toNat % 8 = 0 ∧ g.toNat < 2 ^ 56 ∧ ∃ e, s.service s.cur.1 g.toNat = some e ∧ e.rd = true ∧ e.ty = 0 ∧ l = some (.pages g.toNat [e]))

/-- R285, R286: the signal of a puts: none under NS, else an AMO of R249 on an aligned word of the destination's package. -/
def SignalAt (s : State) (z sa so : Word) (dst : Loc) (l : Option (Nat × Loc × Word)) : Prop :=
  (z.toNat / 2 ^ 39 = 1 ∧ l = none) ∨
  (z.toNat / 2 ^ 39 = 0 ∧ z.toNat / 2 ^ 32 % 16 ≠ 2 ∧ z.toNat / 2 ^ 32 % 16 < 10 ∧ sa.toNat % 8 = 0 ∧ sa.toNat < 2 ^ 56 ∧
    ∃ e, s.service s.cur.1 sa.toNat = some e ∧ e.rd = true ∧ e.wr = true ∧ e.ty ≤ 1 ∧ Loc.peer (.pages sa.toNat [e]) = dst.peer ∧
      l = some (z.toNat / 2 ^ 32 % 16, .pages sa.toNat [e], so))

/-- Memory types (R110): HBM 0, PEER 1, HOST 2. -/
def hbmHost (ty : Nat) : Bool := ty == 0 || ty == 2
/-- HBM or PEER. -/
def hbmPeer (ty : Nat) : Bool := ty == 0 || ty == 1
/-- HBM. -/
def hbmOnly (ty : Nat) : Bool := ty == 0

end Sys2Proof.Claims

/-- R277 to R281: cpy leaves for the flume of the plot's stack that has fewer queued bytes, cpy.e for the flume that its register names; the
control word gives the length, CE, LT and the guard's unit, which is not 0 where there is a guard. -/
def Sys2Proof.Stated.CopyStarts : Prop :=
  ∀ (s : State) (d a b : BitVec 6) (u : Bool) (src dst : Loc) (guard : Option Loc),
    let x := s.me.regs.gv (regG a)
    let y := s.me.regs.gv (regG a + 1)
    let z := s.me.regs.gv (regG a + 2)
    let n := z.toNat % 2 ^ 32
    let four := (List.range 4).map fun k => (⟨regG a + k, false⟩ : Src)
    let cmd : CopyCmd := {
      who := ⟨0, 0, 0⟩, kind := 0, src := src, dst := dst, len := n, ce := z.toNat.testBit 63, lt := z.toNat.testBit 62
      guard := guard, unit := z.toNat / 2 ^ 40 % 2 ^ 16, signal := none, tenant := s.myPlot.tenant, peer := none }
    z.toNat / 2 ^ 56 % 64 = 0 → z.toNat / 2 ^ 32 % 256 = 0 → (guard ≠ none → z.toNat / 2 ^ 40 % 2 ^ 16 ≠ 0) →
    (Ready s four [regG d] → Claims.GuardAt s (s.me.regs.gv (regG a + 3)) guard → Claims.MayCopy s x y n src dst Claims.hbmHost Claims.hbmHost true true →
      ∃ r, exec (.cpy d a) s = .next r ∧ Claims.CopyLeaves s r cmd (regG d) (s.chooseFlume s.cur.1)) ∧
    (Ready s (gs b u :: four) [regG d] →
      let q := s.takeG (regG b)
      Claims.GuardAt q.2 (s.me.regs.gv (regG a + 3)) guard → Claims.MayCopy q.2 x y n src dst Claims.hbmHost Claims.hbmHost true true → q.1.toNat < 24 →
      ∃ r, exec (.cpyE d a b u) s = .next r ∧ Claims.CopyLeaves q.2 r cmd (regG d) q.1.toNat)

/-- R284, R285, R286: puts, with its signal or none, and get. The model's choices: with NS = 1 no signal field is checked, and a length of 0
still translates its ranges (log entry 32); the peer is that of the range's first page (log entry 33). -/
def Sys2Proof.Stated.RemoteCopyStarts : Prop :=
  ∀ (s : State) (d a : BitVec 6) (src dst : Loc) (signal : Option (Nat × Loc × Word)),
    let x := s.me.regs.gv (regG a)
    let y := s.me.regs.gv (regG a + 1)
    let z := s.me.regs.gv (regG a + 2)
    let n := z.toNat % 2 ^ 32
    let srcs := fun k => (List.range k).map fun j => (⟨regG a + j, false⟩ : Src)
    let cmd := fun (kind : Nat) (peer : Option Nat) (sig : Option (Nat × Loc × Word)) => ({
      who := ⟨0, 0, 0⟩, kind := kind, src := src, dst := dst, len := n, ce := false
      lt := z.toNat.testBit 38, guard := none, unit := 0, signal := sig, tenant := s.myPlot.tenant, peer := peer } : CopyCmd)
    (Ready s (srcs 5) [regG d] → Claims.MayCopy s x y n src dst Claims.hbmHost Claims.hbmPeer true false →
      z.toNat / 2 ^ 36 % 4 = 0 → Claims.SignalAt s z (s.me.regs.gv (regG a + 3)) (s.me.regs.gv (regG a + 4)) dst signal →
      ∃ r, exec (.puts d a) s = .next r ∧ Claims.CopyLeaves s r (cmd 1 dst.peer signal) (regG d) (s.chooseFlume s.cur.1)) ∧
    (Ready s (srcs 3) [regG d] → Claims.MayCopy s x y n src dst Claims.hbmPeer Claims.hbmOnly false true →
      z.toNat / 2 ^ 32 % 64 = 0 → z.toNat / 2 ^ 39 = 0 →
      ∃ r, exec (.get d a) s = .next r ∧ Claims.CopyLeaves s r (cmd 2 src.peer none) (regG d) (s.chooseFlume s.cur.1))

/-- R277: the flume that cpy, puts and get use: of the two at the stack of the logical plot number modulo 12, the one with fewer queued bytes,
the even one when they have as many. R283: the number of a new copy record is the lowest that no record of the context has. -/
def Sys2Proof.Stated.FlumeChosen : Prop :=
  ∀ (s : State) (p : Nat),
    let k := (p / 2 ^ 16 % 16 * 41472 + p / 256 % 256 * 216 + p % 256) % 12
    (s.chooseFlume p = 2 * k ∨ s.chooseFlume p = 2 * k + 1) ∧
    ((s.flume (2 * k)).queued ≤ (s.flume (2 * k + 1)).queued → s.chooseFlume p = 2 * k) ∧
    ((s.flume (2 * k + 1)).queued < (s.flume (2 * k)).queued → s.chooseFlume p = 2 * k + 1) ∧
    ∀ y : Ctx, (y.freeCopy < 8 → ∀ c ∈ y.copies, c.no ≠ y.freeCopy) ∧ ∀ n, n < y.freeCopy → n < 8 → ∃ c ∈ y.copies, c.no = n

/-- R288 to R292: coll whose words, ranges and waits are good asks the sluice of its communicator; collw asks with its token. Each holds its
context for the answer. -/
def Sys2Proof.Stated.CollectiveAsks : Prop :=
  ∀ (s : State) (d a : BitVec 6) (t : Bool),
    (Ready s ((List.range 4).map fun k => (⟨regG a + k, false⟩ : Src)) [regG d] →
      let c := s.me.regs.gv (regG a)
      let x := s.me.regs.gv (regG a + 1)
      let y := s.me.regs.gv (regG a + 2)
      let l := s.me.regs.gv (regG a + 3)
      let op := c.toNat / 256 % 16
      let k := s.comm (c.toNat % 256)
      let size := collSizes op (k.npk + 1) (l.toNat % 2 ^ 32) (c.toNat / 2 ^ 16 % 2 ^ 16) k.rank (k.locals.head? == some (s.plotId s.cur.1))
      ∀ src dst, collFields c l = true → (op = 0 → x = 0 ∧ y = 0) →
        (size.1 = 0 → src = .pages x.toNat []) → (size.1 ≠ 0 → s.locTry x size.1 false Claims.hbmOnly true = .ok src ∧ rangeEnd x size.1 .loadFault = .ok ()) →
        (size.2 = 0 → dst = .pages y.toNat []) → (size.2 ≠ 0 → s.locTry y size.2 true Claims.hbmOnly true = .ok dst ∧ rangeEnd y size.2 .storeFault = .ok ()) →
        s.capRange dst = .ok () → (∀ o ∈ s.me.outst, ¬ Claims.Waits 3 o) →
        ∃ r, exec (.coll d a) s = .next r ∧ Claims.SluiceAsks s r .coll c
          (.coll ⟨Claims.asker s, c, x, src, dst, l.toNat % 2 ^ 32, s.myPlot.tenant⟩) (regG d)) ∧
    (Ready s [gs a t] [regG d] →
      let q := s.takeG (regG a)
      ∃ r, exec (.collw d a t) s = .next r ∧ Claims.SluiceAsks q.2 r .collw q.1 (.collw (Claims.asker s) q.1) (regG d))

/-! ## Vectors -/

namespace Sys2Proof.Claims

open Sys2Proof Sys2Proof.Machine

/-- Lane `i` of `w` bits. -/
def lane (w i : Nat) (x : V256) : Nat := x.toNat / 2 ^ (w * i) % 2 ^ w

/-- R116: lane `i` is active under the pair's modifier. -/
def Active (s : State) (i : Nat) : Prop :=
  (modVf s.me.pair).mask = 0 ∨ (s.me.regs.gv (modVf s.me.pair).mask).getLsbD i = true

/-- R116: the lanes of a masked result from the lanes' results: an active lane takes its result, an inactive one is 0 or keeps the old
value; a lane that `keep` names is not touched. The flags are those of the lanes that took their results. -/
def Masked (s : State) (w : Nat) (old : V256) (keep : Nat → Prop) (f : Nat → Nat × Nat) (v : V256) (fl : Nat) : Prop :=
  (∀ i, i < 256 / w → (keep i → lane w i v = lane w i old) ∧ (¬ keep i → Active s i → lane w i v = (f i).1) ∧
    (¬ keep i → ¬ Active s i → lane w i v = if (modVf s.me.pair).zm then 0 else lane w i old)) ∧
  ∀ k, fl.testBit k = true ↔ ∃ i, i < 256 / w ∧ ¬ keep i ∧ Active s i ∧ (f i).2.testBit k = true

/-- R79, R116: the instruction retires, its result waits to be written to its register, and its flags are raised. -/
def Later (s : State) (reg : Nat) (v : V256) (fl : Nat) : State := ((s.later reg v false).raise s.cur.1 s.cur.2 fl).retire

/-- The whole result of a vector instruction of lanes. -/
def Lanes (s : State) (i : Instr) (d : BitVec 4) (w : Nat) (f : Nat → Nat × Nat) : Prop :=
  ∃ v fl, exec i s = .next (Later s (regV d) v fl) ∧ Masked s w (s.me.regs.vv d.toNat) (fun _ => False) f v fl

/-- R60, R116: the sources of a vector instruction beside its a and b: the mask, a third register, and the old destination where inactive
lanes keep it. -/
def beside (s : State) (third : List Nat) (d : BitVec 4) : List Src :=
  let m := modVf s.me.pair
  (if m.mask ≠ 0 then [(⟨m.mask, false⟩ : Src)] else []) ++ third.map (fun r => ⟨r, false⟩) ++
    if m.mask ≠ 0 ∧ m.zm = false ∧ regV d ∉ third then [⟨regV d, false⟩] else []

/-- A v register as a source. -/
abbrev vs (r : BitVec 4) (t : Bool) : Src := ⟨regV r, t⟩

/-- R26, R27: an exact integer in a type: wrapped, or clamped with SAT. -/
def fit (w : Nat) (uns sat : Bool) (r : Int) : Nat × Nat :=
  if sat = true ∧ r < least w uns then ((least w uns % 2 ^ w).toNat, 32)
  else if sat = true ∧ greatest w uns < r then ((greatest w uns).toNat, 32) else ((r % 2 ^ w).toNat, 0)

/-- R122: the integer operations of two sources, on exact integers: whether they can clamp. -/
def intTwo : List ((BitVec 4 → BitVec 4 → BitVec 4 → BitVec 3 → Bool → Bool → Instr) × Bool × (Nat → Int → Int → Int)) :=
  [(.vaddInt, true, fun _ x y => x + y), (.vsubInt, true, fun _ x y => x - y), (.vmulInt, false, fun _ x y => x * y),
   (.vmulh, false, fun w x y => x * y / 2 ^ w), (.vminInt, false, fun _ x y => min x y), (.vmaxInt, false, fun _ x y => max x y),
   (.vavg, false, fun _ x y => (x + y + 1) / 2), (.vabsd, false, fun _ x y => |x - y|)]

/-- R122: the integer operations of one source. -/
def intOne : List ((BitVec 4 → BitVec 4 → BitVec 3 → Bool → Instr) × (Int → Int)) := [(.vabsInt, fun x => |x|), (.vnegInt, fun x => -x)]

/-- R28, R122, R124: the operations of two sources on codes: width, signedness, and the code. -/
def codeTwo : List ((BitVec 4 → BitVec 4 → BitVec 4 → BitVec 3 → Bool → Bool → Instr) × (Nat → Bool → Nat → Nat → Nat)) :=
  [(.vdivInt, fun w u x y => if y = 0 then 2 ^ w - 1 else ((valueOf w u x).tdiv (valueOf w u y) % 2 ^ w).toNat),
   (.vrem, fun w u x y => if y = 0 then x else ((valueOf w u x).tmod (valueOf w u y) % 2 ^ w).toNat),
   (.vand, fun _ _ x y => x &&& y), (.vor, fun _ _ x y => x ||| y), (.vxor, fun _ _ x y => x ^^^ y),
   (.vandn, fun w _ x y => x &&& (2 ^ w - 1 - y)), (.vsll, fun w _ x y => x * 2 ^ (y % w) % 2 ^ w), (.vsrl, fun w _ x y => x / 2 ^ (y % w)),
   (.vsra, fun w _ x y => (valueOf w false x / 2 ^ (y % w) % 2 ^ w).toNat)]

/-- R124: the bitwise complement. -/
def notCode (w x : Nat) : Nat := 2 ^ w - 1 - x

/-- R32, R39, R123: what the float instructions compute with: the format, FTZ, the rounding mode and sat. -/
structure FloatEnv where
  f : Fmt
  ftz : Bool
  rm : Nat
  sat : Bool

/-- R37, R39, R49, R50, R123: that of an instruction of a type. -/
def floatEnv (s : State) (y : BitVec 4) : FloatEnv :=
  let m := modVf s.me.pair
  ⟨if m.p ≠ 0 then fmtOf y.toNat m.p m.inf else fmtOf y.toNat (s.me.csr.vfmt.toNat % 8) (s.me.csr.vfmt.getLsbD 3),
   s.me.csr.fpcsr.getLsbD 11, if m.rm = 7 then s.me.csr.fpcsr.toNat / 256 % 8 else m.rm, m.sat⟩

/-- R123: a result rounded once, with DZ. -/
def FloatEnv.rounded (e : FloatEnv) (x : Machine.Num × Nat) : Nat × Nat := ((round e.f e.rm e.sat e.ftz x.1).1, (round e.f e.rm e.sat e.ftz x.1).2 ||| x.2)

/-- R123: the float operations of two sources. -/
def floatTwo : List ((BitVec 4 → BitVec 4 → BitVec 4 → BitVec 4 → Bool → Bool → Instr) × (Nat → Machine.Num → Machine.Num → Machine.Num × Nat)) :=
  [(.vaddFloat, fun rm x y => (Machine.Num.add rm x y, 0)), (.vsubFloat, fun rm x y => (Machine.Num.add rm x y.negate, 0)), (.vmulFloat, fun _ x y => (x.mul y, 0)),
   (.vmulz, fun _ x y => (x.mulz y, 0)), (.vdivFloat, fun _ x y => x.div y), (.vminFloat, fun _ x y => (x.minOf y, 0)),
   (.vmaxFloat, fun _ x y => (x.maxOf y, 0))]

/-- R123: the float operations of one source. -/
def floatOne : List ((BitVec 4 → BitVec 4 → BitVec 4 → Bool → Instr) × (Machine.Num → Machine.Num)) :=
  [(.vabsFloat, fun x => if x.neg then x.negate else x), (.vnegFloat, Machine.Num.negate), (.vsqrt, Machine.Num.sqrt)]

/-- R123: the float operations of three sources. -/
def floatThree : List ((BitVec 4 → BitVec 4 → BitVec 4 → BitVec 4 → Bool → Bool → Instr) × (Nat → Machine.Num → Machine.Num → Machine.Num → Machine.Num)) :=
  [(.vfma, fun rm x y z => Machine.Num.add rm (x.mul y) z), (.vfms, fun rm x y z => Machine.Num.add rm (x.mul y) z.negate),
   (.vfnma, fun rm x y z => Machine.Num.add rm (x.negate.mul y) z), (.vfmaz, fun rm x y z => Machine.Num.add rm (x.mulz y) z)]

/-- R33, R124: the comparisons, and whether a quiet NaN sets NV. -/
def compares : List ((BitVec 4 → BitVec 4 → BitVec 4 → BitVec 4 → Bool → Bool → Instr) × Bool × (Machine.Num → Machine.Num → Prop)) :=
  [(.vceq, false, fun x y => x.eqv y = true), (.vcne, false, fun x y => x.eqv y = false),
   (.vclt, true, fun x y => x.isNan = false ∧ y.isNan = false ∧ x.lt y = true), (.vcle, true, fun x y => x.isNan = false ∧ y.isNan = false ∧ y.lt x = false),
   (.vcun, false, fun x y => x.isNan = true ∨ y.isNan = true)]

/-- R128: the special functions. -/
def specials : List ((BitVec 4 → BitVec 4 → BitVec 1 → Bool → Instr) × Nat) :=
  [(.vrcp, 0), (.vrsqrt, 1), (.vexp2, 2), (.vlog2, 3), (.vexp, 4), (.vtanh, 5), (.vsigm, 6)]

/-- R126: the permutations: lane `i` of L from the lanes of a and b. -/
def permutes : List ((BitVec 4 → BitVec 4 → BitVec 4 → BitVec 4 → Bool → Bool → Instr) × (Nat → (Nat → Nat) → (Nat → Nat) → Nat → Nat)) :=
  [(.vperm, fun n x y i => x (y i % n)), (.vzipl, fun _ x y i => if i % 2 = 0 then x (i / 2) else y ((i - 1) / 2)),
   (.vziph, fun n x y i => if i % 2 = 0 then x (n / 2 + i / 2) else y (n / 2 + (i - 1) / 2)),
   (.vuzpe, fun n x y i => if i < n / 2 then x (2 * i) else y (2 * i - n)),
   (.vuzpo, fun n x y i => if i < n / 2 then x (2 * i + 1) else y (2 * i - n + 1))]

/-- A value is a number. -/
def finite (x : Machine.Num) : Prop := x.isNan = false ∧ ∀ neg, x ≠ .inf neg

/-- The number of a value. -/
def rat : Machine.Num → ℚ
  | .fin neg m e => (if neg then -(m : ℚ) else m) * 2 ^ e
  | _ => 0

/-- R93: the offset of byte `i` of a vector access at an offset: a row segment, or a column strip of elements of `e` bytes. -/
def byteOff (col : Bool) (e o i : Nat) : Nat := if col then o + 256 * (i / e) + i % e else o + i

/-- R93, R94: an offset that a vector access may have. -/
def RowOrColumn (buf : Nat) (col : Bool) (e o : Nat) : Prop :=
  o < lengthOf buf ∧ if col then o % 256 % e = 0 ∧ o / 256 % (32 / e) = 0 else o % 32 = 0

end Sys2Proof.Claims

/-- R26 to R29, R116, R122, R124: the integer operations per lane: arithmetic on exact integers, wrapped or clamped with SAT under sat; division,
logic and shifts on codes; and the counts. -/
def Obligations.VectorInteger : Prop :=
  ∀ (s : State) (d a b : BitVec 4) (y : BitVec 3) (t u : Bool),
    let w := 8 * 2 ^ (y.toNat % 4)
    let uns := decide (4 ≤ y.toNat)
    let sat := (modVf s.me.pair).sat
    let x := fun i => Claims.lane w i (s.me.regs.vv a.toNat)
    let z := fun i => Claims.lane w i (s.me.regs.vv b.toNat)
    let o := fun i => Claims.lane w i (s.me.regs.vv d.toNat)
    let val := Claims.valueOf w uns
    (Ready s ([Claims.vs a t, Claims.vs b u] ++ Claims.beside s [] d) [regV d] →
      (∀ f ∈ Claims.intTwo, Claims.Lanes s (f.1 d a b y t u) d w fun i => Claims.fit w uns (f.2.1 && sat) (f.2.2 w (val (x i)) (val (z i)))) ∧
      ∀ f ∈ Claims.codeTwo, Claims.Lanes s (f.1 d a b y t u) d w fun i => (f.2 w uns (x i) (z i), 0)) ∧
    (Ready s ([Claims.vs a t, Claims.vs b u] ++ Claims.beside s [regV d] d) [regV d] →
      Claims.Lanes s (.vmacc d a b y t u) d w fun i => Claims.fit w uns sat (val (o i) + val (x i) * val (z i))) ∧
    (Ready s ([Claims.vs a t] ++ Claims.beside s [] d) [regV d] →
      (∀ f ∈ Claims.intOne, Claims.Lanes s (f.1 d a y t) d w fun i => Claims.fit w uns sat (f.2 (val (x i)))) ∧
      Claims.Lanes s (.vnot d a y t) d w (fun i => (Claims.notCode w (x i), 0)) ∧
      (∃ c : Nat → Nat, (∀ i, i < 256 / w → Claims.isClz w (x i) (c i)) ∧ Claims.Lanes s (.vclz d a y t) d w fun i => (c i, 0)) ∧
      (∃ c : Nat → Nat, (∀ i, i < 256 / w → Claims.isPopc w (x i) (c i)) ∧ Claims.Lanes s (.vpopc d a y t) d w fun i => (c i, 0)))

/-- R39, R40: Round of a finite value that neither passes the format's range nor is negative for an unsigned format gives a value of the format: the
nearest one under RNE and RNA, the nearest on the side of the mode under RTZ, RUP and RDN; a tie goes to the even trailing significand, or away
from zero; NX is set exactly where it differs from the exact value. Precision 1, where R39 does not settle a tie, is left out (log entry 23). -/
def Sys2Proof.Stated.RoundsRight : Prop :=
  ∀ (f : Fmt) (mode : Nat) (sat neg : Bool) (n : Nat) (e : Int),
    (f = fmtH ∨ f = fmtF ∨ f = fmtD ∨ ∃ p x, 2 ≤ p ∧ p ≤ 7 ∧ (f = .f8p p x ∨ f = .f8z p x)) → mode ≤ 4 →
    let x := Claims.rat (.fin neg n e)
    let r := round f mode sat false (.fin neg n e)
    r.2.testBit 0 = false → r.2.testBit 2 = false → r.2.testBit 5 = false →
      let v := Claims.rat (f.value r.1)
      Claims.finite (f.value r.1) ∧ (r.2.testBit 4 = true ↔ v ≠ x) ∧
      ∀ c, Claims.finite (f.value c) →
        let y := Claims.rat (f.value c)
        (mode = 0 ∨ mode = 4 → |v - x| ≤ |y - x|) ∧
        (mode = 0 → |v - x| = |y - x| → y ≠ v → r.1 % 2 = 0) ∧ (mode = 4 → |v - x| = |y - x| → |y| ≤ |v|) ∧
        (mode = 1 → |v| ≤ |x| ∧ (|y| ≤ |x| → |y| ≤ |v|)) ∧ (mode = 2 → x ≤ v ∧ (x ≤ y → v ≤ y)) ∧ (mode = 3 → v ≤ x ∧ (y ≤ x → y ≤ v))

/-- R128: a special function of a binary32 operand with a finite exact result gives, where it neither overflows nor is flushed to zero, a value
within the bound of its row: 1 ulp for vrcp and vrsqrt, 2 ulp for the others, and for vlog2 of an operand from 0.5 to 2, 2^-22. The exact
result is the model's fixed-point value (`specialNum`); for vrcp and vrsqrt that is the reciprocal and the reciprocal root up to a part in 2^60.
For binary16 the result is the exact one rounded to nearest even. -/
def Sys2Proof.Stated.SpecialsBounded : Prop :=
  ∀ (fn : Nat) (ftz : Bool) (c : Nat), fn < 7 →
    let x := fmtF.valueFtz ftz c
    let y := (specialNum fn x).1
    let r := special fn true ftz c
    let v := Claims.rat (fmtF.value r.1)
    let ulp := (2 : ℚ) ^ (max (Int.log 2 |Claims.rat y|) (-126) - 23)
    (Claims.finite x → Claims.finite y → r.2.testBit 2 = false → ¬ (ftz = true ∧ r.2.testBit 3 = true) →
      Claims.finite (fmtF.value r.1) ∧ |v - Claims.rat y| ≤
        (if fn = 3 ∧ 1 / 2 ≤ Claims.rat x ∧ Claims.rat x ≤ 2 then (2 : ℚ) ^ (-22 : Int) else (if fn ≤ 1 then 1 else 2) * ulp)) ∧
    (Claims.finite x → Claims.rat x ≠ 0 → fn = 0 → |Claims.rat y * Claims.rat x - 1| ≤ (2 : ℚ) ^ (-60 : Int)) ∧
    (Claims.finite x → 0 < Claims.rat x → fn = 1 → |Claims.rat y ^ 2 * Claims.rat x - 1| ≤ (2 : ℚ) ^ (-60 : Int)) ∧
    let z := specialNum fn (fmtH.valueFtz ftz c)
    special fn false ftz c = ((round fmtH 0 false ftz z.1).1, (round fmtH 0 false ftz z.1).2 ||| z.2)

/-- R30 to R46, R116, R123, R124, R128: the float operations per lane: the exact result of the operands' values, rounded once as `RoundsRight` says; the
comparisons; and the special functions, whose value within the bound that `SpecialsBounded` states is free (log entry 9). -/
def Sys2Proof.Stated.FloatLanes : Prop :=
  ∀ (s : State) (d a b : BitVec 4) (y : BitVec 4) (k : BitVec 1) (t u : Bool),
    let w := (fmtOf y.toNat 4 false).width
    let e := Claims.floatEnv s y
    let x := fun i => e.f.valueFtz e.ftz (Claims.lane w i (s.me.regs.vv a.toNat))
    let z := fun i => e.f.valueFtz e.ftz (Claims.lane w i (s.me.regs.vv b.toNat))
    let c := if (modVf s.me.pair).op4 = 0 then d else .ofNat 4 (modVf s.me.pair).op4
    let q := fun i => e.f.valueFtz e.ftz (Claims.lane w i (s.me.regs.vv c.toNat))
    (Ready s ([Claims.vs a t, Claims.vs b u] ++ Claims.beside s [] d) [regV d] →
      (∀ f ∈ Claims.floatTwo, Claims.Lanes s (f.1 d a b y t u) d w fun i => e.rounded (f.2 e.rm (x i) (z i))) ∧
      ∀ f ∈ Claims.compares, ∃ r : Nat → Nat × Nat, Claims.Lanes s (f.1 d a b y t u) d w r ∧
        ∀ i, i < 256 / w → (f.2.2 (x i) (z i) → (r i).1 = 2 ^ w - 1) ∧ (¬ f.2.2 (x i) (z i) → (r i).1 = 0) ∧
          ((x i).isSig = true ∨ (z i).isSig = true ∨ (f.2.1 = true ∧ ((x i).isNan = true ∨ (z i).isNan = true)) → (r i).2 = 1) ∧
          (¬ ((x i).isSig = true ∨ (z i).isSig = true ∨ (f.2.1 = true ∧ ((x i).isNan = true ∨ (z i).isNan = true))) → (r i).2 = 0)) ∧
    (Ready s ([Claims.vs a t, Claims.vs b u] ++ Claims.beside s [regV c] d) [regV d] →
      ∀ f ∈ Claims.floatThree, Claims.Lanes s (f.1 d a b y t u) d w fun i => e.rounded (f.2 e.rm (x i) (z i) (q i), 0)) ∧
    (Ready s ([Claims.vs a t] ++ Claims.beside s [] d) [regV d] →
      (∀ f ∈ Claims.floatOne, Claims.Lanes s (f.1 d a y t) d w fun i => e.rounded (f.2 (x i), 0)) ∧
      ∀ f ∈ Claims.specials, let n := if k = 1 then 32 else 16
        Claims.Lanes s (f.1 d a k t) d n fun i => special f.2 (k == 1) e.ftz (Claims.lane n i (s.me.regs.vv a.toNat)))

/-- The float instructions, Round, and the bounds of the special functions: see `FloatLanes`, `RoundsRight` and `SpecialsBounded`. -/
def Obligations.VectorFloat : Prop :=
  Sys2Proof.Stated.FloatLanes ∧ Sys2Proof.Stated.RoundsRight ∧ Sys2Proof.Stated.SpecialsBounded

/-- R116, R125, R126, R127, R130, R131: conversions, permutations and moves per lane; vbcast to every active lane; vextr and vmskb to a g
register; vrand the lanes of the next block of the counter, which counts on, or RNG-WRAP. -/
def Obligations.VectorMoves : Prop :=
  ∀ (s : State) (d a b : BitVec 4) (g : BitVec 6) (y o : BitVec 4) (p : BitVec 1) (r : BitVec 2) (n : BitVec 3) (t u : Bool),
    let w := (fmtOf y.toNat 4 false).width
    let x := fun i => Claims.lane w i (s.me.regs.vv a.toNat)
    let z := fun i => Claims.lane w i (s.me.regs.vv b.toNat)
    (Ready s ([Claims.vs a t, Claims.vs b u] ++ Claims.beside s [] d) [regV d] →
      ∀ f ∈ Claims.permutes, Claims.Lanes s (f.1 d a b y t u) d w fun i => (f.2 (256 / w) x z i, 0)) ∧
    (Ready s ([Claims.vs a t] ++ Claims.beside s [] d) [regV d] →
      Claims.Lanes s (.vrev d a y t) d w (fun i => (x (256 / w - 1 - i), 0)) ∧ Claims.Lanes s (.vmov d a y t) d w fun i => (x i, 0)) ∧
    (Ready s (Claims.beside s [] d) [regV d] → Claims.Lanes s (.vidx d n) d (8 * 2 ^ (n.toNat % 4)) fun i => (i, 0)) ∧
    (let src := (fmtOf o.toNat 4 false).width
     let part := p.toNat * 4 + r.toNat
     let old := if w < src then [regV d] else []
     Ready s ([Claims.vs a t] ++ Claims.beside s old d) [regV d] →
      ∃ v fl, exec (.vcvt d a p y t r o) s = .next (Claims.Later s (regV d) v fl) ∧
        Claims.Masked s w (s.me.regs.vv d.toNat) (fun i => w < src ∧ i / (256 / src) ≠ part)
          (fun i => convert (Claims.floatEnv s o).f (Claims.floatEnv s y).f (Claims.floatEnv s y).rm (Claims.floatEnv s y).sat (Claims.floatEnv s y).ftz
            (Claims.lane src (if w < src then i % (256 / src) else part * (256 / w) + i) (s.me.regs.vv a.toNat))) v fl) ∧
    (Ready s ([gs g t] ++ Claims.beside s [] d) [regV d] →
      ∃ v, exec (.vbcast g d y t) s = .next ((s.takeG (regG g)).2.later (regV d) v false).retire ∧
        Claims.Masked s w (s.me.regs.vv d.toNat) (fun _ => False) (fun _ => ((s.takeG (regG g)).1.toNat % 2 ^ w, 0)) v 0) ∧
    (Ready s [Claims.vs a t] [regG g] →
      (∃ v q, exec (.vextr g a y t) s = .next q ∧ Wrote s q (regG g) v ∧
        v = if y.toNat < 4 then .ofInt 64 (Claims.valueOf w false (x 0)) else .ofNat 64 (x 0)) ∧
      ∃ v q, exec (.vmskb g a y t) s = .next q ∧ Wrote s q (regG g) v ∧
        ∀ k, k < 64 → v.getLsbD k = (decide (k < 256 / w) && (x k).testBit (w - 1))) ∧
    (Ready s (Claims.beside s [] d) [regV d] →
      (bitw s.me.csr.rngctr 48 = true → exec (.vrand d r) s = .next (s.trap .rngWrap 0)) ∧
      (bitw s.me.csr.rngctr 48 = false →
        let count := s.me.csr.rngctr.toNat % 2 ^ 48
        let next := (count + 1) % 2 ^ 48
        ∃ v, exec (.vrand d r) s = .next ((s.modMe fun q => { q with
            csr := { q.csr with rngctr := .ofNat 64 (if next = 0 then 2 ^ 48 else next) } }).later (regV d) v false).retire ∧
          Claims.Masked s (8 * 2 ^ r.toNat) (s.me.regs.vv d.toNat) (fun _ => False)
            (fun i => (Claims.lane (8 * 2 ^ r.toNat) i (randBlock s.me.csr.rngkeylo s.me.csr.rngkeyhi (.ofNat 64 count)), 0)) v 0))

/-- R93, R94, R97, R113, R116, R119, R120, R121: vld and vst of an own buffer, in rows and columns, and of global memory in rows: only the active
bytes are read or written, an inactive byte of a loaded register is 0 or keeps its value, and no FE of an own buffer changes. An own buffer's
access waits for the writes of the task to its plot through the remote port. -/
def Obligations.VectorMemory : Prop :=
  ∀ (s : State) (v : BitVec 4) (b : BitVec 6) (x : BitVec 2) (t : Bool) (c : BitVec 2) (lo : BitVec 11) (hi : BitVec 9),
    let q := s.takeG (regG b)
    let old := s.me.regs.vv v.toNat
    let m := modVf s.me.pair
    let on := fun (e i : Nat) => m.mask = 0 ∨ (s.me.regs.gv m.mask).getLsbD (i / e) = true
    let loads := [(Instr.vldRow v b x t lo, false, 1, lo.toNat), (.vldCol v b x t c hi, true, 2 ^ c.toNat, hi.toNat)]
    let stores := [(Instr.vstRow v b x t lo, false, 1, lo.toNat), (.vstCol v b x t c hi, true, 2 ^ c.toNat, hi.toNat)]
    (x.toNat < 3 → Ready s ([gs b t] ++ Claims.beside s [] v) [regV v] → ∀ f ∈ loads,
      let col := f.2.1
      let e := f.2.2.1
      let o := (q.1 + .ofNat 64 (32 * f.2.2.2)).toNat
      Claims.RowOrColumn x.toNat col e o →
      (∀ i, i < 32 → on e i → q.2.myPlot.uncorrectable x.toNat (Claims.byteOff col e o i) = false) →
      (∀ as : List Nat, (∀ k ∈ as, ∃ i, i < 32 ∧ on e i ∧ k = Claims.byteOff col e o i) → Claims.Quiet q.2 x.toNat true false as) →
      (s.me.ownStore = true → exec f.1 s = .next (s.blocked .ownStore)) ∧
      (s.me.ownStore = false → ∃ u r, exec f.1 s = .next (u.later (regV v) r false).retire ∧ Claims.ReadOf q.2 u ∧
        ∀ i, i < 32 → (on e i → r.extractLsb' (8 * i) 8 = q.2.myPlot.bufs.byte x.toNat (Claims.byteOff col e o i)) ∧
          (¬ on e i → r.extractLsb' (8 * i) 8 = if m.zm then 0 else old.extractLsb' (8 * i) 8))) ∧
    (x.toNat < 3 → Ready s ([gs b t] ++ (if m.mask ≠ 0 then [⟨m.mask, false⟩] else []) ++ [⟨regV v, false⟩]) [] → ∀ f ∈ stores,
      let col := f.2.1
      let e := f.2.2.1
      let o := (q.1 + .ofNat 64 (32 * f.2.2.2)).toNat
      Claims.RowOrColumn x.toNat col e o →
      (∀ as : List Nat, (∀ k ∈ as, ∃ i, i < 32 ∧ on e i ∧ k = Claims.byteOff col e o i) → Claims.Quiet q.2 x.toNat false true as) →
      (s.me.ownStore = true → exec f.1 s = .next (s.blocked .ownStore)) ∧
      (s.me.ownStore = false → ∃ u r new, exec f.1 s = .next r ∧ Went u r u.nextPc ∧ Claims.Stored q.2 u x.toNat new Claims.same ∧
        (∀ i, i < 32 → on e i → new (Claims.byteOff col e o i) = some (old.extractLsb' (8 * i) 8)) ∧
        ∀ k, (∀ i, i < 32 → on e i → k ≠ Claims.byteOff col e o i) → new k = none)) ∧
    (let a := q.1 + .ofNat 64 (32 * lo.toNat)
     let act := (List.range 32).filter fun i => m.mask == 0 || bitw (s.me.regs.gv m.mask) i
     let bytes := act.map (a.toNat + ·)
     let how := RspAct.vec v.toNat ((List.range 32).map fun i => m.mask == 0 || bitw (s.me.regs.gv m.mask) i) m.zm
     let out := act.map fun i => (i, old.extractLsb' (8 * i) 8)
     (Ready s ([gs b t] ++ Claims.beside s [] v) [regV v] →
      (a.toNat % 32 = 0 → Claims.MayReach q.2 a 32 true false bytes →
        ∃ r, exec (.vldRow v b 3 t lo) s = .next r ∧ Claims.Scratch q.2 r a false (.lanes act) how .loadFault) ∧
      ∀ e, e.ty ≤ 2 → Claims.MayUse q.2 a 32 true false e bytes →
        ∃ r, exec (.vldRow v b 3 t lo) s = .next r ∧ Claims.Accesses q.2 r e a false false (.lanes act) how .loadFault) ∧
     (Ready s ([gs b t] ++ (if m.mask ≠ 0 then [⟨m.mask, false⟩] else []) ++ [⟨regV v, false⟩]) [] →
      (a.toNat % 32 = 0 → Claims.MayReach q.2 a 32 false true bytes →
        ∃ r, exec (.vstRow v b 3 t lo) s = .next r ∧ Claims.Scratch q.2 r a true (.store out) .ack .storeFault) ∧
      ∀ e, e.ty ≤ 2 → Claims.MayUse q.2 a 32 false true e bytes →
        ∃ r, exec (.vstRow v b 3 t lo) s = .next r ∧ Claims.Accesses q.2 r e a true false (.store out) .ack .storeFault))

/-! ## Statistics -/

namespace Sys2Proof.Claims

open Sys2Proof Sys2Proof.Machine

/-- R116: the active lanes of `w` bits, in ascending order. -/
def activeLanes (s : State) (w : Nat) : List Nat :=
  (List.range (256 / w)).filter fun i => decide ((modVf s.me.pair).mask = 0) || (s.me.regs.gv (modVf s.me.pair).mask).getLsbD i

/-- R116: the mask as a source. -/
def maskSrc (s : State) : List Src := if (modVf s.me.pair).mask ≠ 0 then [⟨(modVf s.me.pair).mask, false⟩] else []

/-- R171: a record after a list of lanes, and the flags. -/
def gathers (r : Stat) (ls : List Nat) (f : Stat → Nat → Flagged Stat) : Stat × Nat := (ls.foldlM f r).run 0

/-- R171, R176: a record waits to be written, with the flags of its computation. -/
def Records (s : State) (d : BitVec 4) (r : Stat × Nat) : State := Later s (regS d) (r.1.code.setWidth 256) r.2

/-- R161: a rounded value, as a binary32 code. -/
def R (x : Machine.Num) : Nat := (round fmtF 0 false false x).1

/-- The value of a binary32 code. -/
def V (c : Nat) : Machine.Num := fmtF.value c

/-- R161: rounded sums, differences, products and quotients of values. -/
def sum (x y : Machine.Num) : Machine.Num := V (R (Machine.Num.add 0 x y))
/-- R161 -/
def dif (x y : Machine.Num) : Machine.Num := V (R (Machine.Num.add 0 x y.negate))
/-- R161 -/
def prod (x y : Machine.Num) : Machine.Num := V (R (x.mul y))
/-- R161 -/
def quot (x y : Machine.Num) : Machine.Num := V (R (x.div y).1)

/-- R163: a number of a record: a code of the value, with the sign of zero that R163 gives. -/
def Zeroed (c : Nat) (x : Machine.Num) (z : Bool) : Prop :=
  if x.isZero = true then c = (if z then 0x80000000 else 0) else V c = x

/-- A value is -0; a value is an infinity. -/
def negZero (x : Machine.Num) : Bool := x.isZero && x.neg

/-- R163: the fields of a record after an element, from the exact count and the new count, mean and M2. -/
structure Updated (r q : Stat) (exact n mean m2 x : Machine.Num) : Prop where
  n : V q.n = n
  e : q.e = false
  z : q.z = (r.z && negZero x)
  v : q.v = (r.v || x.isNan)
  i : q.i = (r.i || x.isInf)
  o : q.o = (r.o || overCount q.n exact)
  mean : Zeroed q.mean mean q.z
  m2 : Zeroed q.m2 m2 false

/-- The rows of a register that a statement of a drain names: the option and its value from a record that is not empty (R168). -/
def drains (r : Stat) (eps : Nat) : List (BitVec 3 × Machine.Num) :=
  let varp := quot (V r.m2) (V r.n)
  let flat := fun (x : Machine.Num) => if x.isZero then V 0 else x
  [(0, V (R (V r.n))), (2, V (R (V r.mean))), (3, flat varp), (4, flat (quot (V r.m2) (dif (V r.n) one32))),
   (5, sum (flat varp) (prod (V r.mean) (V r.mean))),
   (6, V (R (specialNum 1 (sum (flat varp) (V eps))).1)),
   (7, V (R (specialNum 1 (sum (sum (flat varp) (prod (V r.mean) (V r.mean))) (V eps))).1))]

end Sys2Proof.Claims

/-- R162 to R165: the numbers of Upd, UpdW and Merge: the count, the mean and M2 step by step, each step rounded; an empty record takes an
element or the other record; a zero weight changes nothing, and one that is negative, infinite or a NaN only raises NV. -/
def Sys2Proof.Stated.StatisticNumbers : Prop :=
  (∀ (r : Stat) (x : Machine.Num), r.e = false →
    let exact := Machine.Num.add 0 (Claims.V r.n) one32
    let n := Claims.sum (Claims.V r.n) one32
    let d := Claims.dif x (Claims.V r.mean)
    let mean := Claims.sum (Claims.V r.mean) (Claims.quot d n)
    let m2 := Claims.sum (Claims.V r.m2) (Claims.prod d (Claims.dif x mean))
    Claims.Updated r ((r.upd x).run 0).1 exact n mean m2 x) ∧
  (∀ (r : Stat) (x w : Machine.Num), r.e = false → w.isZero = false → w.neg = false → w.isNan = false → w.isInf = false →
    let exact := Machine.Num.add 0 (Claims.V r.n) w
    let n := Claims.sum (Claims.V r.n) w
    let d := Claims.dif x (Claims.V r.mean)
    let mean := Claims.sum (Claims.V r.mean) (Claims.prod (Claims.quot w n) d)
    let m2 := Claims.sum (Claims.V r.m2) (Claims.prod (Claims.prod w d) (Claims.dif x mean))
    Claims.Updated r ((r.updW x w).run 0).1 exact n mean m2 x) ∧
  (∀ (r : Stat) (x w : Machine.Num), (w.isZero = true → (r.updW x w).run 0 = (r, 0)) ∧
    (w.isZero = false → w.neg = true ∨ w.isNan = true ∨ w.isInf = true → (r.updW x w).run 0 = (r, 1)) ∧
    (r.e = true → (r.upd x).run 0 = (Stat.firstOf x 0x3F800000).run 0)) ∧
  (∀ r q : Stat, (r.e = true → (Stat.merge r q).run 0 = (q, 0)) ∧ (r.e = false → q.e = true → (Stat.merge r q).run 0 = (r, 0)) ∧
    (r.e = false → q.e = false →
      let m := ((Stat.merge r q).run 0).1
      let n := Claims.sum (Claims.V r.n) (Claims.V q.n)
      let d := Claims.dif (Claims.V q.mean) (Claims.V r.mean)
      let t := Claims.quot (Claims.V q.n) n
      Claims.V m.n = n ∧ m.e = false ∧ m.z = (r.z && q.z) ∧ m.v = (r.v || q.v) ∧ m.i = (r.i || q.i) ∧
        m.o = (r.o || q.o || overCount m.n (Machine.Num.add 0 (Claims.V r.n) (Claims.V q.n))) ∧
        Claims.Zeroed m.mean (Claims.sum (Claims.V r.mean) (Claims.prod d t)) m.z ∧
        Claims.Zeroed m.m2 (Claims.sum (Claims.sum (Claims.V r.m2) (Claims.V q.m2)) (Claims.prod (Claims.prod (Claims.prod d d) (Claims.V r.n)) t)) false)) ∧
  ∀ (r : Stat) (eps : Nat), (r.e = true → ∀ o, ((r.drain o eps).run 0) = (if o ≤ 1 then 0 else 0x7FE00000, 0)) ∧
    (r.e = false → ∀ k ∈ Claims.drains r eps, Claims.V ((r.drain k.1.toNat eps).run 0).1 = k.2)

/-- R116, R171 to R176: supd and supdw put the elements of the active lanes, in ascending order, into the record of s[d]; supd.row and
supd.col the elements of an own buffer, of which only the active bytes are read, after the task's writes to it through the plot's remote port
(R113); the other statistics instructions give the record or the lanes of their rule. The result waits to be written. -/
def Sys2Proof.Stated.Statistics : Prop :=
  ∀ (s : State) (d a b : BitVec 4) (y : BitVec 4) (g : BitVec 6) (x : BitVec 2) (o : BitVec 3) (t u : Bool),
    let f := (Claims.floatEnv s y).f
    let w := (fmtOf y.toNat 4 false).width
    let m := modVf s.me.pair
    let old := statOf (s.me.regs.sv d.toNat)
    let ls := Claims.activeLanes s w
    let val := fun (r : BitVec 4) i => f.value (Claims.lane w i (s.me.regs.vv r.toNat))
    (Ready s ([Claims.vs a t] ++ Claims.maskSrc s ++ [⟨regS d, false⟩]) [regS d] →
      exec (.supd d a y t) s = .next (Claims.Records s d (Claims.gathers old ls fun r i => r.upd (val a i)))) ∧
    (Ready s ([Claims.vs a t, Claims.vs b u] ++ Claims.maskSrc s ++ [⟨regS d, false⟩]) [regS d] →
      exec (.supdw d a b y t u) s = .next (Claims.Records s d (Claims.gathers old ls fun r i => r.updW (val a i) (val b i)))) ∧
    (Ready s ([gs g t] ++ Claims.maskSrc s ++ [⟨regS d, false⟩]) [regS d] → ∀ k ∈ [(Instr.supdRow d g x y t, false), (.supdCol d g x y t, true)],
      let q := s.takeG (regG g)
      let e := w / 8
      let at_ := fun i => (span (e * i) e).map (Claims.byteOff k.2 e q.1.toNat)
      Claims.RowOrColumn x.toNat k.2 e q.1.toNat → Claims.Quiet q.2 x.toNat true false (ls.flatMap at_) →
      (∀ j ∈ ls.flatMap at_, q.2.myPlot.uncorrectable x.toNat j = false) →
      (s.me.ownStore = true → exec k.1 s = .next (s.blocked .ownStore)) ∧
      (s.me.ownStore = false → ∃ v, exec k.1 s = .next (Claims.Records v d (Claims.gathers old ls fun r i =>
        r.upd (f.value (numLE ((at_ i).map fun j => q.2.myPlot.bufs.byte x.toNat j))))) ∧ Claims.ReadOf q.2 v)) ∧
    (Ready s [⟨regS a, t⟩, ⟨regS b, u⟩, ⟨regS d, false⟩] [regS d] → exec (.smrg d a b t u) s = .next (Claims.Records s d
      ((Stat.merge (statOf (s.me.regs.sv a.toNat)) (statOf (s.me.regs.sv b.toNat))).run 0))) ∧
    (Ready s [] [regS d] → exec (.sclr d) s = .next (s.later (regS d) (emptyRecord.setWidth 256) false).retire) ∧
    (Ready s [Claims.vs a t] [regS d] → ∀ k ∈ [(Instr.sputLo d a t, 0), (.sputHi d a t, 128)],
      ∃ v, exec k.1 s = .next (s.later (regS d) v false).retire ∧ ∀ n, v.getLsbD n = (decide (n < 101) && (s.me.regs.vv a.toNat).getLsbD (k.2 + n))) ∧
    (Ready s [⟨regS a, t⟩, ⟨regV d, false⟩] [regV d] → ∀ k ∈ [(Instr.sgetLo d a t, 0), (.sgetHi d a t, 128)],
      ∃ v, exec k.1 s = .next (s.later (regV d) v false).retire ∧ ∀ n, n < 256 →
        v.getLsbD n = if k.2 ≤ n ∧ n < k.2 + 128 then decide (n < k.2 + 101) && (s.me.regs.sv a.toNat).getLsbD (n - k.2)
          else (s.me.regs.vv d.toNat).getLsbD n) ∧
    (let eps := (s.me.regs.gv m.op4).toNat % 2 ^ 32
     let third := if m.op4 = 0 then [] else [m.op4]
     let keep : List Src := if m.mask ≠ 0 ∧ m.zm = false then [⟨regV d, false⟩] else []
     (Ready s ([⟨regS a, t⟩] ++ Claims.maskSrc s ++ third.map (fun r => ⟨r, false⟩) ++ keep) [regV d] →
      Claims.Lanes s (.sdrain d a t o) d 32 fun _ => ((statOf (s.me.regs.sv a.toNat)).drain o.toNat eps).run 0) ∧
     (Ready s ([Claims.vs a t, ⟨regS b, u⟩] ++ Claims.maskSrc s ++ third.map (fun r => ⟨r, false⟩) ++ keep) [regV d] →
      ∀ k ∈ [(Instr.snorm d a b y t u, false), (.snormZ d a b y t u, true)],
        let r := statOf (s.me.regs.sv b.toNat)
        let mu := (r.drain 2 0).run 0
        let rs := (r.drain 6 eps).run 0
        Claims.Lanes s k.1 d w fun i =>
          if r.e then (f.nan, 0)
          else
            let l := snormLane f k.2 m.sat mu.1 rs.1 (Claims.lane w i (s.me.regs.vv a.toNat))
            (l.1, l.2 ||| mu.2 ||| rs.2)))

/-! ## Watched accesses -/

/-- R328: the instructions that a watchpoint stops: a local load, store, synchronising access, vector access, supd.row or supd.col that is in
bounds, and a global one that is otherwise allowed, takes WATCHPOINT with the lowest active byte that matches, before it has any effect. -/
def Sys2Proof.Stated.WatchpointStops : Prop :=
  ∀ (s : State) (d a b : BitVec 6) (t u : Bool) (x z : BitVec 2) (w : BitVec 3) (o : BitVec 8) (h : Nat),
    let stops := fun (i : Instr) => exec i s = .next (s.trap .watchpoint (.ofNat 64 h))
    let q := s.takeG (regG b)
    let n := Claims.size w
    let y := q.1 + .ofNat 64 (o.toNat * n)
    let k := q.1 + .ofNat 64 (8 * o.toNat)
    let here := fun (p : Word) (n : Nat) => p.toNat < Claims.lengthOf x.toNat ∧ p.toNat % n = 0
    (Ready s [gs b t] [regG d] →
      (here y n → Claims.Hit q.2 x.toNat true false (span y.toNat n) h → stops (.ldl d b t x w o)) ∧
      (∀ e, Claims.Allowed q.2 y n true false e → Claims.Hit q.2 3 true false (span y.toNat n) h → stops (.ldg d b t w o)) ∧
      ∀ f ∈ [Instr.ldsync d b t, .ldfe d b t],
        (x.toNat < 3 → here k 8 → Claims.Hit q.2 x.toNat true false (span k.toNat 8) h → stops (f x o)) ∧
        (Claims.Reaches q.2 k 8 false ∨ (∃ e, e.ty ≤ 1 ∧ Claims.Allowed q.2 k 8 true false e) →
          Claims.Hit q.2 3 true false (span k.toNat 8) h → stops (f 3 o))) ∧
    (Ready s [gs b t] [] →
      (x.toNat < 3 → here k 8 → Claims.Hit q.2 x.toNat false true (span k.toNat 8) h → stops (.clrfe b t x o)) ∧
      (Claims.Reaches q.2 k 8 true ∨ (∃ e, e.ty ≤ 1 ∧ Claims.Allowed q.2 k 8 false true e) →
        Claims.Hit q.2 3 false true (span k.toNat 8) h → stops (.clrfe b t 3 o))) ∧
    (Ready s [gs b t, gs d false] [] →
      let r := (Claims.src2 s b d).2.2
      (x.toNat < 3 → here y n → Claims.Hit r x.toNat false true (span y.toNat n) h → stops (.stl d b t x w o)) ∧
      (∀ e, Claims.Allowed r y n false true e → Claims.Hit r 3 false true (span y.toNat n) h → stops (.stg d b t w o)) ∧
      (x.toNat < 3 → here k 8 → Claims.Hit r x.toNat false true (span k.toNat 8) h → stops (.stfull d b t x o)) ∧
      (Claims.Reaches r k 8 true ∨ (∃ e, e.ty ≤ 1 ∧ Claims.Allowed r k 8 false true e) →
        Claims.Hit r 3 false true (span k.toNat 8) h → stops (.stfull d b t 3 o))) ∧
    (let p := Claims.src2 s a b
     let g := p.1 + p.2.1
     (Ready s [gs a t, gs b u] [regG d] → Claims.Reaches p.2.2 g n false → Claims.Hit p.2.2 3 true false (span g.toNat n) h → stops (.ldx d a b t u w)) ∧
     (Ready s [gs a t, gs b u, gs d false] [] →
      let r := (p.2.2.takeG (regG d)).2
      Claims.Reaches r g (2 ^ z.toNat) true → Claims.Hit r 3 false true (span g.toNat (2 ^ z.toNat)) h → stops (.stx d a b t u z)) ∧
     ∀ f ∈ Claims.amos,
      let m := f.2.2.1
      let more := if f.2.2.2.1 then [(⟨regG b + 1, false⟩ : Src)] else []
      Ready s ([gs a t, gs b (u && !f.2.2.2.1)] ++ more) (if f.2.2.2.2 then [regG d, regG d + 1] else [regG d]) →
        Claims.Reaches p.2.2 p.1 m true ∨ (p.1.toNat / 2 ^ 62 ≠ 3 ∧ ∃ e, Claims.Allowed p.2.2 p.1 m true true e) →
        Claims.Hit p.2.2 3 true true (span p.1.toNat m) h → stops (f.1 d a b t u z)) ∧
    ∀ (v : BitVec 4) (c : BitVec 2) (lo : BitVec 11) (hi : BitVec 9) (ty : BitVec 4),
      let m := modVf s.me.pair
      let on := fun (e i : Nat) => m.mask = 0 ∨ (s.me.regs.gv m.mask).getLsbD (i / e) = true
      let active := fun (col : Bool) (e o : Nat) => ((List.range 32).filter fun i => decide (on e i)).map (Claims.byteOff col e o)
      (Ready s ([gs b t] ++ Claims.beside s [] v) [regV v] →
        (∀ f ∈ [(Instr.vldRow v b x t lo, false, 1, lo.toNat), (.vldCol v b x t c hi, true, 2 ^ c.toNat, hi.toNat)],
          let p := (q.1 + .ofNat 64 (32 * f.2.2.2)).toNat
          x.toNat < 3 → Claims.RowOrColumn x.toNat f.2.1 f.2.2.1 p → Claims.Hit q.2 x.toNat true false (active f.2.1 f.2.2.1 p) h → stops f.1) ∧
        (let p := q.1 + .ofNat 64 (32 * lo.toNat)
         Claims.Reaches q.2 p 32 false ∨ (∃ e, Claims.Allowed q.2 p 32 true false e) → p.toNat % 32 = 0 →
          Claims.Hit q.2 3 true false (((List.range 32).filter fun i => decide (on 1 i)).map (p.toNat + ·)) h → stops (.vldRow v b 3 t lo))) ∧
      (Ready s ([gs b t] ++ Claims.maskSrc s ++ [⟨regV v, false⟩]) [] →
        (∀ f ∈ [(Instr.vstRow v b x t lo, false, 1, lo.toNat), (.vstCol v b x t c hi, true, 2 ^ c.toNat, hi.toNat)],
          let p := (q.1 + .ofNat 64 (32 * f.2.2.2)).toNat
          x.toNat < 3 → Claims.RowOrColumn x.toNat f.2.1 f.2.2.1 p → Claims.Hit q.2 x.toNat false true (active f.2.1 f.2.2.1 p) h → stops f.1) ∧
        (let p := q.1 + .ofNat 64 (32 * lo.toNat)
         Claims.Reaches q.2 p 32 true ∨ (∃ e, Claims.Allowed q.2 p 32 false true e) → p.toNat % 32 = 0 →
          Claims.Hit q.2 3 false true (((List.range 32).filter fun i => decide (on 1 i)).map (p.toNat + ·)) h → stops (.vstRow v b 3 t lo))) ∧
      (Ready s ([gs b t] ++ Claims.maskSrc s ++ [⟨regS v, false⟩]) [regS v] →
        ∀ f ∈ [(Instr.supdRow v b x ty t, false), (.supdCol v b x ty t, true)],
          let e := (fmtOf ty.toNat 4 false).width / 8
          Claims.RowOrColumn x.toNat f.2 e q.1.toNat → Claims.Hit q.2 x.toNat true false (active f.2 e q.1.toNat) h → stops f.1)

/-! ## The matrix engine -/

namespace Sys2Proof.Claims

open Sys2Proof Sys2Proof.Machine

/-- R113, R138: it is the current context's turn: the engine is its own or free with none waiting, the groups it names are held by no other
context, it may be granted the engine, nothing asks it to halt or to make room, and no write of its task to its own plot is under way. -/
structure Turn (s : State) (groups : List Nat) : Prop where
  held : ∀ b ∈ groups, (s.myPlot.group b).held = none ∨ (s.myPlot.group b).held = some s.cur.2
  engine : s.myPlot.engine.running = none ∨ s.myPlot.engine.running = some s.cur.2
  waiting : s.myPlot.engine.waiting = []
  me : s.cur.2 < 4 ∧ s.me.live = true ∧ s.me.halted = false ∧ s.me.haltReq = false ∧ s.myPlot.sched.spilling ≠ some s.cur.2
  clean : s.myPlot.bufs.errs = []
  own : s.me.ownStore = false

/-- R138 to R140: the instruction has done its work, leaves the engine and retires. -/
def Done (i : Instr) (s t : State) : Prop := exec i s = .next t.release.retire

/-- A code of `e` bytes in a buffer of the current plot. -/
def code (s : State) (buf o e : Nat) : Nat := numLE (bytesAt s buf o e)

/-- R154: a group of the current plot is zero, its words full, and it is not live; nothing else changes. -/
structure Cleared (s u : State) (b : Nat) : Prop where
  only : u = s.setPlot s.cur.1 { s.myPlot with bufs := u.myPlot.bufs, groups := u.myPlot.groups }
  bytes : ∀ o, u.myPlot.bufs.byte 2 o = if 128 * b ≤ o ∧ o < 128 * (b + (s.myPlot.group b).tiles) then 0 else s.myPlot.bufs.byte 2 o
  words : ∀ o, u.myPlot.bufs.wordEmpty 2 o =
    if 16 * b ≤ o ∧ o < 16 * (b + (s.myPlot.group b).tiles) then false else s.myPlot.bufs.wordEmpty 2 o
  others : ∀ x o, x < 2 → u.myPlot.bufs.byte x o = s.myPlot.bufs.byte x o ∧ u.myPlot.bufs.wordEmpty x o = s.myPlot.bufs.wordEmpty x o
  groups : ∀ k, u.myPlot.group k = if k = b then { s.myPlot.group b with live := false } else s.myPlot.group k

/-- R26: the number of a code of an integer format. -/
def intOf (f : Fmt) (x : Nat) : Int := match f with
  | .int w signed => valueOf w (!signed) (x % 2 ^ w)
  | _ => 0

/-- R43, R44: one step of an element of C: in an integer group the exact product is added and the sum wraps to 32 bits; in another the
exact value c + a × b is rounded once to binary32, to nearest even. -/
def stepOf (i32 : Bool) (fa fb : Fmt) (c a b : Nat) : Nat × Nat :=
  if i32 then ((((c : Int) + intOf fa a * intOf fb b) % 2 ^ 32).toNat, 0)
  else round fmtF 0 false false (Machine.Num.add 0 ((fa.value a).mul (fb.value b)) (V c))

/-- R43, R44, R46, R151: the steps of an element of C: its code and its flags after each pair of codes of A and B. -/
def accumulate (i32 : Bool) (fa fb : Fmt) (c : Nat) (ps : List (Nat × Nat)) : Nat × Nat :=
  ps.foldl (fun x p => ((stepOf i32 fa fb x.1 p.1 p.2).1, x.2 ||| (stepOf i32 fa fb x.1 p.1 p.2).2)) (c, 0)

/-- R136, R147: the code of an element of an operand: of its buffer, or of the streamed bytes that have come. -/
def operandCode (s : State) (d : Desc) (o : Nat) : Nat :=
  if d.space = 3 then numLE ((span o d.e).map fun k => ((s.me.mul.bytes.find? fun b => b.1 == k).map (·.2)).getD 0) else code s d.space o d.e

/-- R136, R144, R151: the codes of A and B that an element (i, j) takes, in order of k; mmas takes those that the metadata names. -/
def pairsOf (s : State) (m : Mul) (i j : Nat) : List (Nat × Nat) :=
  let A := fun k => operandCode s m.a (m.a.at_ i k)
  let B := fun k => operandCode s m.b (m.b.at_ k j)
  if m.var = 2 then (List.range (m.k / 4)).flatMap fun g =>
    let nib := (s.myPlot.bufs.byte m.b.space (m.b.metaOff + j * (m.k / 8) + g / 2)).toNat / (if g % 2 = 0 then 1 else 16) % 16
    [(A (4 * g + nib % 4), B (2 * g)), (A (4 * g + nib / 4), B (2 * g + 1))]
  else (List.range m.k).map fun k => (A k, B k)

/-- The steps of a tile of a multiply: of one k, or of four for mmas, which takes two pairs in each (R146, R151). -/
def stepsOf (m : Mul) (k : Nat) : Nat := if m.var = 2 then k / 4 else k

/-- R146: the pairs of an element (i, j) in the steps of its tile that have been taken, from step `k0` on. -/
def taken (s : State) (m : Mul) (k0 : Nat) (cnt : Nat → Nat) (i j : Nat) : List (Nat × Nat) :=
  let w := if m.var = 2 then 2 else 1
  ((pairsOf s m i j).drop (w * k0)).take (w * cnt (i / 4 * (m.g.cols + 1) + j / 8))

/-- R146: each tile of a multiply has taken some of its steps, in ascending k from step `k0` on: the C elements of the multiply's rows and
the flags of the steps have changed, and the FE of the tiles worked on; nothing else in the buffers has. The group is live. -/
structure Stepped (s u : State) (m : Mul) (end_ k0 : Nat) (cnt : Nat → Nat) : Prop where
  elements : ∀ i j, i < m.g.r → j < m.g.n →
    let o := (m.g.elem m.base i j).2
    code u 2 o 4 = if m.row0 ≤ i ∧ i < end_ then (accumulate m.g.i32 (m.a.f m.vfmt) (m.b.f m.vfmt) (code s 2 o 4) (taken s m k0 cnt i j)).1
      else code s 2 o 4
  flags : ∀ n, u.me.mul.flags.testBit n = true ↔ s.me.mul.flags.testBit n = true ∨
    ∃ i j, m.row0 ≤ i ∧ i < end_ ∧ i < m.g.r ∧ j < m.g.n ∧
      (accumulate m.g.i32 (m.a.f m.vfmt) (m.b.f m.vfmt) (code s 2 (m.g.elem m.base i j).2 4) (taken s m k0 cnt i j)).2.testBit n = true
  outside : ∀ o, o < 128 * m.base ∨ 128 * (m.base + m.g.tiles) ≤ o → u.myPlot.bufs.byte 2 o = s.myPlot.bufs.byte 2 o
  others : ∀ x o, x < 2 → u.myPlot.bufs.byte x o = s.myPlot.bufs.byte x o ∧ u.myPlot.bufs.wordEmpty x o = s.myPlot.bufs.wordEmpty x o
  words : ∀ o, u.myPlot.bufs.wordEmpty 2 o = true → s.myPlot.bufs.wordEmpty 2 o = true
  groups : ∀ k, u.myPlot.group k = if k = m.base then { s.myPlot.group k with live := true } else s.myPlot.group k
  ctxs : ∀ c, c ≠ s.cur.2 → u.ctx s.cur.1 c = s.ctx s.cur.1 c

/-- What a multiply changes before it retires: all its steps are taken, and MRP.V is 0. -/
structure Multiplied (s u : State) (m : Mul) (end_ k0 : Nat) : Prop where
  only : u = { s.setPlot s.cur.1 { s.myPlot with bufs := u.myPlot.bufs, groups := u.myPlot.groups, ctxs := u.myPlot.ctxs } with
    budget := s.budget.tail }
  me : u.me = { s.me with csr := { s.me.csr with mrp := putw s.me.csr.mrp 63 1 0 }, mul := u.me.mul }
  steps : Stepped s u m end_ k0 fun _ => stepsOf m m.k - k0

/-- R139, R146, R189: a multiply has taken `n` steps and stands at a k-step boundary: it has the engine and goes on at its context's next turn,
with what is left of a quantum. -/
structure Stands (s u : State) (m : Mul) (end_ n : Nat) : Prop where
  package : u = { s with plots := u.plots, budget := s.budget.tail }
  plots : ∀ q, q ≠ s.cur.1 → u.plot q = s.plot q
  engine : u.myPlot.engine.running = some s.cur.2
  waits : u.me.block.map (·.why) = some .steps ∧ u.me.quantum = s.me.quantum
  csr : u.me.csr = s.me.csr ∧ u.me.regs = s.me.regs ∧ u.me.pc = s.me.pc
  at_ : ∃ p, u.me.mul.point = some p ∧ p.stepped = true ∧ p.end_ = end_
  steps : ∃ cnt : Nat → Nat, ((m.list end_).map cnt).sum = n ∧ Stepped s u m end_ 0 cnt

/-- R144: what the operands of a multiply say. -/
def mulOf (s : State) (var : Nat) (a b : BitVec 6) (ctl : Word) (c : BitVec 6) : Mul :=
  ⟨var, s.desc (regG a), s.desc (regG b), ctl, c.toNat, s.myPlot.group c.toNat, s.me.csr.vfmt⟩

end Sys2Proof.Claims

/-- R43, R44, R46, R133 to R137, R144 to R151: a multiply, first attempted and granted the engine, within its bounds: every element of C in its rows
takes its products in ascending k, each step exact and rounded once or, in an integer group, exact and wrapped; no other element changes. It ends
with MRP.V = 0 and the group live; an empty work list or K = 0 changes only MRP.V; a wrong operand raises its trap with the engine left. mma.g
takes its last row from the guard. Where the budget of steps is used up first, that many steps have been taken.
How many steps run before the engine is looked at again is the model's budget (DESIGN CHOICE, log entry 8). -/
def Sys2Proof.Stated.MultiplyRuns : Prop :=
  ∀ (s : State) (a b k c : BitVec 6), Ready s (pairSrc (regG a) ++ pairSrc (regG b) ++ [⟨regG k, false⟩]) [] →
    Claims.Turn s [s.myPlot.base c.toNat] → s.me.mul.point = none → s.me.mul.ctl = none →
    ∀ f ∈ [(Instr.mma a b k c, 0), (.mmaG a b k c, 1), (.mmas a b k c, 2)],
      let q := s.takeG (regG k)
      let m := Claims.mulOf q.2 f.2 a b q.1 c
      (∀ e v, m.shapes (regG k) (q.2.myPlot.isBase c.toNat) = .error (.trap e v) → exec f.1 s = .next (s.release.trap e v)) ∧
      (m.shapes (regG k) (q.2.myPlot.isBase c.toNat) = .ok () →
        ¬ (bitw s.me.csr.mrp 63 = true ∧ fldw s.me.csr.mrp 48 11 = s.ipc.toNat / 4) →
        (f.2 = 1 → m.goff % 8 = 0 ∧ m.goff < Claims.lengthOf m.gbuf) →
        let end_ := if f.2 = 1 then min m.g.r (Claims.code q.2 m.gbuf m.goff 8) else m.g.r
        m.inBounds end_ = .ok () →
        (m.k = 0 ∨ m.list end_ = [] → Claims.Done f.1 s (q.2.setMrp (putw s.me.csr.mrp 63 1 0))) ∧
        (m.k ≠ 0 → m.list end_ ≠ [] → m.a.space ≠ 3 → m.b.space ≠ 3 →
          let all := (m.list end_).length * Claims.stepsOf m m.k
          ((∀ n ∈ s.budget.head?, all < n) → ∃ u, Claims.Done f.1 s u ∧ Claims.Multiplied q.2 u m end_ 0) ∧
          ∀ n ∈ s.budget.head?, n ≤ all → ∃ u, exec f.1 s = .next u ∧ Claims.Stands q.2 u m end_ (max n 1)) ∧
        (m.k ≠ 0 → m.list end_ ≠ [] → m.a.space = 3 ∨ m.b.space = 3 →
          (∀ x ∈ m.line end_ 0, ∀ y ∈ pieces x.1 x.2, y.1 < 2 ^ 56 ∧ s.me.xfault ≠ some (y.1 / 2 ^ 16) ∧
            (∃ e, s.myPlot.lookup y.1 = some e) ∧ ∀ e ∈ s.myPlot.utlb, e.va ≤ y.1 → y.1 < e.va + e.bytes → e.rd = true) → s.me.mul.bytes = [] → s.me.mul.failed = [] →
          ∃ u, exec f.1 s = .next u ∧ u.myPlot.engine.running = some s.cur.2 ∧ u.me.block.map (·.why) = some .stream ∧
            u.me.mul.point = some ⟨c.toNat, s.ipc.toNat / 4, end_, 0, 0, 0, true, false⟩ ∧ u.myPlot.bufs = q.2.myPlot.bufs ∧
            ∀ x ∈ m.line end_ 0, ∀ y ∈ pieces x.1 x.2, ∃ o ∈ u.me.outst, o.act = .stream y.1))

/-- R61, R136, R144 to R147: a multiply with a streamed operand that has the engine and stands before its last block, of which all lines have come:
the steps of that block are taken, and it ends as another multiply does. Its control word is the one that it issued with. -/
def Sys2Proof.Stated.MultiplyStreams : Prop :=
  ∀ (s : State) (a b k c : BitVec 6) (w : Word) (p : MulPoint), Ready s (pairSrc (regG a) ++ pairSrc (regG b)) [] →
    Claims.Turn s [s.myPlot.base c.toNat] → s.myPlot.engine.running = some s.cur.2 → s.budget = [] →
    s.me.mul.ctl = some w → s.me.mul.point = some p → p.stepped = false → p.fresh = true → p.ti = 0 → p.ks ≤ p.kb → s.me.mul.failed = [] →
    ∀ f ∈ [(Instr.mma a b k c, 0), (.mmaG a b k c, 1), (.mmas a b k c, 2)],
      let m := Claims.mulOf s f.2 a b w c
      m.shapes (regG k) (s.myPlot.isBase c.toNat) = .ok () → m.inBounds p.end_ = .ok () → m.list p.end_ ≠ [] →
      p.kb < m.k → m.k ≤ 32 * (p.kb / 32 + 1) → p.kb % m.per = 0 →
      (∀ n, p.kb ≤ n → n < m.k → n % m.per = 0 → ∀ x ∈ m.line p.end_ n, ∀ o ∈ span x.1 x.2, ∃ y ∈ s.me.mul.bytes, y.1 = o) →
      ∃ u, Claims.Done f.1 s u ∧ Claims.Multiplied s u m p.end_ (Claims.stepsOf m p.kb)

/-- A multiply accumulates every element of its rows in ascending k, and nothing else; streamed operands are fetched line by line. Its turns
take budgets of the model's own (DESIGN CHOICE, log entry 8), a group is live before the first line is fetched (DEDUCED, log entry 82), and the
line of a step of mmas is that of its four k (DEDUCED, log entry 76). -/
def Obligations.MatrixMultiply : Prop := Sys2Proof.Stated.MultiplyRuns ∧ Sys2Proof.Stated.MultiplyStreams

/-- R138 to R140: a matrix instruction, first attempted, joins those that wait for the engine, in the order of first attempts, even while it waits
for a register. One that names a group which another context holds waits for it; while another context runs a multiply, or another that
waits goes first, it waits for the engine. With a write of its task to its own plot under way it waits for that before the engine (R113). None has
another effect. A multiply that has its control word no longer waits for that register. -/
def Sys2Proof.Stated.MatrixWaits : Prop :=
  ∀ (s : State) (a b k c : BitVec 6) (v : BitVec 4),
    let low := [s.myPlot.base ((s.takeG (regG a)).1.toNat % 64)]
    let pair := fun (r : BitVec 6) => pairSrc (regG r)
    let control : List Src := if s.me.mul.ctl.isSome then [] else [⟨regG k, false⟩]
    ∀ f ∈ [(Instr.mma a b k c, pair a ++ pair b ++ control, ([] : List Nat), [s.myPlot.base c.toNat]),
        (.mmaG a b k c, pair a ++ pair b ++ control, [], [s.myPlot.base c.toNat]),
        (.mmas a b k c, pair a ++ pair b ++ control, [], [s.myPlot.base c.toNat]),
        (.mzero a, [⟨regG a, false⟩], [], low), (.mdrain a b, ⟨regG a, false⟩ :: pair b, [], low),
        (.mdrainZ a b, ⟨regG a, false⟩ :: pair b, [], low), (.mdrainV v a, [⟨regG a, false⟩], [regV v], low)],
      let joined := fun (ns : List Nat) => s.joinMul ns
      let others := s.myPlot.engine.waiting
      (∀ ns, joined ns = { s with plots := (joined ns).plots } ∧ (joined ns).myPlot = { s.myPlot with
          ctxs := (joined ns).myPlot.ctxs
          engine := { s.myPlot.engine with
            waiting := if s.cur.2 ∈ others ∨ s.myPlot.engine.running = some s.cur.2 then others else others ++ [s.cur.2] } } ∧
        (joined ns).me = { s.me with mul := { s.me.mul with names := ns } }) ∧
      (∀ w, checkRegs s f.2.1 f.2.2.1 = .error (.block w) → exec f.1 s = .next ((joined []).blocked w)) ∧
      (Ready s f.2.1 f.2.2.1 →
        (∀ g j, f.2.2.2 = [g] → (s.myPlot.group g).held = some j → j ≠ s.cur.2 →
          exec f.1 s = .next ((joined f.2.2.2).blocked (.heldGroup g))) ∧
        ((∀ g ∈ f.2.2.2, (s.myPlot.group g).held = none) → s.me.ownStore = true → exec f.1 s = .next ((joined f.2.2.2).blocked .ownStore)) ∧
        ((∀ g ∈ f.2.2.2, (s.myPlot.group g).held = none) → s.me.ownStore = false →
          (∀ j, s.myPlot.engine.running = some j → j ≠ s.cur.2 → exec f.1 s = .next ((joined f.2.2.2).blocked .engine)) ∧
          ∀ j, s.myPlot.engine.running = none → (joined f.2.2.2).myPlot.nextMul (some s.cur.2) = some j → j ≠ s.cur.2 →
            exec f.1 s = .next ((joined f.2.2.2).blocked .engine)))

/-- R153 to R157: the control instructions of the matrix engine, granted the engine and with operands that pass their checks. -/
def Sys2Proof.Stated.MatrixControl : Prop :=
  ∀ (s : State) (a b d : BitVec 6) (v : BitVec 4),
    let q := s.takeG (regG a)
    let w := q.1
    let base := w.toNat % 64
    let g := cfgGroup w
    let x := q.2.myPlot
    (Ready s [⟨regG a, false⟩] [] → Claims.Turn s (s.myPlot.touched base g.tiles) → base + g.tiles ≤ 64 → w.toNat / 2 ^ 13 = 0 → w.toNat / 64 % 4 = 0 →
      (x.sameGroup base g = true → Claims.Done (.mcfg a) s q.2 ∧ ∃ u, Claims.Done (.mcfgD a) s u ∧ Claims.Cleared q.2 u base) ∧
      (x.sameGroup base g = false →
        ((∀ k ∈ x.touched base g.tiles, (x.group k).live = false) → Claims.Done (.mcfg a) s (q.2.modPlot s.cur.1 fun y => y.formGroup base g)) ∧
        Claims.Done (.mcfgD a) s (((x.touched base g.tiles).foldl State.clearGroup q.2).modPlot s.cur.1 fun y => y.formGroup base g))) ∧
    (base + g.tiles ≤ 64 → let y := x.formGroup base g
      y.group base = g ∧ (∀ t, base ≤ t → t < base + g.tiles → y.base t = base) ∧
      ∀ t, (∀ k ∈ x.touched base g.tiles, t ∉ x.groupTiles k) → t < base ∨ base + g.tiles ≤ t → y.base t = x.base t ∧ y.group t = x.group t) ∧
    (Ready s [⟨regG a, false⟩] [] → Claims.Turn s [s.myPlot.base base] → x.isBase base = true → w.toNat / 64 = 0 →
      ∃ u, Claims.Done (.mzero a) s u ∧ Claims.Cleared q.2 u base) ∧
    (Ready s (⟨regG a, false⟩ :: pairSrc (regG b)) [] → Claims.Turn s [s.myPlot.base base] →
      let p := q.2.desc (regG b)
      let h := x.group base
      let rm := w.toNat / 2 ^ 16 % 8
      x.isBase base = true → w.toNat / 2 ^ 20 = 0 → w.toNat / 64 % 2 ^ 10 = 0 →
      p.check [0, 1] (if h.i32 then [0, 1, 2, 4, 5, 6] else [8, 9, 11, 12]) false = .ok () → p.aligned = .ok () → rm ≠ 5 → rm ≠ 6 →
      p.bounds (h.r - 1) (h.n - 1) = .ok () →
      let rcs := (List.range h.r).flatMap fun i => (List.range h.n).map fun j => (i, j)
      let mode := if rm = 7 then s.me.csr.fpcsr.toNat / 256 % 8 else rm
      let out := fun (ij : Nat × Nat) => convert (if h.i32 then .int 32 true else fmtF) (p.f s.me.csr.vfmt) mode (bitw w 19) false
        (Claims.code q.2 2 (h.elem base ij.1 ij.2).2 4)
      let r := (q.2.writeElems p.space p.e (rcs.map fun ij => (p.at_ ij.1 ij.2, (out ij).1))).raise s.cur.1 s.cur.2
        (rcs.foldl (fun f ij => f ||| (out ij).2) 0)
      Claims.Done (.mdrain a b) s r ∧ ∃ u, Claims.Done (.mdrainZ a b) s u ∧ Claims.Cleared r u base) ∧
    (Ready s [⟨regG a, false⟩] [regV v] → Claims.Turn s [s.myPlot.base base] → w.toNat / 2 ^ 10 = 0 → w.toNat / 64 % 4 = 0 →
      let f := q.2.fresh
      let row := Claims.bytesAt q.2 2 (128 * base + 32 * (w.toNat / 256 % 4)) 32
      Claims.Done (.mdrainV v a) s ((f.2.await_ ⟨f.1, .other, false, .vec v.toNat (List.replicate 32 true) false, w⟩).sendMine .rsp
        (.plot (s.plotId s.cur.1)) (.rsp (f.2.who f.1) (.data row 0 false)))) ∧
    (Ready s (pairSrc (regG d) ++ [⟨regG a, false⟩] ++ pairSrc (regG b)) [] →
      let tb := w.toNat / 256 % 64
      let gt := x.group tb
      let gc := x.group base
      let p := q.2.desc (regG d)
      let r := q.2.desc (regG b)
      Claims.Turn s [s.myPlot.base tb, s.myPlot.base base] →
      x.isBase tb = true → x.isBase base = true → gt.rows = gc.rows → gt.cols = gc.cols → w.toNat / 2 ^ 14 = 0 → w.toNat / 64 % 4 = 0 →
      p.check [0, 1] [9, 11, 12] false = .ok () → r.check [0, 1] [9, 11, 12] false = .ok () → gt.i32 = false → gc.i32 = false →
      p.aligned = .ok () → r.aligned = .ok () → p.scaleBounds gc.r = .ok () → r.scaleBounds gc.n = .ok () →
      let f := s.me.csr.vfmt
      ∀ z ∈ [(Instr.mscale d a b, false), (.mscaleZ d a b, true)],
        ∃ u, ((List.range gc.r).flatMap fun i => (List.range gc.n).map fun j => (i, j)).foldlM (fun s ij =>
            s.scaleElem z.2 (gt.elem tb ij.1 ij.2).2 (gc.elem base ij.1 ij.2).2
              ((p.f f).value (Claims.code q.2 p.space (p.scaleAt ij.1) p.e)) ((r.f f).value (Claims.code q.2 r.space (r.scaleAt ij.2) r.e))) q.2 = .ok u ∧
          Claims.Done z.1 s (u.modPlot s.cur.1 fun y => y.modGroup base fun g => { g with live := true })) ∧
    (Ready s (⟨regG a, false⟩ :: (pairSrc (regG b) ++ pairSrc (regG d))) [] → Claims.Turn s [] →
      let k := w.toNat % 2 ^ 16
      let l := w.toNat / 2 ^ 16 % 2 ^ 16
      let p := q.2.desc (regG b)
      let r := q.2.desc (regG d)
      w.toNat / 2 ^ 32 = 0 → p.check [0, 1] [0, 4, 8, 9, 11, 12] false = .ok () → r.check [0, 1] [0, 4, 8, 9, 11, 12] true = .ok () →
      p.ty = r.ty → p.p = r.p → p.x = r.x → p.aligned = .ok () → r.aligned = .ok () → k % 8 = 0 → k ≠ 0 → l ≠ 0 →
      p.bounds (k - 1) (l - 1) = .ok () → r.bounds (k / 2 - 1) (l - 1) = .ok () → r.metaOff + l * (k / 8) - 1 < Claims.lengthOf r.space →
      ∃ u, ((List.range l).flatMap fun j => (List.range (k / 4)).map fun g => (g, j)).foldlM
          (fun s gj => s.compGroup p r (p.f s.me.csr.vfmt) k gj.1 gj.2) q.2 = .ok u ∧ Claims.Done (.mcomp a b d) s u)

/-- R46, R150, R157: one element of mscale: C + T · (x · y), the product and the sum each as R46 says, rounded once; and one group of mcomp:
of four elements the two of largest magnitude, a NaN larger than every number and the lower index first among equals, are written in ascending k
to rows 2g and 2g + 1 of the destination, and the nibble of the metadata, low for an even g and high for an odd one, holds the index of the first
kept in its low two bits and that of the second in its high two; no other byte of the buffers changes.
That a signalling NaN scale sets no NV under .z where T is zero is the model's choice (log entry 64). -/
def Sys2Proof.Stated.MatrixElements : Prop :=
  ∀ (s : State), s.myPlot.bufs.errs = [] →
    (∀ (z : Bool) (t c : Nat) (x y : Machine.Num), ∃ u, s.scaleElem z t c x y = .ok u ∧
      let scale := if z ∧ x.isNan = false ∧ y.isNan = false then x.mulz y else x.mul y
      let r := round fmtF 0 false false (Machine.Num.add 0 (Claims.V (Claims.code s 2 c 4))
        (if z then (Claims.V (Claims.code s 2 t 4)).mulz scale else (Claims.V (Claims.code s 2 t 4)).mul scale))
      Claims.code u 2 c 4 = r.1 ∧ u.me.mul.flags = s.me.mul.flags ||| r.2 ∧
        ∀ o, o < c ∨ c + 4 ≤ o → u.myPlot.bufs.byte 2 o = s.myPlot.bufs.byte 2 o) ∧
    (∀ xs : List Machine.Num, xs.length = 4 →
      let k := keepTwo xs
      k.1 < k.2 ∧ k.2 < 4 ∧ ∀ i, i < 4 → i ≠ k.1 → i ≠ k.2 → ∀ j, j = k.1 ∨ j = k.2 →
        ∀ x y, xs[i]? = some x → xs[j]? = some y → largerMag x y = false ∧ (largerMag y x = false → j < i)) ∧
    ∀ (p r : Desc) (f : Fmt) (k g j : Nat), p.e = r.e →
      let x := fun n => Claims.code s p.space (p.at_ (4 * g + n) j) p.e
      let two := keepTwo ((List.range 4).map fun n => f.value (x n))
      let lo := r.at_ (2 * g) j
      let hi := r.at_ (2 * g + 1) j
      let o := r.metaOff + j * (k / 8) + g / 2
      let apart := fun (a n b l : Nat) => a + n ≤ b ∨ b + l ≤ a
      apart lo r.e hi r.e → apart lo r.e o 1 → apart hi r.e o 1 →
      ∃ u, s.compGroup p r f k g j = .ok u ∧ Claims.code u r.space lo r.e = x two.1 ∧ Claims.code u r.space hi r.e = x two.2 ∧
        (let new := (u.myPlot.bufs.byte r.space o).toNat
         let old := (s.myPlot.bufs.byte r.space o).toNat
         let kept := two.1 + 4 * two.2
         if g % 2 = 0 then new % 16 = kept ∧ new / 16 = old / 16 else new / 16 = kept ∧ new % 16 = old % 16) ∧
        (∀ n, apart n 1 lo r.e → apart n 1 hi r.e → n ≠ o → u.myPlot.bufs.byte r.space n = s.myPlot.bufs.byte r.space n) ∧
        ∀ z n, z < 3 → z ≠ r.space → u.myPlot.bufs.byte z n = s.myPlot.bufs.byte z n

/-! ## Modifiers and words that are no instruction -/

namespace Sys2Proof.Claims

open Sys2Proof Sys2Proof.Machine

/-- R64 to R66: the modifier words, the modifier that each leaves, and the instructions that it may precede. -/
def modifiers (p : BitVec 24) : List (Instr × Modifier × (W32 → Instr → Prop)) :=
  [(.modImm p, .imm p, fun _ i => ∃ d a t n, i = .addi d a t n ∨ i = .andi d a t n ∨ i = .ori d a t n ∨ i = .xori d a t n),
   (.modVf p, .vf p, fun w _ => ∃ u, vfUse w = some u ∧ vfLegal (vfOf p) u = true),
   (.modInv p, .inv p, fun _ i => ∃ d a n t m, i = .invoke d a n t m ∧ (invModOf p).hmask < 2 ^ n.toNat ∧ (invModOf p).smask < 2 ^ n.toNat),
   (.modHint p, .hint p, fun _ _ => True)]

end Sys2Proof.Claims

/-- R64 to R68, R70: a modifier word whose successor it may precede makes a pair with it; else it raises ILLEGAL with its own word, or with the
successor's if that is no instruction; at the last address it raises FETCH-FAULT. A word that is no instruction raises ILLEGAL.
A modifier that its successor refuses at the last address raises FETCH-FAULT (DEDUCED, log entry 37). Where both the successor and the
modifier's kind or fields are at fault the successor decides, and a modifier whose payload is itself no encoding is named whatever follows it
(DESIGN CHOICE, log entry 63). -/
def Obligations.ModifierPairs : Prop :=
  ∀ (s : State) (p : BitVec 24), ∀ f ∈ Claims.modifiers p,
    let a := s.me.pc.toNat
    let next := s.myPlot.wordFor s.me (a + 4)
    (a = 0x1FFC → exec f.1 s = .next (s.trap .fetchFault 0x2000)) ∧
    (a ≠ 0x1FFC → s.me.furrow.leader = none → Sparse.get false s.myPlot.istoreBad ((a + 4) / 4) = true →
      exec f.1 s = .next (s.trap .eccUncorrected (.ofNat 64 (2 ^ 62 + a + 4)))) ∧
    (a ≠ 0x1FFC → s.me.furrow.leader.isSome = true ∨ Sparse.get false s.myPlot.istoreBad ((a + 4) / 4) = false →
      (isModWord next = true → exec f.1 s = .next (s.trap .illegal (s.iword.setWidth 64))) ∧
      (isModWord next = false → (∀ i, decode next ≠ .ok i) → exec f.1 s = .next (s.trap .illegal (next.setWidth 64))) ∧
      ∀ i, isModWord next = false → decode next = .ok i →
        (f.2.2 next i → exec f.1 s = .next (s.modMe fun x => { x with pair := some f.2.1, second := next })) ∧
        (¬ f.2.2 next i → exec f.1 s = .next (s.trap .illegal (s.iword.setWidth 64)))) ∧
    ∀ w : W32, ¬ (isModWord w = true ∧ s.ipc = 0x1FFC) → exec (.ill w) s = .next (s.trap .illegal (w.setWidth 64))

/-! ## Events: answers, words of the ports, translations -/

namespace Sys2Proof.Claims

open Sys2Proof Sys2Proof.Machine

/-- R18: a packet is the first of its stream, and is taken. -/
def Arrives (s : State) (k : Nat) (m : Packet) (t : State) : Prop := s.first k = some m ∧ t = s.takeMsg k

/-- A packet is for a plot of this package. -/
def AtPlot (s : State) (m : Packet) (p : Nat) : Prop := p < 2 ^ 20 ∧ m.dst = .plot (s.plotId p)

/-- R21: the plot takes the packet's tenant. -/
def Same (s : State) (m : Packet) (p : Nat) : Prop := m.tenant = 0 ∨ m.tenant = (s.plot p).tenant

/-- One plot has changed, and nothing else. -/
def OnlyPlot (s t : State) (p : Nat) : Prop := t = s.setPlot p (t.plot p)

/-- The answer of a place that has served a request. -/
def answers (s : State) (m : Packet) (w : Who) (r : Rsp) : State := s.push ⟨.rsp, m.dst, .plot w.plot, m.tenant, .rsp w r⟩

/-- R23: what a plot does not see. -/
structure Unseen (s t : State) : Prop where
  mem : t.mem = s.mem
  fields : t.fields = s.fields
  flumes : t.flumes = s.flumes
  cycle : t.cycle = s.cycle

/-- Bytes put at their addresses, the later ones last. -/
def putAt (bs : List (Nat × Byte)) (old : Nat → Byte) (a : Nat) : Byte := bs.foldl (fun v b => if b.1 = a then b.2 else v) (old a)

/-- R21, R106: an access that its place refuses is told so, and no longer waits to be performed. -/
def refuses (s : State) (m : Packet) (a : Acc) : State :=
  answers { s with checked := s.checked.filter fun e => e.1 != a.who } m a.who .reject

/-- R344: the acknowledgement of a write that has been performed. -/
def acknowledges (s : State) (m : Packet) (a : Acc) : State :=
  answers { s with checked := s.checked.filter fun e => e.1 != a.who } m a.who (.words [] 0)

/-- R106, R344: a write at the place that checks its tenant: it has not been accepted yet, and those of its stream before it have. -/
structure AtCheck (s : State) (k : Nat) (m : Packet) (a : Acc) : Prop where
  here : s.net[k]? = some m
  body : m.body = .acc a
  write : (∃ bs, a.op = .store bs) ∨ ∃ op w, a.op = .sync op w ∧ 2 ≤ op
  fresh : ∀ e ∈ s.checked, e.1 ≠ a.who
  after : ∀ e ∈ s.net.take k, e.stream = m.stream → ∃ b, e.body = .acc b ∧ s.wasAccepted b = true

/-- R344: no accepted write waits at a place. -/
def Idle (s : State) (d : Endpoint) : Prop := ∀ e ∈ s.checked, e.2 ≠ d

/-- R344: an accepted write is the first that waits at its place. -/
def InTurn (s : State) (m : Packet) (a : Acc) : Prop :=
  ∃ before after, s.checked = before ++ (a.who, m.dst) :: after ∧ ∀ e ∈ before, e.2 ≠ m.dst

/-- R113, R342, R103: what an access at a base die waits for: its task's earlier accesses to its bytes, and, for a synchronising load, the earlier
ones of its stream to the sector. -/
structure DieTurn (s : State) (k : Nat) (m : Packet) (a : Acc) : Prop where
  net : ∀ e ∈ s.net, e.hbmAcc (·.before a) = false
  parked : ∀ e ∈ s.parked, e.1.before a = false
  resend : ∀ e ∈ s.resend, e.2.hbmAcc (·.before a) = false
  sync : a.waitsOn a = true → ∀ e ∈ s.net.take k, e.stream = m.stream → e.hbmAcc (·.waitsOn a) = false

/-- R249: the integer AMOs: the new value from the old one and the two operands. -/
def amoTable : List (Nat × (Word → Word → Word → Word)) :=
  [(0, fun o a _ => o + a), (1, fun _ a _ => a), (2, fun o a b => if o = a then b else o), (3, fun o a _ => if a.toInt < o.toInt then a else o),
   (4, fun o a _ => if o.toInt < a.toInt then a else o), (5, fun o a _ => if a.toNat < o.toNat then a else o),
   (6, fun o a _ => if o.toNat < a.toNat then a else o), (7, fun o a _ => o &&& a), (8, fun o a _ => o ||| a), (9, fun o a _ => o ^^^ a)]

end Sys2Proof.Claims

/-- R21, R59, R63, R106, R224: an answer reaches its task: one event for a task that is held for it, one for a task that is not, one for an
await; acknowledgements count; a plot of another partition only counts the mismatch. -/
def Sys2Proof.Stated.AnswersArrive : Prop :=
  ∀ (s t : State) (k p : Nat) (m : Packet) (w : Who) (r : Rsp), Claims.Arrives s k m t → Claims.AtPlot s m p →
    (m.body = .rsp w r → m.cls = .rsp → ∀ i ∈ [Instr.longLatencyResponse k, .heldAccessResponse k],
      (t.heldFor w = true ↔ i = .heldAccessResponse k) →
        (Claims.Same t m p → exec i s = .next (t.answer w r)) ∧ (¬ Claims.Same t m p → exec i s = .next (t.mismatchAt p))) ∧
    (m.body = .rsp w r → m.cls = .clo → Claims.Same t m p → exec (.awaitAnswer k) s = .next (t.answer w r)) ∧
    (m.body = .sysAck w ∨ m.body = .bindAck w ∨ m.body = .gateAns w (.words [] 0) → Claims.Same t m p →
      exec (.heldAccessResponse k) s = .next (t.ackOne w)) ∧
    (∀ c v, m.body = .gateAns w (.trap c v) → Claims.Same t m p → exec (.heldAccessResponse k) s = .next (t.answer w (.trap c v))) ∧
    ∀ q e, m.body = .poolAns w r q e → Claims.Same t m p →
      ((t.plot p).find w.task ≠ none → exec (.heldAccessResponse k) s = .next (t.answer w r)) ∧
      ((t.plot p).find w.task = none → exec (.heldAccessResponse k) s = .next (t.push ⟨.req, m.dst, m.src, m.tenant, .unput q e⟩))

/-- R59, R63: an answer of words fills the registers that waited for it, in order, and no other; the access is outstanding no longer. A task
held for it retires its instruction, and goes on after it, or, where its leader split meanwhile, where the split says (R199; DEDUCED, log entry
83); one that is not stays as it is. R224: a break record that comes for a plain await raises BROKEN at the
await, with the record as TVAL. -/
def Sys2Proof.Stated.AnswerFills : Prop :=
  ∀ (s : State) (w : Who) (c : Nat) (o : Outst) (ds : List Nat) (ws : List Word),
    let p := w.plot % 2 ^ 20
    let x := s.ctx p c
    let t := s.answer w (.words ws 0)
    let y := t.ctx p c
    (s.plot p).find w.task = some (.ctx c) → (s.plot p).outbox = [] → x.outst.find? (fun o => o.id == w.id) = some o → o.act = .words ds →
      ds.length = ws.length → ds.Nodup → (∀ d ∈ ds, 0 < d ∧ d < 60) →
      (∀ (i d : Nat) (v : Word), ds[i]? = some d → ws[i]? = some v → y.regs.gv d = v ∧ y.regs.isEmpty d = false) ∧
      (∀ r, r ∉ ds → y.regs.gv r = x.regs.gv r ∧ y.regs.isEmpty r = x.regs.isEmpty r) ∧
      y.outst = x.outst.filter (fun a => a.id != w.id) ∧ (∀ j, j ≠ c → t.ctx p j = s.ctx p j) ∧ (∀ q, q ≠ p → t.plot q = s.plot q) ∧ Claims.Unseen s t ∧
      (∀ h, x.hold = some h → h.id = w.id → (∀ a b n, h.kind ≠ .flume a b n) →
        y.hold = none ∧ y.pair = none ∧
          y.pc = (match x.furrow.resume with
            | some e => e.next
            | none => x.pc + .ofNat 64 (4 * x.words))) ∧
      ((∀ h, x.hold = some h → h.id ≠ w.id) → y.hold = x.hold ∧ y.pc = x.pc ∧ y.pair = x.pair) ∧
      ∀ h d b, x.hold = some h → h.id = w.id → h.kind = .await → ds = [d] →
        s.answer w (.words [b, 1] 0) = s.trapTask p (.ctx c) w.id .broken b

/-- R74, R21: the first word of an outbound queue moves to the neighbour's queue of the opposite port, while that holds fewer than 8; a
neighbour of another partition discards it and counts. -/
def Sys2Proof.Stated.PortWordMoves : Prop :=
  ∀ (s : State) (p q d e : Nat) (w : Word) (rest : List Slot), neighbour p d = some q → e = (d + 2) % 4 →
    (s.plot p).outbound d = ⟨(((s.plot p).outbound d).headD ⟨0, none⟩).id, some w⟩ :: rest → ((s.plot q).inbound e).length < 8 →
    ∃ t, exec (.portWordTransfer p d) s = .next t ∧ (t.plot p).outbound d = rest ∧
      (∀ x, x ≠ p → x ≠ q → t.plot x = s.plot x) ∧ (∀ x, x ≠ d → (t.plot p).outbound x = (s.plot p).outbound x) ∧
      ((s.plot q).tenant = (s.plot p).tenant → (t.plot q).inbound e = (s.plot q).inbound e ++ [w] ∧ Claims.Unseen s t) ∧
      ((s.plot q).tenant ≠ (s.plot p).tenant → (t.plot q).inbound e = (s.plot q).inbound e ∧ (t.plot q).mismatch = (s.plot q).mismatch + 1)

/-- R110, R111: the service's answer to a page that a plot asked for: a translation enters the micro-TLB first, with at most 16 kept; with none
every task that waits for it takes the fault, spilled ones too (R186). The requests for the page are gone. -/
def Sys2Proof.Stated.TranslationArrives : Prop :=
  ∀ (s : State) (p k c page : Nat), (s.plot p).xreq[k]? = some (c, page) →
    ∃ t, exec (.translationComplete p k) s = .next t ∧ (t.plot p).xreq = (s.plot p).xreq.filter (fun e => e.2 != page) ∧ t.mem = s.mem ∧
      (∀ q, q ≠ p → t.plot q = s.plot q) ∧
      (∀ e, s.service p (page * 2 ^ 16) = some e → (t.plot p).utlb = (e :: (s.plot p).utlb).take 16 ∧ (∀ j, t.ctx p j = s.ctx p j) ∧
        e ∈ (t.field (fieldOf p)).tlb) ∧
      (s.service p (page * 2 ^ 16) = none → (t.plot p).utlb = (s.plot p).utlb ∧ t.fields = s.fields ∧
        (∀ j, ((s.ctx p j).csr.taskid, page) ∉ (s.plot p).xreq → t.ctx p j = s.ctx p j) ∧
        ∀ n pl, (n, page) ∈ (s.plot p).xreq → (s.plot p).find n = some pl → (t.plot p).at_ pl = { (s.plot p).at_ pl with xfault := some page })

/-- R138: a free matrix engine goes to the waiting context of greatest TASKPRI, the first in order among equals, that may be granted it: it waits
for nothing else, for no group that another's multiply holds. -/
def Sys2Proof.Stated.EngineGoes : Prop :=
  ∀ (s : State) (p c : Nat) (before after : List Nat),
    let x := s.plot p
    let may := fun (j : Nat) => j < 4 ∧ (x.ctx j).live = true ∧ (x.ctx j).halted = false ∧ x.sched.spilling ≠ some j ∧
      (∀ t ∈ (x.ctx j).mul.names, (x.group (x.base t)).held = none ∨ (x.group (x.base t)).held = some j) ∧
      ∃ b, (x.ctx j).block = some b ∧ b.why = .engine
    x.engine.running = none → x.engine.waiting = before ++ c :: after → may c →
      (∀ j ∈ before, may j → (x.ctx j).csr.taskpri < (x.ctx c).csr.taskpri) → (∀ j ∈ after, may j → (x.ctx j).csr.taskpri ≤ (x.ctx c).csr.taskpri) →
      exec (.engineGrant p) s = .next (s.setPlot p { x with engine := { running := some c, waiting := (before ++ after).filter (· != c) } })

/-! ## Events: the places that serve accesses -/

/-- R103, R106, R107, R116, R249, R344: a remote port. A write is accepted or refused by its tenant first, in the order of its stream, and
performed later, in the order of acceptance: a store writes its bytes and sets their words full, stfull and clrfe set or clear the word's bit,
and the acknowledgement leaves. Another access waits while an accepted write waits: a load gives the bytes, a row of a vector its active
bytes, a synchronising load of a full word gives it and ldfe empties it, one of an empty word is parked, and an AMO gives the old value and
writes the new one. -/
def Sys2Proof.Stated.RemotePortServes : Prop :=
  (∀ (s : State) (k p : Nat) (m : Packet) (a : Acc), Claims.AtCheck s k m a → Claims.AtPlot s m p →
    (Claims.Same s m p → exec (.remotePortAccess k) s = .next (Claims.answers { s with checked := s.checked ++ [(a.who, m.dst)] } m a.who .accept)) ∧
    (¬ Claims.Same s m p → exec (.remotePortAccess k) s = .next (Claims.answers ((s.takeMsg k).mismatchAt p) m a.who .reject))) ∧
  ∀ (s t : State) (k p : Nat) (m : Packet) (a : Acc), Claims.Arrives s k m t → Claims.AtPlot s m p → m.body = .acc a → a.buf < 3 →
    let x := t.plot p
    let i := Instr.remotePortAccess k
    let got := fun (n : Nat) => (List.range n).map fun j => x.bufs.byte a.buf (a.addr + j)
    let clean := x.bufs.errs = []
    (Claims.InTurn t m a → (∀ op w, a.op = .sync op w → op < 4) →
      (Claims.Same t m p →
        (∀ bs, a.op = .store bs → ∃ u : State, exec i s = .next (Claims.acknowledges u m a) ∧ Claims.OnlyPlot t u p ∧
          (∀ o, (u.plot p).bufs.byte a.buf o = Claims.putAt (bs.map fun b => (a.addr + b.1, b.2)) (x.bufs.byte a.buf) o) ∧
          ∀ o, (u.plot p).bufs.wordEmpty a.buf o = (x.bufs.wordEmpty a.buf o && !(bs.any fun b => (a.addr + b.1) / 8 == o))) ∧
        ∀ w, (a.op = .sync 2 w ∨ a.op = .sync 3 w) →
          ∃ u : State, exec i s = .next (Claims.acknowledges u m a) ∧ Claims.OnlyPlot t u p ∧
            (a.addr % 8 = 0 → ∀ o, (u.plot p).bufs.wordEmpty a.buf o =
              if o = a.addr / 8 then decide (a.op = .sync 3 w) else x.bufs.wordEmpty a.buf o) ∧
            (a.op = .sync 3 w → ∀ o, (u.plot p).bufs.byte a.buf o = x.bufs.byte a.buf o) ∧
            (a.op = .sync 2 w → ∀ j, j < 8 → (u.plot p).bufs.byte a.buf (a.addr + j) = w.extractLsb' (8 * j) 8)) ∧
      (¬ Claims.Same t m p → a.isAmo = false → exec i s = .next (Claims.refuses (t.mismatchAt p) m a))) ∧
    (a.told = false → a.isAmo = false → (∃ e ∈ t.checked, e.2 = m.dst) → (∀ e ∈ t.checked, e.1 ≠ a.who) → exec i s = .next s) ∧
    (Claims.Idle t m.dst → a.told = false → ¬ Claims.Same t m p → a.isAmo = false → exec i s = .next (Claims.refuses (t.mismatchAt p) m a)) ∧
    (Claims.Idle t m.dst → Claims.Same t m p →
      (∀ n, a.op = .load n → clean → exec i s = .next (Claims.answers t m a.who (.data (got n) 0 false))) ∧
      (∀ act, a.op = .lanes act → clean → exec i s = .next (Claims.answers t m a.who (.data ((List.range 32).map fun j =>
        if j ∈ act then x.bufs.byte a.buf (a.addr + j) else 0) 0 false))) ∧
      (∀ op w, op < 2 → a.op = .sync op w → clean → (∀ e ∈ t.parkedPort, ¬ (e.2.1 = p ∧ e.1.buf = a.buf ∧ e.1.addr / 8 = a.addr / 8)) →
        (x.bufs.wordEmpty a.buf (a.addr / 8) = false →
          exec i s = .next (Claims.answers (if op = 1 then t.modBufs p fun b => b.setEmpty a.buf (a.addr / 8) true else t) m a.who (.data (got 8) 0 false))) ∧
        (x.bufs.wordEmpty a.buf (a.addr / 8) = true → (t.parkedPort.filter fun e => e.2.1 == p).length < Config.portParks →
          exec i s = .next { t with parkedPort := t.parkedPort ++ [(a, p, m.tenant)] })) ∧
      ∀ f ∈ Claims.amoTable, ∀ v z, a.op = .amo f.1 v z → clean →
        ∃ u : State, exec (.amoServe k) s = .next (Claims.answers u m a.who (.data (got 8) 0 false)) ∧ Claims.OnlyPlot t u p ∧
          ∀ j, j < 8 → (u.plot p).bufs.byte a.buf (a.addr + j) = (f.2 (.ofNat 64 (numLE (got 8))) v z).extractLsb' (8 * j) 8)

/-- R21, R99, R103, R113, R116, R236, R249, R338, R342, R345: a base die serves an access to memory of its partition, once its task's earlier
accesses to the bytes have been performed: a load gives the bytes, marked where a word cannot be corrected, a row of a vector its active
bytes; a store writes its bytes but those of an active headgate record; stfull and clrfe set or clear the sector's bit; a synchronising load
of a full sector gives the word and ldfe empties it; one of an empty sector is parked; an AMO gives the old value and writes the new one. An
access to memory of another partition is refused and counted. -/
def Sys2Proof.Stated.BaseDieServes : Prop :=
  ∀ (s t : State) (k d : Nat) (m : Packet) (a : Acc), Claims.Arrives s k m t → m.dst = .base d → m.body = .acc a →
    let i := Instr.baseDieAccess k
    let byte := fun (u : State) (x : Nat) => Sparse.get (0 : Byte) u.mem.hbm x
    let got := fun (n : Nat) => (List.range n).map fun j => byte t (a.addr + j)
    let kept := fun (x : Nat) => Sparse.get false t.mem.gate (x / 64) = true
    let owned := m.tenant = 0 ∨ t.owns m.tenant a.addr = true
    (¬ Claims.DieTurn t k m a → a.isAmo = false → exec i s = .next s) ∧
    (Claims.DieTurn t k m a → ¬ owned → a.isAmo = false → exec i s = .next (Claims.refuses { t with mismatch := t.mismatch + 1 } m a)) ∧
    (Claims.DieTurn t k m a → owned →
      (∀ n, a.op = .load n → exec i s = .next (Claims.answers t m a.who (.data (got n) 0 ((span a.addr n).any t.hbmBad)))) ∧
      (∀ act, a.op = .lanes act → exec i s = .next (Claims.answers t m a.who (.data ((List.range 32).map fun j =>
        if j ∈ act then byte t (a.addr + j) else 0) 0 (act.any fun j => t.hbmBad (a.addr + j))))) ∧
      (∀ bs, a.op = .store bs → ∃ u : State, exec i s = .next (Claims.acknowledges u m a) ∧
        u = { t with mem := { t.mem with hbm := u.mem.hbm, bad := u.mem.bad } } ∧
        ∀ x, (kept x → byte u x = byte t x) ∧ (¬ kept x → byte u x = Claims.putAt (bs.map fun b => (a.addr + b.1, b.2)) (byte t) x)) ∧
      (∀ w, a.op = .sync 2 w → ∃ u : State, exec i s = .next (Claims.acknowledges u m a) ∧ u.plots = t.plots ∧
        (∀ x, Sparse.get false u.mem.fe x = (Sparse.get false t.mem.fe x && decide (x ≠ a.addr / 64))) ∧
        ∀ j, j < 8 → ¬ kept (a.addr + j) → byte u (a.addr + j) = w.extractLsb' (8 * j) 8) ∧
      (∀ w, a.op = .sync 3 w → exec i s = .next (Claims.acknowledges (t.setSector a.addr true) m a)) ∧
      (∀ op w, op < 2 → a.op = .sync op w → (∀ e ∈ t.parked, e.1.addr / 64 ≠ a.addr / 64) →
        (Sparse.get false t.mem.fe (a.addr / 64) = false →
          exec i s = .next (Claims.answers (if op = 1 then t.setSector a.addr true else t) m a.who (.data (got 8) 0 (t.hbmBad a.addr)))) ∧
        (Sparse.get false t.mem.fe (a.addr / 64) = true → (t.parked.filter fun e => stackOf e.1.addr == stackOf a.addr).length < Config.baseParks →
          exec i s = .next { t with parked := t.parked ++ [(a, m.tenant)] })) ∧
      ∀ f ∈ Claims.amoTable, ∀ v z, a.op = .amo f.1 v z → (∀ x ∈ span a.addr 8, t.hbmBad x = false) →
        ∃ u : State, exec (.amoServe k) s = .next (Claims.answers u m a.who (.data (got 8) 0 false)) ∧ u.plots = t.plots ∧
          ∀ j, j < 8 → ¬ kept (a.addr + j) → byte u (a.addr + j) = (f.2 (.ofNat 64 (numLE (got 8))) v z).extractLsb' (8 * j) 8)

/-- R21, R106, R346: a peer's write at this package: accepted or refused by the owner of the memory first, and performed when its connection's
earlier accesses have been. -/
def Sys2Proof.Stated.PeerWriteServes : Prop :=
  ∀ (s : State) (k : Nat) (m : Packet) (a : Acc), m.dst = .peer s.pkg →
    let owned := m.tenant = 0 ∨ s.owns m.tenant a.addr = true
    (Claims.AtCheck s k m a →
      (owned → exec (.baseDieAccess k) s = .next (Claims.answers { s with checked := s.checked ++ [(a.who, m.dst)] } m a.who .accept)) ∧
      (¬ owned → exec (.baseDieAccess k) s = .next (Claims.answers { s.takeMsg k with mismatch := s.mismatch + 1 } m a.who .reject))) ∧
    ∀ t bs, Claims.Arrives s k m t → m.body = .acc a → a.op = .store bs → s.wasAccepted a = true → owned → Claims.DieTurn t k m a →
      t.peerTurn k m = true → exec (.baseDieAccess k) s = .next (Claims.acknowledges (t.hbmWrite (bs.map fun b => (a.addr + b.1, b.2))) m a)

/-- R103, R239: a parked load is answered when its bit is full, in the order of arrival at the bit; a request that found no room leaves again
at its cycle. -/
def Sys2Proof.Stated.ParkedServed : Prop :=
  (∀ (s : State) (k : Nat) (a : Acc) (n op : Nat) (w : Word), s.parked[k]? = some (a, n) → a.op = .sync op w →
    let i := Instr.parkedRequestServe k
    (Sparse.get false s.mem.fe (a.addr / 64) = true ∨ (∃ e ∈ s.parked.take k, e.1.addr / 64 = a.addr / 64) → exec i s = .next s) ∧
    (Sparse.get false s.mem.fe (a.addr / 64) = false → (∀ e ∈ s.parked.take k, e.1.addr / 64 ≠ a.addr / 64) →
      let t : State := { s with parked := s.parked.eraseIdx k }
      exec i s = .next (Claims.answers (if op = 1 then t.setSector a.addr true else t) (s.parkedMsg (a, n)) a.who
        (.data ((List.range 8).map fun j => Sparse.get 0 s.mem.hbm (a.addr + j)) 0 (s.hbmBad a.addr))))) ∧
  (∀ (s : State) (j p n op : Nat) (a : Acc) (w : Word), s.parkedPort[j]? = some (a, p, n) → a.op = .sync op w → (s.plot p).bufs.errs = [] →
    (s.plot p).bufs.wordEmpty a.buf (a.addr / 8) = false →
    (∀ e ∈ s.parkedPort.take j, ¬ (e.2.1 = p ∧ e.1.buf = a.buf ∧ e.1.addr / 8 = a.addr / 8)) →
      let t : State := { s with parkedPort := s.parkedPort.eraseIdx j }
      exec (.parkedRequestServe (s.parked.length + j)) s =
        .next ((if op = 1 then t.modBufs p fun b => b.setEmpty a.buf (a.addr / 8) true else t).push ⟨.rsp, .plot (s.plotId p), .plot a.who.plot, n,
          .rsp a.who (.data ((List.range 8).map fun j => (s.plot p).bufs.byte a.buf (a.addr + j)) 0 false)⟩)) ∧
  ∀ (s : State) (k at_ : Nat) (m : Packet), s.resend[k]? = some (at_, m) →
    exec (.requestResend k) s = .next (if s.now < at_ then s else ({ s with resend := s.resend.eraseIdx k } : State).push m)

/-- R104, R347, R375: headworks 0 takes a HOST access; its completion performs it, after earlier ones that touch its bytes, and answers it with its
sender's tenant (R21). A connection state that spills is written when its write completes. -/
def Sys2Proof.Stated.HostServes : Prop :=
  (∀ (s t : State) (k : Nat) (m : Packet) (a : Acc), Claims.Arrives s k m t → m.dst = .head 0 → m.body = .acc a →
    exec (.hostRequest k) s = .next { t with host := { t.host with cxl := t.host.cxl ++ [(a, m.src, m.tenant)] } }) ∧
  (∀ (s : State) (k x : Nat) (bs : List Byte), s.link.spills[k]? = some (x, bs) →
    ∃ u : State, exec (.cxlCompletion (s.host.cxl.length + k)) s = .next u ∧
      u = { s with link := { s.link with spills := s.link.spills.eraseIdx k }, mem := { s.mem with host := u.mem.host } } ∧
      ∀ n, Sparse.get 0 u.mem.host n = if x ≤ n ∧ n < x + bs.length then bs.getD (n - x) 0 else Sparse.get 0 s.mem.host n) ∧
  ∀ (s : State) (k id tenant : Nat) (a : Acc), s.host.cxl[k]? = some (a, .plot id, tenant) →
    let i := Instr.cxlCompletion k
    let t : State := { s with host := { s.host with cxl := s.host.cxl.eraseIdx k } }
    let m : Packet := ⟨.req, .plot a.who.plot, .head 0, tenant, .acc a⟩
    let got := fun (n : Nat) => (List.range n).map fun j => Sparse.get (0 : Byte) s.mem.host (a.addr + j)
    ((∃ e ∈ s.host.cxl.take k, e.1.meets a = true) → exec i s = .next s) ∧
    ((∀ e ∈ s.host.cxl.take k, e.1.meets a = false) →
      (∀ n, a.op = .load n → exec i s = .next (Claims.answers t m a.who (.data (got n) 0 false))) ∧
      (∀ bs, a.op = .store bs → ∃ u : State, exec i s = .next (Claims.answers u m a.who (.words [] 0)) ∧ u = { t with mem := { t.mem with host := u.mem.host } } ∧
        ∀ x, Sparse.get 0 u.mem.host x = Claims.putAt (bs.map fun b => (a.addr + b.1, b.2)) (fun x => Sparse.get 0 s.mem.host x) x) ∧
      (∀ act, a.op = .lanes act → exec i s = .next (Claims.answers t m a.who (.data ((List.range 32).map fun j =>
        if j ∈ act then Sparse.get (0 : Byte) s.mem.host (a.addr + j) else 0) 0 false))) ∧
      ∀ f ∈ Claims.amoTable, ∀ v z, a.op = .amo f.1 v z → ∃ u : State, exec i s = .next (Claims.answers u m a.who (.data (got 8) 0 false)) ∧ u.plots = s.plots ∧
        ∀ j, j < 8 → Sparse.get 0 u.mem.host (a.addr + j) = (f.2 (.ofNat 64 (numLE (got 8))) v z).extractLsb' (8 * j) 8)

/-! ## Events: invocations and messages -/

namespace Sys2Proof.Claims

open Sys2Proof Sys2Proof.Machine

/-- A packet is for a field service block. -/
def AtService (m : Packet) (f : Nat) : Prop := m.dst = .service f

/-- A field service block with one thing changed. -/
def withAgent (s : State) (f : Nat) (l : List AgentEnt) : State := s.modField f fun x => { x with agent := l }

/-- R389: a plot that sleeps wakes, to a parity sweep. -/
def woken (s : State) (p : Nat) : State := s.modPlot p fun x => x.wake

/-- R213, R214, R203: what the plot of an invocation does with it: a disabled channel and a channel of another object break it with
STALE-REF; else it joins the channel, in deterministic mode at the end of the quantum, in the order of its sender and its number. -/
def channelCheck (s : State) (p : Nat) (i : Inv) (t : State) : Prop :=
  let c := (s.plot p).chan i.method
  let src := Endpoint.plot (s.plotId p)
  (c.en = false → t = (s.countAt p 12).breakOwn src i 0x19) ∧
  (c.en = true → (i.mc = true ∧ c.objv = true) ∨ (i.mc = false ∧ ¬ (c.objv = true ∧ c.slot = oSlot i.target)) → t = s.breakOwn src i 0x19) ∧
  (c.en = true → (i.mc = true ∧ c.objv = false) ∨ (i.mc = false ∧ c.objv = true ∧ c.slot = oSlot i.target) →
    t = if (s.plot p).det then { s with deferred := s.deferred ++ [⟨i.sender.toNat, i.order, ⟨.inv, src, src, i.tenant, .inv i⟩⟩] }
      else s.joinChannel p i.method i.tenant (.inv i))

/-- R21: what another partition sent for a plot of a field is refused at its field service block: counted, and an invocation breaks with cause 0x02 (PRIVILEGE). -/
def foreign (s : State) (dst : Endpoint) (i : Inv) : State := { s with mismatch := s.mismatch + 1 }.breakOwn dst i 0x02

/-- R21: what the memory-side agent gives back is refused by a plot of another partition: counted at the plot, and broken with cause 0x02 (PRIVILEGE). -/
def refused (s : State) (p f : Nat) (i : Inv) : State := (s.mismatchAt p).breakOwn (.service f) i 0x02

/-- R230, R322: the directory of a field has recorded a mapping: the older one is gone, the object's list stands in the agent of the new home's
field, and the acknowledgement has left. -/
def MapsHome (t v : State) (m : Packet) (f : Nat) (old new : Word) (w : Who) : Prop :=
  ∃ u : State, v = u.push ⟨.sys, m.dst, .plot w.plot, m.tenant, .sysAck w⟩ ∧
    (u.field f).moved old = some new ∧ (∀ o, o ≠ old → (u.field f).moved o = (t.field f).moved o) ∧
    (∀ i, AgentEnt.object old i ∉ (u.field f).agent) ∧ (∀ i, AgentEnt.object old i ∈ (t.field f).agent →
      AgentEnt.object new { i with target := new } ∈ (u.field (fieldOf (hPlot new))).agent) ∧ u.plots = t.plots

end Sys2Proof.Claims

/-- R21, R203, R214, R216, R230: an invocation at a plot. One with a strict argument, or whose target is a handle, visits the record; one for an
object goes to the directory if the object has moved, breaks with STALE-REF if it is not valid or of another generation, goes to the agent
if it is not resident, and else is checked by its channel, as a multicast's is. In deterministic mode the delivery waits for the end of the
quantum. -/
def Sys2Proof.Stated.InvocationArrives : Prop :=
  ∀ (s t : State) (k p : Nat) (m : Packet) (i : Inv), Claims.Arrives s k m t → Claims.AtPlot s m p → m.body = .inv i →
    let e := Instr.invocationArrival k
    let u := Claims.woken t p
    let src := Endpoint.plot (s.plotId p)
    let o := (t.plot p).obj (oSlot i.target)
    (¬ Claims.Same t m p → exec e s = .next ((t.mismatchAt p).breakOwn m.dst i 0x02)) ∧
    (Claims.Same t m p →
      (∀ a h, i.strict = some (a, h) → exec e s = .next (u.recordArrive p h i)) ∧
      (i.strict = none → i.mc = false → bitw i.target 0 = true → exec e s = .next (u.recordArrive p i.target i)) ∧
      (i.strict = none → (i.mc = true ∨ bitw i.target 0 = false) →
        (i.mc = true → ∃ r : State, exec e s = .next r ∧ Claims.channelCheck u p i r) ∧
        (i.mc = false →
          (∀ n, (u.field (fieldOf p)).moved i.target = some n → exec e s = .next (u.push ⟨.inv, src, .service (fieldOf p), i.tenant, .dirForward i⟩)) ∧
          ((u.field (fieldOf p)).moved i.target = none →
            (o.v = false ∨ o.gen ≠ oGen i.target → exec e s = .next (u.breakOwn src i 0x19)) ∧
            (o.v = true → o.gen = oGen i.target → o.res = false ∨ u.holdsObj p i.target = true →
              exec e s = .next (u.push ⟨.inv, src, .service (fieldOf p), i.tenant, .toAgent i⟩)) ∧
            (o.v = true → o.gen = oGen i.target → o.res = true → u.holdsObj p i.target = false →
              ∃ r : State, exec e s = .next r ∧ Claims.channelCheck u p i r)))))

/-- R179, R232, R195: a message joins its channel's queue, of 8, where a waiting recv may take it, or the agent's list when the queue is full or
the agent holds some already; a raw message for a disabled channel is counted and dropped; BLK is set and cleared. -/
def Sys2Proof.Stated.ChannelQueues : Prop :=
  (∀ (s : State) (p ch tenant : Nat) (q : Queued),
    let x := s.plot p
    (8 ≤ x.qcnt ch ∨ (x.chan ch).ov = true → s.joinChannel p ch tenant q =
      (s.modPlot p fun x => x.modChan ch fun c => { c with ov := true }).push ⟨.inv, .plot (s.plotId p), .service (fieldOf p), tenant, .overflow p ch q⟩) ∧
    (x.qcnt ch < 8 → (x.chan ch).ov = false → (x.chan ch).recvs = [] →
      let t := s.joinChannel p ch tenant q
      (t.plot p).queue ch = x.queue ch ++ [(s.now, q.taken)] ∧ ∀ j, j ≠ ch → (t.plot p).queue j = x.queue j)) ∧
  (∀ (s t : State) (k p ch : Nat) (m : Packet) (ws : List Word) (sender : Word), Claims.Arrives s k m t → Claims.AtPlot s m p →
    m.body = .raw ws sender ch → Claims.Same t m p →
    exec (.rawMessageArrival k) s = .next (if ((t.plot p).chan ch).en then (Claims.woken t p).joinChannel p ch m.tenant (.raw ws sender)
      else (Claims.woken t p).countAt p 12)) ∧
  ∀ (s t : State) (k p c ch : Nat) (blk : Bool) (m : Packet), Claims.Arrives s k m t → Claims.AtPlot s m p → m.body = .chanBlock c ch blk →
    Claims.Same t m p → exec (.channelBlockRequest k) s = .next (t.setBlk p ch blk)

/-- R21, R179, R203, R207, R230: the memory-side agent appends what it is given, telling the forwarding record that it is accepted where it is
for an object or a channel, and sends one for a moved object on; it gives back the oldest of a channel with room, of a record that takes it, and
of an object that is resident again, to a channel in deterministic mode at the end of the quantum only. Another partition's is refused. -/
def Sys2Proof.Stated.AgentKeeps : Prop :=
  (∀ (s t : State) (k f p ch n : Nat) (m : Packet) (h : Word) (i : Inv) (ws : List Word) (sender : Word), Claims.Arrives s k m t → Claims.AtService m f →
    let list := (t.field f).agent
    let e := Instr.agentListAppend k
    let mine := fun (q : Nat) => Claims.Same t m (q % 2 ^ 20)
    (m.body = .recOverflow h i n → (mine (hPlot h) → exec e s = .next (Claims.withAgent t f (list ++ [.record h i n]))) ∧
      (¬ mine (hPlot h) → exec e s = .next (Claims.foreign t m.dst i))) ∧
    (m.body = .toAgent i → (¬ mine (hPlot i.target) → exec e s = .next (Claims.foreign t m.dst i)) ∧
      (mine (hPlot i.target) →
        ((t.field f).moved i.target = none → exec e s =
          .next ((t.notify m.dst i).modField f fun x => { x with agent := x.agent ++ [.object i.target { i with path := [] }] })) ∧
        ∀ new, (t.field f).moved i.target = some new → exec e s = .next (t.forward m.dst { i with target := new }))) ∧
    (m.body = .overflow p ch (.inv i) → (¬ mine p → exec e s = .next (Claims.foreign t m.dst i)) ∧
      (mine p → exec e s = .next ((t.notify m.dst i).modField f fun x => { x with agent := x.agent ++ [.chan p ch (.inv { i with path := [] })] }))) ∧
    (m.body = .overflow p ch (.raw ws sender) → (¬ mine p → exec e s = .next { t with mismatch := t.mismatch + 1 }) ∧
      (mine p → exec e s = .next (Claims.withAgent t f (list ++ [.chan p ch (.raw ws sender)]))))) ∧
  ∀ (s : State) (f k p ch n : Nat) (h : Word) (i : Inv) (q : Queued),
    let list := (s.field f).agent
    let t := Claims.withAgent s f (list.eraseIdx k)
    let e := Instr.agentReturn f k
    let r := hPlot h % 2 ^ 20
    let free := t.modPlot p fun x => x.modChan ch fun c => { c with ov := t.heldFor_ p ch }
    let mine := fun (q : Nat) => i.tenant = 0 ∨ i.tenant = (s.plot q).tenant
    (list[k]? = some (.chan p ch q) → (∀ a ∈ list.take k, ∀ r, a ≠ .chan p ch r) → (s.plot p).qcnt ch < 8 →
      ((s.plot p).det = true → exec e s = .next s) ∧
      ((s.plot p).det = false → (∀ ws x, q = .raw ws x → exec e s = .next (free.enqueue p ch q)) ∧
        (q = .inv i → (mine p → exec e s = .next (free.enqueue p ch q)) ∧ (¬ mine p → exec e s = .next (Claims.refused free p f i))))) ∧
    (list[k]? = some (.record h i n) → (∀ a ∈ list.take k, ∀ i n, a ≠ .record h i n) →
      (∀ x, (s.plot r).named h = some x → x.takesAtOnce i = true ∨ (s.plot r).stored < Config.turnoutStore) →
      (mine r → exec e s = .next ((t.recordEnter r h i n).afterQueue r (hSlot h))) ∧ (¬ mine r → exec e s = .next (Claims.refused t r f i))) ∧
    (list[k]? = some (.object h i) → (∀ a ∈ list.take k, ∀ i, a ≠ .object h i) →
      let o := (s.plot r).obj (oSlot h)
      (o.v = true → o.res = true → o.gen = oGen h → ((s.plot r).det = true → exec e s = .next s) ∧
        ((s.plot r).det = false → (mine r → ∃ u : State, exec e s = .next u ∧ Claims.channelCheck t r i u) ∧
          (¬ mine r → exec e s = .next (Claims.refused t r f i)))) ∧
      (o.res = false → exec e s = .next s))

/-- R21, R22, R217, R230, R322, R324: the directory sends an invocation for a moved object on to its new home, one hop further; a mapping is recorded in
place of an older one, at its field's service block or, from another package, by way of the gateway plot, and is acknowledged; another partition's
is refused by the object's plot. An invalidation drops the translations of the page, whatever pieces of it they are, or all of the
partition's, from the field's TLB and its plots', and is acknowledged.
That the object's list goes to the agent of the new home's field is read from R230 (DEDUCED, log entry 51), and that a service block counts
mismatches with its package's from R21 (DEDUCED, log entry 28). -/
def Sys2Proof.Stated.DirectoryAndTlb : Prop :=
  (∀ (s t : State) (k f : Nat) (m : Packet) (old new : Word) (w : Who), Claims.Arrives s k m t → m.body = .dirMap old new w →
    fieldOf (hPlot old % 2 ^ 20) = f → (m.dst = .service f ∨ ∃ id, m.dst = .plot id ∧ id / 2 ^ 20 = s.pkg) →
    (¬ Claims.Same t m (hPlot old % 2 ^ 20) → exec (.directoryMapUpdate k) s = .next { t with mismatch := t.mismatch + 1 }) ∧
    (Claims.Same t m (hPlot old % 2 ^ 20) → hPlot new / 2 ^ 20 = s.pkg → fieldOf (hPlot new) ≠ f →
      ∃ v, exec (.directoryMapUpdate k) s = .next v ∧ Claims.MapsHome t v m f old new w)) ∧
  ∀ (s t : State) (k f : Nat) (m : Packet), Claims.Arrives s k m t → Claims.AtService m f →
    (∀ i, m.body = .dirForward i →
      (¬ Claims.Same t m (hPlot i.target % 2 ^ 20) → exec (.directoryForward k) s = .next (Claims.foreign t m.dst i)) ∧
      (Claims.Same t m (hPlot i.target % 2 ^ 20) → exec (.directoryForward k) s = .next (match (t.field f).moved i.target with
        | some new => t.forward m.dst { i with target := new }
        | none => t.breakOwn m.dst i 0x19))) ∧
    ∀ va w g tenant, m.body = .tlbInv va w g tenant → ∃ u : State, exec (.tlbInvalidate k) s = .next (u.push ⟨.sys, m.dst, .plot w.plot, m.tenant, .sysAck w⟩) ∧
      let gone := fun (e : Tlb) => e.tenant = tenant ∧ ∀ a, va = some a → e.va / e.page = a / e.page
      (∀ e, e ∈ (u.field f).tlb ↔ e ∈ (t.field f).tlb ∧ ¬ gone e) ∧
      (∀ p e, fieldOf p = f → (e ∈ (u.plot p).utlb ↔ e ∈ (t.plot p).utlb ∧ ¬ gone e)) ∧
      (∀ p, fieldOf p ≠ f → u.plot p = t.plot p) ∧ u.mem = t.mem

/-! ## Events: promise records -/

/-- R205, R212, R213, R216: a settlement of a live record of one promise settles it and lets it answer; of a multicast's, every settlement by a member
that is no break counts one (DEDUCED, log entry 42) and the last gives the count of members, for one of 1 × 1 the value 1 (DEDUCED, log entry 80), a
break breaks the record, one deeper from a member. A settled or stale record only counts an error, and a settled one notes it. -/
def Sys2Proof.Stated.SettlementArrives : Prop :=
  ∀ (s t : State) (k p : Nat) (m : Packet) (h : Word) (st : PState) (member : Bool), Claims.Arrives s k m t → Claims.AtPlot s m p →
    m.body = .settle h st member → Claims.Same t m p →
    let e := Instr.settlementArrival k
    let u := t.noteRec p (hSlot h) (.settled st m.src)
    let to_ := fun (x : PState) => (u.modRec p (hSlot h) fun r => { r with st := x }).afterSettle p (hSlot h)
    ((t.plot p).named h = none → exec e s = .next (t.countAt p 12)) ∧
    ∀ r, (t.plot p).named h = some r →
      (r.settled = true → exec e s = .next ((t.countAt p 12).noteRec p (hSlot h) (.late st m.src))) ∧
      (r.settled = false → r.members = 0 → exec e s = .next (to_ st)) ∧
      (r.settled = false → r.members ≠ 0 →
        (∀ b, st = .broken b → exec e s = .next (to_ (.broken (if member then deeper b else b)))) ∧
        ((∀ b, st ≠ .broken b) →
          (1 < r.left → exec e s = .next (u.modRec p (hSlot h) fun r => { r with left := r.left - 1 })) ∧
          (r.left ≤ 1 → exec e s = .next ((u.modRec p (hSlot h) fun r => { r with left := 0, st := .value (.ofNat 64 r.members) }).afterSettle p (hSlot h)))))

/-- R216, R217, R220, R221, R227: what a record does with an invocation, by its state: one whose strict argument waited takes the value, or the
object; a value as a target breaks the invocation with NOT-A-REF; a chained record passes it to the next handle, a hop further and at most 255; a
broken one breaks it, one deeper. A record that collapsed while what it had sent on through the next handle was not accepted keeps passing to that
handle what arrives and every target invocation. Each is noted. The first of a settled record's queue is treated so, or the first of a chained one
that does not wait for a strict argument, and the record waits for its acceptance. -/
def Sys2Proof.Stated.RecordForwards : Prop :=
  ∀ (s : State) (p k : Nat) (e : QEnt),
    let r := (s.plot p).rec_ k
    let src := Endpoint.plot (s.plotId p)
    let h := mkHandle (s.plotId p) k r.gen
    let waits := fun (u : State) => u.modRec p k fun r => { r with out := r.out ++ [e.seq] }
    let broke := fun (b : Word) => s.noteRec p k (.broke e.seq e.inv.promise b)
    let w := fun (to_ : Word) => (waits s).noteRec p k (.forwarded e.seq e.inv.promise to_ e.inv.method)
    let step := fun (to_ : Word) => if 255 ≤ e.inv.hops then waits (broke (mkBreak e.inv.promise 0x12 0)) else w to_
    let i := { e.inv with path := (h, e.seq) :: e.inv.path }
    let on := fun (q : Word) => ((step q).modRec p k fun r => { r with through := r.through ++ [e.seq] }).forward src (match e.inv.strict with
      | some (n, _) => { i with args := i.args.set n q }
      | none => { i with target := q })
    (r.via ≠ 0 → (r.viaAt ≤ e.seq ∨ e.inv.strict = none) → s.treat p k e = on r.via) ∧
    (r.via = 0 ∨ (e.seq < r.viaAt ∧ e.inv.strict ≠ none) →
      (∀ v, r.st = .value v →
        (e.inv.strict = none → s.treat p k e = (broke (mkBreak h 0x20 1)).breakInv src e.inv (mkBreak h 0x20 1)) ∧
        ∀ n x, e.inv.strict = some (n, x) → s.treat p k e =
          (w e.inv.target).route src { i with args := i.args.set n v, smask := i.smask - i.smask / 2 ^ n % 2 * 2 ^ n }) ∧
      (∀ v, r.st = .oref v →
        (e.inv.strict = none → s.treat p k e = (step v).forward src { i with target := v }) ∧
        ∀ n x, e.inv.strict = some (n, x) → s.treat p k e =
          (w e.inv.target).route src { i with args := i.args.set n v, smask := i.smask - i.smask / 2 ^ n % 2 * 2 ^ n }) ∧
      (∀ q, r.st = .chained q → s.treat p k e = on q) ∧
      (∀ b, r.st = .broken b → s.treat p k e = (broke (deeper b)).breakInv src e.inv (deeper b))) ∧
    (r.settled = true → (r.queue.find? fun x => !(r.isChained && x.inv.strict.isSome)) = some e → exec (.recordQueueEntry p k) s =
      .next (((s.modRec p k fun x => { x with queue := x.queue.erase e }).treat p k e).afterQueue p k)) ∧
    (r.settled = false ∨ (∀ x ∈ r.queue, r.isChained = true ∧ x.inv.strict.isSome = true) → exec (.recordQueueEntry p k) s = .next s)

/-- R206, R218 to R220, R224 to R226, R402: an acceptance notice, which names the promise, goes back along its path and the record forgets the wait, and, once all that went
through the next handle is accepted, that handle; a registration or an await is noted at the record of its handle, where a chained record's
registration waits as an await does (DEDUCED, log entry 43), and one of a stale handle is answered with STALE-REF; a collapse gives a chained record
the result, a break one deeper; hstat is answered with the record's state; a record of an ended owner that nothing waits for becomes free, its
generation kept. -/
def Sys2Proof.Stated.RecordRequests : Prop :=
  (∀ (s t : State) (k p : Nat) (m : Packet), Claims.Arrives s k m t → Claims.AtPlot s m p → Claims.Same t m p →
    let forgets := fun (u : State) (h : Word) (n : Nat) => u.modRec p (hSlot h) fun r => { r with
      out := r.out.erase n, through := r.through.erase n, via := if (r.through.erase n).isEmpty then 0 else r.via }
    (∀ of_ h n, m.body = .accept [(h, n)] of_ → exec (.acceptanceNotice k) s = .next (match (t.plot p).named h with
      | none => t
      | some _ => (forgets (t.noteRec p (hSlot h) (.accepted n of_)) h n).askAll p (hSlot h))) ∧
    (∀ of_ h n h' n' rest, m.body = .accept ((h, n) :: (h', n') :: rest) of_ → (t.plot p).named h = none →
      exec (.acceptanceNotice k) s = .next (t.push ⟨.clo, m.dst, .plot (hPlot h'), m.tenant, .accept ((h', n') :: rest) of_⟩)) ∧
    (∀ of_ h n h' n' rest r, m.body = .accept ((h, n) :: (h', n') :: rest) of_ → (t.plot p).named h = some r →
      let u := if n ∈ r.out.erase n then t else t.push ⟨.clo, m.dst, .plot (hPlot h'), m.tenant, .accept ((h', n') :: rest) of_⟩
      exec (.acceptanceNotice k) s = .next ((forgets (u.noteRec p (hSlot h) (.accepted n of_)) h n).askAll p (hSlot h))) ∧
    (∀ h from_, m.body = .register h from_ →
      ((t.plot p).named h = none → exec (.chainRegistration k) s =
        .next (t.push ⟨.clo, m.dst, .plot (hPlot from_), m.tenant, .collapse from_ (.broken (mkBreak h 0x19 0))⟩)) ∧
      ∀ r, (t.plot p).named h = some r → exec (.chainRegistration k) s =
        .next (((t.noteRec p (hSlot h) (.registration from_)).modRec p (hSlot h) fun r => { r with asks := r.asks ++ [(r.seq, .record from_)] }).askStep p (hSlot h) (r.seq, .record from_))) ∧
    (∀ h st r q, m.body = .collapse h st → (t.plot p).named h = some r → r.st = .chained q →
      let st' := match st with
        | .broken b => .broken (deeper b)
        | x => x
      exec (.chainCollapse k) s = .next (((t.noteRec p (hSlot h) (.collapsed st')).modRec p (hSlot h) fun r => { r with
        st := st', via := if r.through.isEmpty then 0 else q, viaAt := r.seq }).afterSettle p (hSlot h))) ∧
    (∀ h w, m.body = .awaitReq h w →
      ((t.plot p).named h = none → exec (.awaitRequest k) s =
        .next (t.push ⟨.clo, m.dst, .plot w.plot, m.tenant, .rsp w (.words [mkBreak h 0x19 0, 1] 0)⟩)) ∧
      ∀ r, (t.plot p).named h = some r → exec (.awaitRequest k) s =
        .next (((t.noteRec p (hSlot h) (.await w)).modRec p (hSlot h) fun r => { r with asks := r.asks ++ [(r.seq, .task w)] }).askStep p (hSlot h) (r.seq, .task w))) ∧
    ∀ h w, m.body = .hstatReq h w →
      let u := if (t.plot p).named h = none then t else t.noteRec p (hSlot h) (.hstat w)
      exec (.hstatRequest k) s = .next (Claims.answers u m w (.words [t.hstatWord p h] 0))) ∧
  ∀ (s : State) (p k : Nat),
    let r := (s.plot p).rec_ k
    let h := mkHandle (s.plotId p) k r.gen
    (r.owner = .none ∨ (∃ res, r.owner = .gone res) ∨ (∃ id, r.owner = .task id ∧ (s.plot p).alive id = false)) → r.settled = true → (∀ q, r.st ≠ .chained q) → r.queue = [] →
      r.asks = [] → r.out = [] → r.away = [] → s.holdsRec p h = false → exec (.recordFree p k) s = .next (s.modRec p k fun x => { Record.reset with gen := x.gen })

/-- R219, R225: a request at a record of one promise that is settled, with nothing before it still to leave or to be accepted, is answered: a task
with the value and 0 or the break record and 1, a chained record with the result. -/
def Sys2Proof.Stated.RecordAnswers : Prop :=
  ∀ (s : State) (p k n : Nat) (w : Who) (from_ : Word),
    let r := (s.plot p).rec_ k
    let src := Endpoint.plot (s.plotId p)
    let tn := (s.plot p).tenant
    let cut := fun (a : Asker) => s.modRec p k fun r => { r with asks := r.asks.erase (n, a) }
    r.via = 0 → (∀ e ∈ r.queue, n ≤ e.seq) → (∀ q ∈ r.out, n ≤ q) → (∀ q ∈ r.away, n ≤ q.1) →
      (∀ v, r.st = .value v ∨ r.st = .oref v →
        s.askStep p k (n, .task w) = ((cut (.task w)).noteRec p k (.answered w r.st)).push ⟨.clo, src, .plot w.plot, tn, .rsp w (.words [v, 0] 0)⟩ ∧
        s.askStep p k (n, .record from_) = ((cut (.record from_)).noteRec p k (.told from_ r.st)).push ⟨.clo, src, .plot (hPlot from_), tn, .collapse from_ r.st⟩) ∧
      (∀ b, r.st = .broken b →
        s.askStep p k (n, .task w) = ((cut (.task w)).noteRec p k (.answered w r.st)).push ⟨.clo, src, .plot w.plot, tn, .rsp w (.words [b, 1] 0)⟩) ∧
      (r.st = .unresolved → s.askStep p k (n, .task w) = s ∧ s.askStep p k (n, .record from_) = s)

/-! ## Events: the scheduler -/

namespace Sys2Proof.Claims

open Sys2Proof Sys2Proof.Machine

/-- What a plot notices as cycles pass, noticed. -/
def noticed (s : State) (p : Nat) : State := s.modPlot p fun x => x.refresh s.now

/-- The other contexts of a plot, and the other plots, are as they were. -/
structure OthersSame (s t : State) (p c : Nat) : Prop where
  ctxs : ∀ j, j ≠ c → t.ctx p j = s.ctx p j
  plots : ∀ q, q ≠ p → t.plot q = s.plot q

/-- R189, R193, R199: an instruction that was held has retired, at the next address, or where a split of its leader meanwhile says. -/
structure Resumes (x y : Ctx) : Prop where
  hold : y.hold = none
  pc : y.pc = match x.furrow.resume with
    | some e => e.next
    | none => x.pc + .ofNat 64 (4 * x.words)
  pair : y.pair = none
  regs : y.regs = x.regs

/-- R183: a context starts a task from a channel's message. -/
structure Starts (u t : State) (p c : Nat) (b : Cand) (q : Queued) : Prop where
  live : (t.ctx p c).live = true ∧ (t.ctx p c).ended = false ∧ (t.ctx p c).halted = false ∧ (t.ctx p c).sup = false
  pc : (t.ctx p c).pc = .ofNat 64 (4 * ((u.plot p).chan b.num).epc)
  id : (t.ctx p c).csr.taskid = (u.plot p).sched.serial ∧ (t.plot p).sched.serial = (u.plot p).sched.serial + 1
  pri : (t.ctx p c).csr.taskpri = b.pri
  chan : (t.ctx p c).task.chan = b.num
  started : Sparse.get [] t.started p = Sparse.get [] u.started p ++ [⟨(u.plot p).sched.serial, b.num, (t.ctx p c).task.promise⟩]
  full : ∀ r, (t.ctx p c).regs.isEmpty r = false
  inv : ∀ i, q = .inv i → i.args.length ≤ 8 →
    (∀ (j : Nat) (v : Word), i.args[j]? = some v → (t.ctx p c).regs.gv (3 + j) = v) ∧
    (t.ctx p c).regs.gv 11 = (if i.mc then 0 else i.target) ∧ (t.ctx p c).regs.gv 12 = i.parent ∧
    ((t.ctx p c).regs.gv 13).toNat = i.sender.toNat % 2 ^ 36 ∧ (t.ctx p c).task.promise = i.promise ∧ (t.ctx p c).gates = i.caps ∧
    ∀ r, 14 ≤ r → (t.ctx p c).regs.gv r = 0
  raw : ∀ ws sender, q = .raw ws sender → ws.length ≤ 8 →
    (∀ (j : Nat) (v : Word), ws[j]? = some v → (t.ctx p c).regs.gv (3 + j) = v) ∧
    ((t.ctx p c).regs.gv 13).toNat = sender.toNat % 2 ^ 36 ∧ (t.ctx p c).task.promise = 0 ∧ (t.ctx p c).gates = [] ∧
    ∀ r, 14 ≤ r → (t.ctx p c).regs.gv r = 0

end Sys2Proof.Claims

/-- R178, R180, R181, R215, R191: the ready message that waits first starts in a free context: the PC is the channel's, the arguments stand in g3 on,
target, parent and sender in g11 to g13, every register is full, the message has left its queue, and the debug port's list of started tasks has
it (R402). The context of an ended task frees once nothing holds it. -/
def Sys2Proof.Stated.TasksStart : Prop :=
  (∀ (s : State) (p c at_ : Nat) (b : Cand) (q : Queued) (rest : List (Nat × Queued)),
    let u := Claims.noticed s p
    (u.plot p).best = some b → (u.plot p).freeCtx = some c → b.kind = 0 → ((u.plot p).queue b.num).drop b.idx = (at_, q) :: rest →
    ∃ t, exec (.taskStart p) s = .next t ∧ Claims.Starts u t p c b q ∧ Claims.OthersSame u t p c ∧ t.mem = s.mem ∧
      (t.plot p).queue b.num = ((u.plot p).queue b.num).eraseIdx b.idx) ∧
  ∀ (s : State) (p c : Nat), let x := s.ctx p c
    (x.live = true → x.ended = true → x.multi = [] → x.hold = none → x.furrow.leader = none →
      exec (.contextFree p c) s = .next (s.freeCtx p c) ∧ (s.freeCtx p c).ctx p c = Ctx.empty) ∧
    (x.live = false ∨ x.ended = false ∨ x.multi ≠ [] ∨ x.hold.isSome = true → exec (.contextFree p c) s = .next s)

/-- R184 to R188: with a ready task waiting and no free context, a spill of the chosen context begins, or SPILL-FULL is due when the cistern is full,
unless it is already or the last that was raised named the same number;
its image keeps the whole task and takes 1,536 bytes of HBM at its slot but for active headgate records, and a restored image has it again, never
while a spill is under way. A pair whose instruction holds its context has issued and is no hindrance. The bytes of an image are free, and its slot is the lowest-numbered free one (DEDUCED, log entry 25). -/
def Sys2Proof.Stated.SpillAndRestore : Prop :=
  (∀ (s : State) (p c : Nat) (b : Cand),
    let u := Claims.noticed s p
    let x := u.plot p
    x.freeCtx = none → x.sched.spilling = none → x.best = some b → x.victim (if x.floorTask.isSome then none else some b.pri) = some c →
      (x.sched.images.length < x.slots → (x.ctx c).furrow.leader = none →
        ∃ t, exec (.spill p) s = .next t ∧ (t.plot p).sched.spilling = some c ∧ (t.plot p).sched.images = x.sched.images) ∧
      (x.slots ≤ x.sched.images.length → x.sched.lastSpillFull ≠ some x.sched.images.length →
        (∀ j, j < 4 → (x.ctx j).due.spillFull = none) →
        ∃ t, exec (.spill p) s = .next t ∧ (t.ctx p c).due.spillFull = some (.ofNat 64 x.sched.images.length) ∧
          (t.plot p).sched.spilling = none ∧ Claims.OthersSame u t p c) ∧
      (x.slots ≤ x.sched.images.length →
        x.sched.lastSpillFull = some x.sched.images.length ∨ (∃ j, j < 4 ∧ (x.ctx j).due.spillFull ≠ none) → exec (.spill p) s = .next u)) ∧
  (∀ (s : State) (p c : Nat),
    let y := s.ctx p c
    (s.plot p).sched.spilling = some c → y.live = true → y.ended = false →
      (y.multi = [] → (y.pair = none ∨ y.hold.isSome = true) → (s.plot p).engine.running ≠ some c → ∃ (t : State) (z : Ctx) (r : Option Nat), exec (.spillComplete p) s = .next t ∧ t.ctx p c = Ctx.empty ∧
        (t.plot p).sched.images = (s.plot p).sched.images ++ [(z, r)] ∧ z = { y with furrow := z.furrow } ∧
        (t.plot p).sched.spilling = none ∧ Claims.OthersSame s t p c ∧
        ∀ a, a < (s.plot p).slotAt (s.plot p).sched.freeSlot ∨ (s.plot p).slotAt (s.plot p).sched.freeSlot + 1536 ≤ a ∨ s.gated a = true →
          Sparse.get 0 t.mem.hbm a = Sparse.get 0 s.mem.hbm a) ∧
      (y.multi ≠ [] ∨ (y.pair.isSome = true ∧ y.hold = none) ∨ (s.plot p).engine.running = some c → exec (.spillComplete p) s = .next s)) ∧
  ∀ (s : State) (p c : Nat) (b : Cand) (y : Ctx) (r : Option Nat),
    let u := Claims.noticed s p
    (u.plot p).best = some b → (u.plot p).freeCtx = some c → b.kind = 1 → (u.plot p).sched.images.find? (fun i => i.1.csr.taskid == b.num) = some (y, r) →
      ((u.plot p).sched.spilling.isSome = true → exec (.restore p) s = .next u) ∧
      ((u.plot p).sched.spilling = none → ∃ t, exec (.restore p) s = .next t ∧ Claims.OthersSame u t p c ∧
        t.ctx p c = { y with readySince := b.ready, issued := false, furrow := { y.furrow with stall := none }, quantum := (t.ctx p c).quantum } ∧
        (t.plot p).sched.images = (u.plot p).sched.images.filter fun i => i.1.csr.taskid != b.num)

/-- R189, R193, R314: every 65,536 cc, outside deterministic mode, the ready task that has waited longest is granted 256 instructions, a waiting
one when it has its context; a sleep ends at its cycle. -/
def Sys2Proof.Stated.FloorAndSleep : Prop :=
  (∀ (s : State) (p : Nat) (b : Cand),
    let u := Claims.noticed s p
    let x := u.plot p
    let ctxs := (List.range 4).filterMap fun c =>
      if (x.ctx c).live && !(x.ctx c).issued && x.canIssue (x.ctx c) then some (⟨(x.ctx c).csr.taskpri, (x.ctx c).readySince, 2, c, 0⟩ : Cand) else none
    (s.now % 65536 ≠ 0 → exec (.floorTick p) s = .next u) ∧
    (s.now % 65536 = 0 → x.det = false → x.floorTask = none → firstBy Cand.age (x.messages ++ x.spilled ++ ctxs) = some b →
      (b.kind = 2 → exec (.floorTick p) s = .next (u.modCtx p b.num fun y => { y with quantum := some 256 })) ∧
      (b.kind < 2 → exec (.floorTick p) s =
        .next ((u.modPlot p fun x => { x with sched := { x.sched with floorWaiter := some (2 * b.num + b.kind) } }).considerSpill p)))) ∧
  ∀ (s : State) (p k wake id since : Nat) (ds : List (Nat × Bool)) (v : Word) (n : Nat) (ws : List (Nat × Word)),
    k < 4 → (s.ctx p k).hold = some ⟨.sleep wake, id, since, ds, v, n, ws⟩ →
    (s.now < wake → exec (.sleepWake p k) s = .next s) ∧
    (wake ≤ s.now → n ≠ 1 → ∃ t, exec (.sleepWake p k) s = .next t ∧ Claims.Resumes (s.ctx p k) (t.ctx p k) ∧ Claims.OthersSame s t p k) ∧
    (wake ≤ s.now → n = 1 → ∃ t, exec (.sleepWake p k) s = .next t ∧ (t.ctx p k).hold = none ∧ (t.ctx p k).pc = (s.ctx p k).pc ∧ Claims.OthersSame s t p k)

/-- R197, R199: a join gives the leading context of the leader's plot its follower, whose follow retires, and is refused where none leads; a leader's
stall beyond 65,536 cc splits its follower. -/
def Sys2Proof.Stated.FurrowEvents : Prop :=
  (∀ (s t : State) (k q lc c : Nat) (m : Packet) (w : Who) (n off : Nat) (v : Word), Claims.Arrives s k m t → Claims.AtPlot s m q → m.body = .join w n off v →
    let p := w.plot % 2 ^ 20
    Claims.Same t m q → p ≠ q →
      ((∀ j, j < 4 → ¬ ((t.ctx q j).live = true ∧ (t.ctx q j).ended = false ∧ (t.ctx q j).furrow.lead = true)) →
        exec (.followJoin k) s = .next (Claims.answers t m w .reject)) ∧
      (lc < 4 → (t.ctx q lc).live = true → (t.ctx q lc).ended = false → (t.ctx q lc).furrow.lead = true →
        (∀ j, j < lc → ¬ ((t.ctx q j).live = true ∧ (t.ctx q j).ended = false ∧ (t.ctx q j).furrow.lead = true)) → (t.plot p).find w.task = some (.ctx c) →
        ∃ u : State, exec (.followJoin k) s = .next u ∧ (u.ctx q lc).furrow.followers = (t.ctx q lc).furrow.followers ++ [(p, c)] ∧
          (u.ctx p c).furrow.leader = some (q, (t.ctx q lc).csr.taskid) ∧ (u.ctx p c).furrow.queue = [] ∧ Claims.Resumes (t.ctx p c) (u.ctx p c))) ∧
  ∀ (s : State) (p c lp task since : Nat) (pl : Place), (s.ctx p c).furrow.leader = some (lp, task) →
    let u := Claims.noticed s lp
    (u.plot lp).find task = some pl → ((u.plot lp).at_ pl).furrow.stall = some since →
      exec (.furrowTimeoutSplit p c) s = .next (if 65536 < s.now - since then u.splitFollower p c 6 else u)

/-- R201 to R203: a plot in deterministic mode ends its quantum when it is over; when every plot of the partition has, and no request of the
quantum is still on its way, the other packages of the partition are told; once they have told the same, the next begins, with no instruction
counted; here nothing was deferred. How packages tell each other is DEDUCED (log entry 16). -/
def Sys2Proof.Stated.QuantumEnds : Prop :=
  (∀ (s : State) (p : Nat), let x := s.plot p
    (x.det = true → x.sched.ended = false → x.quantumOver = true → ∃ t, exec (.quantumEnd p) s = .next t ∧ (t.plot p).sched.ended = true ∧
      (∀ q ∈ t.host.parts, q.tenant = x.tenant → p ∈ q.endedPlots) ∧ ∀ c, t.ctx p c = s.ctx p c) ∧
    (x.det = false ∨ x.sched.ended = true ∨ x.quantumOver = false → exec (.quantumEnd p) s = .next s)) ∧
  ∀ (s : State) (x : Nat) (q : Part), s.host.parts[x]? = some q →
    ((∃ p ∈ q.plots, p ∉ q.endedPlots) → exec (.quantumApply x) s = .next s) ∧
    ((∃ m ∈ s.net, m.tenant = q.tenant ∧ ((∃ i, m.body = .inv i) ∨ (∃ w g n v, m.body = .pool w g (.take n) v) ∨
      ∃ r, m.body = .gate r ∧ ∃ e, r.op = .acq e)) → exec (.quantumApply x) s = .next s) ∧
    (bitw q.detctl 0 = true → (∀ p ∈ q.plots, p ∈ q.endedPlots) → (∀ d ∈ s.deferred, d.packet.tenant ≠ q.tenant) → s.gateQ = [] → (∀ m ∈ s.net, m.cls = .inv ∧ m.body = .quantumEnd) →
      (∀ f, (s.weir f).takes = [] ∧ (s.field f).agent = []) → (∀ p ∈ q.plots, (s.plot p).outbox = []) →
      let told := fun (g : Nat) => g = s.pkg ∨ ∃ m ∈ s.net, m.tenant = q.tenant ∧ m.src = .peer g ∧ m.body = .quantumEnd
      ((∀ g ∈ q.packages, told g) → ∃ t, exec (.quantumApply x) s = .next t ∧
        (∀ r, t.host.parts[x]? = some r → r = { q with endedPlots := [], told := false, quantum := q.quantum + 1 }) ∧
        ∀ p ∈ q.plots, (t.plot p).sched.ended = false ∧ (t.plot p).sched.retired = 0 ∧ ∀ c, t.ctx p c = s.ctx p c) ∧
      ((∃ g ∈ q.packages, ¬ told g) → (q.told = true → exec (.quantumApply x) s = .next s) ∧
        (q.told = false → ∃ t, exec (.quantumApply x) s = .next t ∧ t.plots = s.plots ∧ t.deferred = s.deferred ∧
          ∀ r, t.host.parts[x]? = some r → r = { q with told := true })))

/-! ## Events: headgate units and barriers -/

namespace Sys2Proof.Claims

open Sys2Proof Sys2Proof.Machine

/-- A record of a headgate unit has new contents, marks itself, and nothing else changes but the unit's queue. -/
structure Gate (s t : State) (a : Nat) (r : GateRec) (queue : List GateReq) : Prop where
  record : t.gateRec a = r
  mark : Sparse.get false t.mem.gate (a / 64) = r.active
  queue : t.gateQ = queue
  plots : t.plots = s.plots ∧ t.net = s.net ∧ t.resend = s.resend ∧ t.fields = s.fields
  bytes : ∀ x, x < a ∨ a + 48 ≤ x → Sparse.get 0 t.mem.hbm x = Sparse.get 0 s.mem.hbm x

/-- R17: the answer of a unit to a request, in the class of responses. -/
def unitSays (s : State) (m : Packet) (w : Who) (r : Rsp) : State := s.push ⟨.rsp, m.dst, .plot w.plot, m.tenant, .gateAns w r⟩

/-- R21: a request to a unit comes from the partition that owns the record's memory. -/
def OwnRecord (t : State) (m : Packet) (q : GateReq) : Prop := m.tenant = 0 ∨ t.owns m.tenant q.target = true

/-- R240: a record names a task as its exclusive holder, or as the target of a handover. -/
def Names (r : GateRec) (w : Who) : Prop := (r.mode = 2 ∧ r.xholder = holderWord w) ∨ (r.hpend ≠ 0 ∧ r.hpend = holderWord w)

end Sys2Proof.Claims

/-- R21, R235, R236, R239, R240, R254: an acquire at its unit. A record that breaks its form answers CAPABILITY. A free record grants it at once, a shared
one is granted beside shared holders, an acq.x of the task that the record names as its holder or as a handover's target is granted at once, and
one that has to wait is queued and counted. In deterministic mode it waits for the quantum's end. Another partition's is refused and counted. -/
def Sys2Proof.Stated.AcquireAtUnit : Prop :=
  ∀ (s t : State) (k : Nat) (m : Packet) (q : GateReq) (excl : Bool), Claims.Arrives s k m t → m.body = .gate q → q.op = .acq excl →
    let e := Instr.headgateRequest k
    let r := t.gateRec q.target
    (¬ Claims.OwnRecord t m q → exec e s = .next (Claims.answers { t with mismatch := t.mismatch + 1 } m q.who .reject)) ∧
    (Claims.OwnRecord t m q → t.detOf q.tenant = true → exec e s = .next { t with deferred := t.deferred ++ [⟨q.who.plot, q.who.id, m⟩] }) ∧
    (Claims.OwnRecord t m q → t.detOf q.tenant = false →
      (r.bad = false → excl = true → Claims.Names r q.who → ∃ u : State, exec e s = .next (u.sendGrant q) ∧
        Claims.Gate t u q.target { r with grants := (r.grants + 1) % 2 ^ 32 } t.gateQ) ∧
      (r.bad = true → exec e s = .next (Claims.unitSays t m q.who (.trap .capability q.va))) ∧
      (r.bad = false → (t.gateQ.filter fun g => stackOf g.target == stackOf q.target).length < Config.gateParks → (∀ g ∈ t.gateQ, g.target ≠ q.target) →
        r.waitq = 0 →
        (r.mode = 0 → r.hpend = 0 → excl = true → ∃ u : State, exec e s = .next (u.sendGrant q) ∧
          Claims.Gate t u q.target { r with mode := 2, xholder := holderWord q.who, grants := (r.grants + 1) % 2 ^ 32 } t.gateQ) ∧
        (r.mode < 2 → r.nsh + 1 < 2 ^ 16 → excl = false → ∃ u : State, exec e s = .next (u.sendGrant q) ∧
          Claims.Gate t u q.target { r with mode := 1, nsh := r.nsh + 1, grants := (r.grants + 1) % 2 ^ 32 } t.gateQ) ∧
        (r.mode = 2 → r.xholder ≠ holderWord q.who → (excl = false ∨ r.hpend = 0) → ∃ u : State, exec e s = .next u ∧
          Claims.Gate t u q.target { r with waitq := 1 } (t.gateQ ++ [q])) ∧
        (r.mode = 1 → r.hpend = 0 → excl = true → ∃ u : State, exec e s = .next u ∧ Claims.Gate t u q.target { r with waitq := 1 } (t.gateQ ++ [q]))))

/-- R21, R240 to R245: a release gives up one shared grant or the exclusive one, with nothing waiting; a handover names its target and asks its plot,
and an acq.x of the target that waits is granted then; its answer makes the target the holder or releases the record and counts; a binding is
checked against the package's and told to the sixteen service blocks, each of which applies it and acknowledges. Another partition's release is
refused and counted. That a release or a handover by the target of a handover under way waits for that one's answer is DEDUCED (log entry 87). An answer or a
change that does not carry the partition of the record's memory does nothing and is counted. -/
def Sys2Proof.Stated.ReleaseAndHandover : Prop :=
  (∀ (s t : State) (k : Nat) (m : Packet) (q : GateReq), Claims.Arrives s k m t → m.body = .gate q →
    let r := t.gateRec q.target
    (q.op = .rel → ¬ Claims.OwnRecord t m q →
      exec (.headgateRelease k) s = .next (Claims.answers { t with mismatch := t.mismatch + 1 } m q.who .reject)) ∧
    (Claims.OwnRecord t m q →
    (q.op = .rel → r.bad = false → r.hpend = 0 → (∀ g ∈ t.gateQ, g.target ≠ q.target) →
      (r.mode = 1 → ∃ u : State, exec (.headgateRelease k) s = .next (Claims.unitSays u m q.who (.words [] 0)) ∧
        Claims.Gate t u q.target { r with mode := (if r.nsh ≤ 1 then 0 else 1), nsh := r.nsh - 1 } t.gateQ) ∧
      (r.mode = 2 → ∃ u : State, exec (.headgateRelease k) s = .next (Claims.unitSays u m q.who (.words [] 0)) ∧
        Claims.Gate t u q.target { r with mode := 0, xholder := 0 } t.gateQ)) ∧
    (q.op = .rel → r.bad = false → r.hpend ≠ 0 → exec (.headgateRelease k) s = .next s) ∧
    (∀ w, q.op = .handover w → r.hpend ≠ 0 → exec (.headgateRequest k) s = .next s) ∧
    (∀ w, q.op = .handover w → r.bad = false → r.hpend = 0 → t.detOf q.tenant = false → plotOk (w.toNat % 2 ^ 36) = true →
      w.toNat % 2 ^ 36 / 2 ^ 20 = s.pkg →
      let asks := fun (u : State) => (Claims.unitSays u m q.who (.words [] 0)).push ⟨.sys, m.dst, .plot (w.toNat % 2 ^ 36), q.tenant,
        .handGrant q.va q.target (w.toNat % 2 ^ 36) (w.toNat / 2 ^ 36)⟩
      ((∀ g ∈ t.gateQ, g.target ≠ q.target) → ∃ u : State, exec (.headgateRequest k) s = .next (asks u) ∧
        Claims.Gate t u q.target { r with hpend := w } t.gateQ) ∧
      ∀ before g after, t.gateQ = before ++ g :: after → (∀ e ∈ before ++ after, e.target ≠ q.target) → g.target = q.target → g.op = .acq true →
        w ≠ 0 → holderWord g.who = w → 0 < r.waitq → ∃ u : State, exec (.headgateRequest k) s = .next ((asks u).sendGrant g) ∧
          Claims.Gate t u q.target { r with hpend := w, grants := (r.grants + 1) % 2 ^ 32, waitq := r.waitq - 1 } (before ++ after)) ∧
    (∀ w, q.op = .bind w → w ≠ 0 → r.bad = false → r.bnd = false →
      let new : Region := ⟨q.tenant, q.target, w.toNat / 2 ^ 16 % 2 ^ 40 * 2 ^ 16, (w.toNat % 2 ^ 16 + 1) * 2 ^ 16⟩
      (∀ g ∈ t.bound, g.meets new = true → g.target = q.target) → t.bound.length < Config.regionTable →
      ∃ u : State, exec (.headgateRequest k) s = .next ((List.range 16).foldl (fun s f =>
        s.push ⟨.sys, m.dst, .service f, m.tenant, .bindChange new true f q.who⟩) u) ∧
        Claims.Gate t u q.target { r with bnd := true, base := w.toNat / 2 ^ 16 % 2 ^ 40, len := w.toNat % 2 ^ 16 } t.gateQ))) ∧
  (∀ (s t : State) (k a plot task : Nat) (m : Packet) (ok : Bool), Claims.Arrives s k m t → m.body = .handAns a ok plot task →
    (m.tenant = 0 ∨ t.owns m.tenant a = true → exec (.headgateRelease k) s = .next (t.handAnswer a m.tenant ok)) ∧
    (m.tenant ≠ 0 → t.owns m.tenant a = false → exec (.headgateRelease k) s = .next { t with mismatch := t.mismatch + 1 })) ∧
  (∀ (s : State) (a tenant : Nat), let r := s.gateRec a
    r.bad = false → (∀ g ∈ s.gateQ, g.target ≠ a) →
      Claims.Gate s (s.handAnswer a tenant true) a { r with xholder := r.hpend, hpend := 0 } s.gateQ) ∧
  ∀ (s t : State) (k f : Nat) (m : Packet) (g : Region) (add : Bool) (n : Nat) (w : Who), Claims.Arrives s k m t → m.dst = .service f →
    m.body = .bindChange g add n w →
    (m.tenant ≠ 0 → t.owns m.tenant g.target = false → exec (.hgbindChange k) s = .next { t with mismatch := t.mismatch + 1 }) ∧
    (m.tenant = 0 ∨ t.owns m.tenant g.target = true → ∃ u : State, exec (.hgbindChange k) s = .next (u.push ⟨.sys, m.dst, .plot w.plot, m.tenant, .bindAck w⟩) ∧ u.mem = t.mem ∧
      (u.field f).regions = ((t.field f).regions.filter fun x => x.target != g.target) ++ (if add then [g] else []) ∧
      (∀ e, e ∈ (u.field f).tlb ↔ e ∈ (t.field f).tlb ∧ ¬ (e.tenant = g.tenant ∧ e.va < g.base + g.bytes ∧ g.base < e.va + e.bytes)) ∧
      (∀ p, fieldOf p ≠ f → u.plot p = t.plot p))

/-- R240, R242: a grant enters the table of the task that waits for it, whose acquire retires; a task that is gone releases it. A handover's grant
enters the table of its task if it has room, with the answer to the unit; a plot of another partition discards and counts it (R21). -/
def Sys2Proof.Stated.GrantsArrive : Prop :=
  (∀ (s t : State) (k p c : Nat) (m : Packet) (w : Who) (a va e : Word) (n : Nat) (h : Hold), Claims.Arrives s k m t → Claims.AtPlot s m p →
    m.body = .gateAns w (.words [a, va, e] n) → Claims.Same t m p → w.plot % 2 ^ 20 = p →
    ((t.plot p).find w.task = some (.ctx c) → (t.ctx p c).hold = some h → h.id = w.id → (∀ g ∈ (t.ctx p c).gates, g.names a.toNat = false) →
      ∃ u : State, exec (.headgateGrant k) s = .next u ∧ (u.ctx p c).gates = (t.ctx p c).gates ++ [⟨va, a.toNat, bitw e 0, none⟩] ∧
        Claims.Resumes (t.ctx p c) (u.ctx p c) ∧ Claims.OthersSame t u p c) ∧
    ((t.plot p).find w.task = none → exec (.headgateGrant k) s = .next (t.push ⟨.req, .plot w.plot, .base (stackOf a.toNat), m.tenant,
      .gate ⟨⟨w.plot, 0, 0⟩, 0, va, a.toNat, .rel, m.tenant⟩⟩))) ∧
  (∀ (s t : State) (k a plot task : Nat) (m : Packet) (va : Word), Claims.Arrives s k m t → m.body = .handGrant va a plot task →
    m.tenant ≠ 0 → m.tenant ≠ (t.plot (plot % 2 ^ 20)).tenant → exec (.handoverGrant k) s = .next (t.mismatchAt (plot % 2 ^ 20))) ∧
  ∀ (s t : State) (k a plot task c : Nat) (m : Packet) (va : Word), Claims.Arrives s k m t → m.body = .handGrant va a plot task →
    let p := plot % 2 ^ 20
    let x := t.plot p
    Claims.Same t m p → c < 4 → (∀ j, j < 4 → (x.ctx j).live = true → (x.ctx j).ended = false → ((x.ctx j).csr.taskid % 2 ^ 28 = task ↔ j = c)) →
      (x.ctx c).live = true → (x.ctx c).ended = false → (x.ctx c).hold = none → (x.ctx c).gates.length < 4 →
      (∀ j, j < c → (x.ctx j).live = true → (x.ctx j).csr.taskid ≠ (x.ctx c).csr.taskid) →
      ∃ u : State, exec (.handoverGrant k) s = .next (u.push ⟨.sys, .plot plot, .base (stackOf a), m.tenant, .handAns a true plot task⟩) ∧
        (u.ctx p c).gates = ⟨va, a, true, none⟩ :: (x.ctx c).gates.filter (fun g => !g.names a) ∧ Claims.OthersSame t u p c

/-- R21, R252, R253: an arrival counts at the barrier of its rectangle, made with the rectangle's generation if there was none; the last one lets every
waiter go with the generation, which moves on. An arrival at a rectangle that holds a plot of another partition is refused, and counted with the
package's (DEDUCED, log entry 28). -/
def Sys2Proof.Stated.BarrierEvents : Prop :=
  (∀ (s t : State) (k f : Nat) (m : Packet) (w : Who) (rect : Word), Claims.Arrives s k m t → m.dst = .service f → m.body = .barArrive w rect →
    let x := t.field f
    let mine := ∀ p ∈ rectPlots rect, (t.plot (p % 2 ^ 20)).takes m.tenant = true
    (¬ mine → exec (.barrierArrival k) s = .next (Claims.answers { t with mismatch := t.mismatch + 1 } m w .reject)) ∧
    (mine → (∀ b ∈ x.barriers, b.rect ≠ rect) → exec (.barrierArrival k) s =
      .next (t.modField f fun y => { y with barriers := x.barriers ++ [⟨rect, 1, ((x.gens.find? fun g => g.1 == rect).map (·.2)).getD 0, [w]⟩] })) ∧
    (mine → (∃ b ∈ x.barriers, b.rect = rect) → exec (.barrierArrival k) s =
      .next (t.modField f fun y => { y with barriers := x.barriers.map fun b =>
        if b.rect = rect then { b with count := b.count + 1, waiters := b.waiters ++ [w] } else b }))) ∧
  ∀ (s : State) (f k : Nat) (b : Barrier), k < 16 → (s.field f).barriers[k]? = some b →
    (b.count < Claims.area b.rect → exec (.barrierRelease f k) s = .next s) ∧
    (Claims.area b.rect ≤ b.count → ∃ u : State, exec (.barrierRelease f k) s = .next (b.waiters.foldl (fun s w =>
        s.push ⟨.rsp, .service f, .plot w.plot, (s.plot (w.plot % 2 ^ 20)).tenant, .rsp w (.words [.ofNat 64 b.gen] 0)⟩) u) ∧
      (u.field f).barriers = (s.field f).barriers.eraseIdx k ∧ ((u.field f).gens.find? fun g => g.1 == b.rect) = some (b.rect, (b.gen + 1) % 256) ∧
      u.plots = s.plots)

/-! ## Events: the weirs -/

namespace Sys2Proof.Claims

open Sys2Proof Sys2Proof.Machine

/-- R256, R261: a request at the weir of a pool that is enabled for its partition. -/
structure AtPool (s t : State) (k f q : Nat) (m : Packet) : Prop where
  comes : Arrives s k m t
  dst : m.dst = .service f
  cfg : ((t.weir f).cfg q).en = true ∧ ((t.weir f).cfg q).owner = m.tenant
  det : t.detOf m.tenant = false

/-- R258: the first element of a list in the order ≺. -/
def Least (es : List Elem) (e : Elem) : Prop := e ∈ es ∧ ∀ x ∈ es, x ≠ e → lexLt [e.key, e.time, e.field, e.seq] [x.key, x.time, x.field, x.seq] = true

/-- R21: what one weir tells another of a pool is of the pool's partition, or the pool is disabled. -/
def Ours (t : State) (f q : Nat) (m : Packet) : Prop := ((t.weir f).cfg q).en = false ∨ ((t.weir f).cfg q).owner = m.tenant

/-- R273: no overdue element is known to a weir. -/
def NoneOverdue (x : Weir) (q : Nat) : Prop :=
  (∀ e ∈ (x.shard q).elems, e.ovd = false) ∧ ∀ m ∈ (x.shard q).round, m.oldest = none

end Sys2Proof.Claims

/-- R21, R261, R264, R265, R275: a pool that is disabled answers ST 3, and one of another partition raises the instruction's fault; peek answers the
first known element in ≺ or ST 1, pstat the state word. In deterministic mode a put and a take wait for the end of the quantum first. -/
def Sys2Proof.Stated.PoolRequestsChecked : Prop :=
  ∀ (s t : State) (k f q : Nat) (m : Packet) (w : Who) (v : Word) (key : Nat) (val : Word) (n : Bool), Claims.Arrives s k m t → m.dst = .service f →
    let c := (t.weir f).cfg q
    let x := (t.weir f).shard q
    let foreign : State := { t with mismatch := t.mismatch + 1 }
    (∀ r ∈ [(Instr.weirPut k, PoolOp.put key val, Cause.storeFault, [stWord 3]), (.weirTake k, .take n, .loadFault, [0, stWord 3]),
        (.weirPeek k, .peek, .loadFault, [stWord 3])], m.body = .pool w q r.2.1 v →
      (t.detOf m.tenant = true → r.2.1 ≠ .peek → exec r.1 s = .next { t with deferred := t.deferred ++ [⟨w.plot, w.id, m⟩] }) ∧
      (t.detOf m.tenant = false ∨ r.2.1 = .peek →
        (c.en = true → c.owner ≠ m.tenant → exec r.1 s = .next (Claims.answers foreign m w (.trap r.2.2.1 v))) ∧
        (c.en = false → exec r.1 s = .next (Claims.answers t m w (.words r.2.2.2 0))))) ∧
    (m.body = .pool w q .peek v → c.en = true → c.owner = m.tenant →
      (x.known = [] → exec (.weirPeek k) s = .next (Claims.answers t m w (.words [stWord 1] 0))) ∧
      ∀ e g, (e, g) ∈ x.known.map (fun y => (y.1, y.2.2)) → Claims.Least (x.known.map (·.1)) e → (∀ y ∈ x.known, y.1 = e → y.2.2 = g) →
        exec (.weirPeek k) s = .next (Claims.answers t m w (.words [elemWord e g false false] 0))) ∧
    (m.body = .pool w q .stat v →
      (c.en = true → c.owner ≠ m.tenant → exec (.weirStat k) s = .next (Claims.answers foreign m w (.trap .loadFault v))) ∧
      (c.en = false ∨ c.owner = m.tenant → exec (.weirStat k) s = .next (Claims.answers t m w (.words [(t.weir f).stat f q] 0))))

/-- R257, R258, R262, R268: a put at a weir with room makes an element with the weir's next sequence number and the time. One that does not precede
Tround is stored and answered at once, one that does is announced to the other fifteen weirs, and stored at the last acknowledgement. Without
room the put goes to the others, in the order of their free places, and is answered ST 2 when none is left. When the count of redirected puts falls
is DEDUCED (log entry 49); that Tround is taken under the greater of the round's PPBOUND and the configured one is DEDUCED (log entry 92); that
every put is announced while a summary of its weir that cannot hold it is under way is DEDUCED from R270 (log entry 93). -/
def Sys2Proof.Stated.PoolPuts : Prop :=
  (∀ (s t : State) (k f q key : Nat) (val v : Word) (m : Packet) (w : Who), Claims.AtPool s t k f q m → m.body = .pool w q (.put key val) v →
    let x := t.weir f
    let e : Elem := ⟨key, val, t.poolTime m.tenant, f, x.seq, false, false, (x.cfg q).inc⟩
    let round := threshold (max (x.bound q) (x.cfg q).bound) (x.shard q).padded
    let counting := ∃ r ∈ (x.shard q).incoming, r.field = f
    (0 < x.free → ¬ counting → (∃ y, round = some y ∧ lexLt [key, e.time, f, e.seq] [y.key, y.time, y.field, y.seq] = false) → x.takes = [] →
      ∃ u : State, exec (.weirPut k) s = .next (u.push ⟨.rsp, .service f, .plot w.plot, m.tenant, .rsp w (.words [elemWord e f false false] 0)⟩) ∧
        ((u.weir f).shard q).elems = (x.shard q).elems ++ [e] ∧ (u.weir f).seq = x.seq + 1 ∧ ((u.weir f).shard q).puts = (x.shard q).puts + 1) ∧
    (0 < x.free → counting ∨ (∀ y, round = some y → lexLt [key, e.time, f, e.seq] [y.key, y.time, y.field, y.seq] = true) →
      ∃ u : State, exec (.weirPut k) s = .next (((List.range 16).filter (· != f)).foldl (fun s g =>
          s.push ⟨.sys, .service f, .service g, m.tenant, .weir (.announce q e f x.seq)⟩) u) ∧
        (u.weir f).pending = x.pending ++ [⟨x.seq, q, some w, e, f, 15⟩] ∧ ((u.weir f).shard q).elems = (x.shard q).elems ∧
        ((u.weir f).shard q).announced = (x.shard q).announced ++ [(e, f, x.seq)]) ∧
    (x.free = 0 → exec (.weirPut k) s =
      .next ((t.modWeir f fun x => { x with redirects := x.redirects + 1 }).redirectTo f q key val w f (x.others f q)))) ∧
  (∀ (s t : State) (k f q key origin : Nat) (val : Word) (m : Packet) (w : Who) (rest : List Nat), Claims.Arrives s k m t → m.dst = .service f →
    m.body = .weir (.redirect q key val w origin rest) →
    Claims.Ours t f q m → let back := t.modWeir origin fun x => { x with redirects := x.redirects - 1 }
    (((t.weir f).cfg q).en = false → exec (.putRedirect k) s = .next (back.poolReply origin m.tenant w [stWord 3])) ∧
    (((t.weir f).cfg q).en = true → (t.weir f).free = 0 → exec (.putRedirect k) s = .next (t.redirectTo f q key val w origin rest)) ∧
    (((t.weir f).cfg q).en = true → 0 < (t.weir f).free → exec (.putRedirect k) s = .next (back.storeElem f q key val w origin))) ∧
  (∀ (s t : State) (k f q g id : Nat) (e : Elem) (m : Packet), Claims.Arrives s k m t → m.dst = .service f → m.body = .weir (.announce q e g id) →
    ((t.weir f).cfg q).en = true → Claims.Ours t f q m → (t.weir f).takes = [] → ∃ u : State, exec (.announcement k) s =
      .next (u.push ⟨.sys, .service f, .service g, m.tenant, .weir (.announceAck q id)⟩) ∧
      ((u.weir f).shard q).announced = ((t.weir f).shard q).announced ++ (if ((t.weir f).cfg q).inc = e.inc then [(e, g, id)] else [])) ∧
  ∀ (s t : State) (k f q id : Nat) (m : Packet) (p : PendingPut), Claims.Arrives s k m t → m.dst = .service f → m.body = .weir (.announceAck q id) →
    Claims.Ours t f q m → (t.weir f).pending.find? (fun p => p.id == id && p.pool == q) = some p →
    (1 < p.left → exec (.announcementAck k) s = .next (t.modWeir f fun x => { x with pending := x.pending.map fun y => if y = p then { y with left := y.left - 1 } else y })) ∧
    (p.left ≤ 1 → exec (.announcementAck k) s =
      .next ((t.modWeir f fun x => { x with pending := x.pending.filter (· != p) }).putDone f q p.who p.elem p.origin))

/-- R258, R263, R268, R269, R272, R273: a take at a weir where no other waits, once OVD says which elements are overdue: the first element in ≺ of
the weir's own, if it does not follow Tserve and nothing known is overdue, goes to the task and leaves the shard; the oldest overdue one of its
own goes first; else the first known element is pulled from the weir that holds it; with nothing known a collect over all weirs begins. -/
def Sys2Proof.Stated.PoolTakes : Prop :=
  (∀ (s t : State) (k f q : Nat) (m : Packet) (w : Who) (v : Word) (n : Bool), Claims.AtPool s t k f q m → m.body = .pool w q (.take n) v →
    (t.weir f).takes = [] →
    let joined := (t.modWeir f fun x => { x with takes := [Take.fresh w q n 0] }).markOverdue f q
    let x := joined.weir f
    let sh := x.shard q
    (∀ e, Claims.NoneOverdue x q → Claims.Least sh.elems e → upTo e (x.tserve q) = true → ∃ u : State, exec (.weirTake k) s = .next (u.poolGive f q w e f false) ∧
      ((u.weir f).shard q).elems = sh.elems.erase e ∧ ((u.weir f).shard q).takes = sh.takes + 1 ∧ (u.weir f).takes = []) ∧
    (∀ e ∈ sh.elems, e.ovd = true → (∀ y ∈ sh.elems, y.ovd = true → y ≠ e → lexLt [e.time, e.key, e.field, e.seq] [y.time, y.key, y.field, y.seq] = true) →
      (∀ r ∈ sh.round, r.oldest = none) → ∃ u : State, exec (.weirTake k) s = .next (u.poolGive f q w e f true) ∧
        ((u.weir f).shard q).elems = sh.elems.erase e ∧ (u.weir f).takes = []) ∧
    (∀ e c g, Claims.NoneOverdue x q → sh.elems = [] → (e, c, g) ∈ sh.known → Claims.Least (sh.known.map (·.1)) e →
      (∀ y ∈ sh.known, y.1 = e → y.2.2 = g) → ∃ u : State, exec (.weirTake k) s =
        .next (u.push ⟨.sys, .service f, .service g, m.tenant, .weir (.pull q f w false)⟩) ∧ (u.weir f).pulls = x.pulls + 1) ∧
    (Claims.NoneOverdue x q → sh.elems = [] → sh.known = [] → exec (.weirTake k) s = .next (joined.startCollect f q w 1))) ∧
  ∀ (s : State) (f q : Nat), let c := (s.weir f).cfg q
    (((s.markOverdue f q).weir f).shard q).elems = ((s.weir f).shard q).elems.map fun e =>
      { e with ovd := decide (c.age ≠ 0 ∧ e.time + c.age * 1024 < s.poolTime c.owner) }

/-- R17, R21, R23, R266, R267, R268, R271: a configuration is told to the other fifteen weirs and acknowledged; a disabled pool takes one at once, an
enabled one at its next summary, and a word with EN = 0 disables and empties it. Every PER × 16 cc a weir sends its summary to the others; the
sixteenth of a period completes the round. Moved elements are stored as far as there is room and acknowledged, but for those of an earlier enabling
of the pool (DEDUCED, log entry 49); the sender keeps the others. What another weir tells of a pool of another partition is discarded and counted
with the package's (DEDUCED, log entry 28); a configuration of it is refused there (DESIGN CHOICE, log entry 90). -/
def Sys2Proof.Stated.PoolUpkeep : Prop :=
  (∀ (s t : State) (k f q : Nat) (m : Packet) (w : Who) (c v : Word), Claims.Arrives s k m t → m.dst = .service f →
    let say := fun (n : Cls) (u : State) => u.push ⟨n, m.dst, .plot w.plot, m.tenant, .sysAck w⟩
    (m.body = .pool w q (.cfg c) v →
      (((t.weir f).cfg q).en = true → ((t.weir f).cfg q).owner ≠ m.tenant →
        exec (.weirCfg k) s = .next (Claims.answers { t with mismatch := t.mismatch + 1 } m w (.trap .storeFault v))) ∧
      (((t.weir f).cfg q).en = false ∨ ((t.weir f).cfg q).owner = m.tenant → exec (.weirCfg k) s =
        .next (say .rsp ((((List.range 16).filter (· != f)).foldl (fun s g => s.push ⟨.sys, .service f, .service g, m.tenant, .weir (.cfg q c w m.tenant)⟩) t).applyCfg f q c m.tenant)))) ∧
    ∀ tn, m.body = .weir (.cfg q c w tn) →
      (Claims.Ours t f q m → exec (.weirCfg k) s = .next (say .sys (t.applyCfg f q c tn))) ∧
      (¬ Claims.Ours t f q m → exec (.weirCfg k) s = .next (Claims.answers { t with mismatch := t.mismatch + 1 } m w (.trap .storeFault c)))) ∧
  (∀ (s : State) (f q tenant : Nat) (w : Word), let x := s.weir f
    (bitw w 63 = true → (x.cfg q).en = false → let y := (s.applyCfg f q w tenant).weir f
      y.cfg q = ⟨true, tenant, w.toNat % 2 ^ 14 + 1, w.toNat / 2 ^ 32 % 2 ^ 22, w.toNat / 2 ^ 16 % 2 ^ 8, (x.cfg q).inc⟩ ∧ (y.shard q).elems = []) ∧
    (bitw w 63 = true → (x.cfg q).en = true → let y := (s.applyCfg f q w tenant).weir f
      y.cfg q = x.cfg q ∧ (y.shard q).nextCfg = some w ∧ (y.shard q).elems = (x.shard q).elems) ∧
    (bitw w 63 = false → let y := (s.applyCfg f q w tenant).weir f
      (y.cfg q).en = false ∧ (y.cfg q).inc = (x.cfg q).inc + 1 ∧ (y.shard q).elems = [] ∧ ∀ t ∈ y.takes, t.pool ≠ q)) ∧
  (∀ (s : State) (f q : Nat),
    let x := s.weir f
    let c := x.cfg q
    let sent := ((x.shard q).incoming ++ (x.shard q).round).any fun m => m.field == f && m.period == s.now
    let u := s.markOverdue f q
    (c.en = false ∨ c.per = 0 ∨ s.now % (c.per * 16) ≠ 0 ∨ sent = true → exec (.weirSummary f q) s = .next u) ∧
    (c.en = true → c.per ≠ 0 → s.now % (c.per * 16) = 0 → sent = false → (x.shard q).nextCfg = none → exec (.weirSummary f q) s =
      let own := (u.weir f).summary f q s.now
      .next ((((List.range 16).filter (· != f)).foldl (fun s g => s.push ⟨.sys, .service f, .service g, c.owner, .weir (.summary q own)⟩)
        (u.modShard f q fun y => { y with served := 0, nextCfg := none })).noteSummary f q own))) ∧
  (∀ (s t : State) (k f q key val id g n : Nat) (m : Packet) (y : Summary) (es : List Elem) (e : Elem) (w : Who) (x : Word) (b : Bool) (r : List Nat),
    Claims.Arrives s k m t → m.dst = .service f → ¬ Claims.Ours t f q m →
      ∀ z ∈ [(Instr.putRedirect k, WeirMsg.redirect q key x w g r), (.announcement k, .announce q e g id), (.announcementAck k, .announceAck q id),
          (.summaryArrival k, .summary q y), (.moveArrival k, .move q es g), (.moveArrival k, .moveAck q n id)] ++
          [(.pull k, .pull q g w b), (.pullAnswer k, .pullAns q w (some e) g b), (.pullAnswer k, .pullAns q w none g b),
          (.emptinessCollect k, .collect q g w), (.collectAnswer k, .collectAns q g w val n id)],
        m.body = .weir z.2 → exec z.1 s = .next { t with mismatch := t.mismatch + 1 }) ∧
  ∀ (s t : State) (k f q g n inc : Nat) (m : Packet) (y : Summary) (es : List Elem), Claims.Arrives s k m t → m.dst = .service f → Claims.Ours t f q m →
    (m.body = .weir (.summary q y) →
      exec (.summaryArrival k) s = .next (if ((t.weir f).cfg q).en then t.noteSummary f q y else t)) ∧
    (m.body = .weir (.move q es g) → ((t.weir f).cfg q).en = true → (t.weir f).takes = [] →
      let kept := es.take (t.weir f).free
      ∃ u : State,
      exec (.moveArrival k) s = .next (u.push ⟨.sys, .service f, .service g, m.tenant, .weir (.moveAck q kept.length ((es.map (·.inc)).headD 0))⟩) ∧
      ((u.weir f).shard q).elems = ((t.weir f).shard q).elems ++ (kept.filter fun e => e.inc == ((t.weir f).cfg q).inc).map fun e => { e with moved := false }) ∧
    (m.body = .weir (.moveAck q n inc) →
      (inc ≠ ((t.weir f).cfg q).inc → exec (.moveArrival k) s = .next t) ∧
      (inc = ((t.weir f).cfg q).inc → exec (.moveArrival k) s = .next (t.modShard f q fun x => { x with
        elems := x.elems ++ (x.moving.drop n).map (fun e => { e with moved := false }), moving := [] })))

/-- R266, R269, R272, R273, R274: a pull takes the first element of its weir, or the oldest overdue, and its answer serves the take, or lets it wait
for the next summary; an element that no take is there for goes back into the pool, at a full weir after 256 cc (DESIGN CHOICE, log entry 94), and
one of an earlier enabling is discarded (DEDUCED, log entry 49); every weir answers a collect with its counts, and two that agree on an empty pool
end a take that does not wait, or park it; an element older than AGE is overdue. -/
def Sys2Proof.Stated.PoolPullsAndCollects : Prop :=
  (∀ (s t : State) (k f q g : Nat) (m : Packet) (w : Who), Claims.Arrives s k m t → m.dst = .service f → Claims.Ours t f q m →
    let v := t.markOverdue f q
    let x := v.weir f
    let sh := x.shard q
    (∀ e, m.body = .weir (.pull q g w false) → Claims.Least sh.elems e → upTo e (x.tserve q) = true →
      exec (.pull k) s = .next ((v.removeElem f q e).push ⟨.sys, .service f, .service g, m.tenant, .weir (.pullAns q w (some e) f false)⟩)) ∧
    (∀ e ∈ sh.elems, m.body = .weir (.pull q g w true) → e.ovd = true →
      (∀ y ∈ sh.elems, y.ovd = true → y ≠ e → lexLt [e.time, e.key, e.field, e.seq] [y.time, y.key, y.field, y.seq] = true) →
      exec (.pull k) s = .next ((v.removeElem f q e).push ⟨.sys, .service f, .service g, m.tenant, .weir (.pullAns q w (some e) f true)⟩)) ∧
    (m.body = .weir (.pull q g w false) → sh.elems = [] →
      exec (.pull k) s = .next (v.push ⟨.sys, .service f, .service g, m.tenant, .weir (.pullAns q w none f false)⟩)) ∧
    (m.body = .weir (.collect q g w) → exec (.emptinessCollect k) s =
      let x := t.weir f
      let sh := x.shard q
      .next (t.push ⟨.sys, .service f, .service g, m.tenant,
        .weir (.collectAns q f w sh.puts sh.takes ((x.pending.filter fun p => p.pool == q).length + x.pulls + x.redirects + sh.moving.length))⟩))) ∧
  (∀ (s t : State) (k f q g : Nat) (m : Packet) (w : Who), Claims.Arrives s k m t → m.dst = .service f → Claims.Ours t f q m →
    let x := t.weir f
    (∀ e ovd, m.body = .weir (.pullAns q w (some e) g ovd) → (∃ y ∈ x.takes, y.who = w ∧ y.pool = q) → (∀ y ∈ x.takes, y.queued = false) →
      e.inc = (x.cfg q).inc → exec (.pullAnswer k) s = .next ((t.dropTake f w).poolGive f q w e g ovd)) ∧
    (∀ ovd, m.body = .weir (.pullAns q w none g ovd) → (∀ y ∈ x.takes, y.queued = false) →
      exec (.pullAnswer k) s = .next (t.modTake f w fun t => { t with pulling := false, refused := true })) ∧
    (∀ e ovd, m.body = .weir (.pullAns q w (some e) g ovd) → x.takes = [] → exec (.pullAnswer k) s = .next (t.putBack f q e)) ∧
    (∀ e, m.body = .unput q e → exec (.weirTake k) s = .next (t.putBack f q e)) ∧
    ∀ e : Elem, ((x.cfg q).en = false ∨ (x.cfg q).inc ≠ e.inc → t.putBack f q e = t) ∧
      ((x.cfg q).en = true → (x.cfg q).inc = e.inc → x.free = 0 → t.putBack f q e = { t with
        resend := t.resend ++ [(t.now + 256, ⟨.req, .service f, .service f, (x.cfg q).owner, .unput q e⟩)] })) ∧
  (∀ (s t : State) (k f q g puts takes flying : Nat) (m : Packet) (w : Who) (y : Take), Claims.Arrives s k m t → m.dst = .service f →
    m.body = .weir (.collectAns q g w puts takes flying) → Claims.Ours t f q m → (t.weir f).takes.find? (fun t => t.who == w && t.pool == q) = some y →
    let a := (g, puts, takes, flying)
    let last := { y with second := y.second ++ [a] }
    (y.collecting = 1 → y.first.length < 15 → exec (.collectAnswer k) s = .next (t.modTake f w fun _ => { y with first := y.first ++ [a] })) ∧
    (y.collecting = 1 → y.first.length = 15 → exec (.collectAnswer k) s = .next ((t.modTake f w fun _ => { y with first := y.first ++ [a] }).startCollect f q w 2)) ∧
    (y.collecting = 2 → y.second.length < 15 → exec (.collectAnswer k) s = .next (t.modTake f w fun _ => last)) ∧
    (y.collecting = 2 → y.second.length = 15 → last.agreed = true → y.n = true →
      exec (.collectAnswer k) s = .next ((t.dropTake f w).poolReply f m.tenant w [0, stWord 1])) ∧
    (y.collecting = 2 → y.second.length = 15 → last.agreed = true → y.n = false → exec (.collectAnswer k) s =
      .next (t.modTake f w fun t => { t with parked := true, collecting := 0, first := [], second := [] })) ∧
    (y.collecting = 2 → y.second.length = 15 → last.agreed = false → exec (.collectAnswer k) s =
      .next ((t.modTake f w fun t => { t with collecting := 0, first := [], second := [] }).tryTake f q w))) ∧
  ∀ (s : State) (f q j : Nat) (e : Elem), q < 64 → ((s.weir f).shard q).elems[j]? = some e →
    let c := (s.weir f).cfg q
    let late : Prop := c.age ≠ 0 ∧ e.ovd = false ∧ e.time + c.age * 1024 < s.poolTime c.owner
    (¬ late → exec (.elementOverdue f (q + 64 * j)) s = .next s) ∧
    (late → ∃ u : State, exec (.elementOverdue f (q + 64 * j)) s = .next u ∧ ((u.weir f).shard q).elems = ((s.weir f).shard q).elems.set j { e with ovd := true })

/-! ## Events: flumes -/

namespace Sys2Proof.Claims

open Sys2Proof Sys2Proof.Machine

/-- R281, R337: what a flume reads of a guard: its word, or nothing where the word cannot be read; a command may have none. -/
def GuardIs (t : State) : Option Loc → Option (Option Nat) → Prop
  | none, r => r = some none
  | some (.scratch p b o), r => (t.plot (p % 2 ^ 20)).bufs.errs = [] ∧
      r = some (some (numLE ((List.range 8).map fun j => (t.plot (p % 2 ^ 20)).bufs.byte b (o + j))))
  | some (.pages va ps), r => ∃ e, ps = [e] ∧ e.ty = 0 ∧ e.va ≤ va ∧ va + 8 ≤ e.va + e.bytes ∧
      let bytes := (List.range 8).map fun j => e.target_ (va + j)
      r = if ∃ a ∈ bytes, t.hbmBad a = true then none else some (some (numLE (bytes.map fun a => Sparse.get 0 t.mem.hbm a)))

/-- R300: the part of a promise that its destination gives. -/
def CopyTime (c : CopyCmd) (n : Nat) : Prop :=
  (∃ va e es, c.dst = .pages va (e :: es) ∧ e.ty = 2) ∧ n = 3000 ∨ (∀ va e es, c.dst = .pages va (e :: es) → e.ty ≠ 2) ∧ n = 300

/-- R300, R302: the part of a promise that PUTS and GET add: twice the smoothed round trip of the connection to the peer, or, before there is one,
of the port to it. -/
def CopyTrip (t : State) (c : CopyCmd) (n : Nat) : Prop :=
  (c.kind = 0 ∨ c.peer = none) ∧ n = 0 ∨
  c.kind ≠ 0 ∧ ∃ g, c.peer = some g ∧ let conn := t.link.conns.find? fun q => q.peer == g && q.tenant == c.tenant && decide (q.state ≤ 1)
    (∃ q, conn = some q ∧ n = 2 * q.srtt) ∨ (∃ port, conn = none ∧ t.link.routes.find? (fun r => r.1 == g) = some (g, port) ∧
      n = 2 * (Sparse.get PortCfg.reset t.link.ports port).rtt)

/-- A range is in one page of a kind: HBM (0), a peer (1) or HOST (2). -/
def InPage (l : Loc) (ty len va : Nat) (e : Tlb) : Prop := l = .pages va [e] ∧ e.ty = ty ∧ e.va ≤ va ∧ va + len ≤ e.va + e.bytes

/-- The copy whose step it is, and nothing under way in the network. -/
def Turn1 (s : State) (f k : Nat) (r : CopyRun) : Prop :=
  ((s.flume f).copies.take 4)[k]? = some r ∧ s.mover f = some k ∧ s.net = [] ∧ r.pos < r.len ∧ r.read ≤ r.len

/-- The state after a copy has written up to a byte, with packets sent to a peer. -/
def Wrote (u : State) (f : Nat) (r : CopyRun) (e packets : Nat) : State :=
  ((u.modFlume f (·.moved r.cmd.who (e - r.pos))).modRun f r.cmd.who fun y =>
    { y with pos := e, buf := y.buf.drop (e - y.pos), acks := y.acks + packets }).copyStep f r.cmd.who

end Sys2Proof.Claims

open Sys2Proof Sys2Proof.Machine

/-- R277, R280, R281, R283, R300, R302, R337: a flume with room accepts a copy of its partition's: it joins the queue and the answer carries the
promise, made of the bytes ahead, its own, its destination and, for a peer, the round trip. The guard, read after the writes that its plot has
accepted (R344), bounds the length; a length of 0 without a signal is complete at once; under CE the destination is empty before the answer. A
guard that cannot be read fails the copy (log entry 17), and a buffer of another partition stops it and is counted. Without room the command waits. -/
def Sys2Proof.Stated.FlumeAccepts : Prop :=
  (∀ (s t : State) (k f : Nat) (m : Packet) (c : CopyCmd), Claims.Arrives s k m t → m.body = .copy c f →
    let x := t.flume f
    let say := fun (u : State) (b : Msg) => u.push ⟨.rsp, .base (f / 2), .plot c.who.plot, c.tenant, b⟩
    let promised := fun (u : State) (n : Nat) => say u (.rsp c.who (.words [.ofNat 64 n] 0))
    let room := x.copies.length < 64 ∧ x.waiting = []
    let own := fun (l : Loc) => t.foreign l c.tenant = false
    (¬ room → exec (.flumeAccept k) s = .next (t.modFlume f fun x => { x with waiting := x.waiting ++ [c] })) ∧
    (∀ l w, room → (l = c.src ∧ w = .loadFault) ∨ (own c.src ∧ l = c.dst ∧ w = .storeFault) ∨
        (own c.src ∧ own c.dst ∧ c.guard = some l ∧ w = .loadFault) → ∀ p b o, l = .scratch p b o → ¬ own l →
      exec (.flumeAccept k) s = .next (say (t.mismatchAt (p % 2 ^ 20)) (.rsp c.who (.trap w l.baddr)))) ∧
    (room → own c.src → own c.dst → (∀ l, c.guard = some l → own l) → ∀ u, u = (match c.guard with | some l => t.settleAt l | none => t) →
      (Claims.GuardIs u c.guard none → exec (.flumeAccept k) s = .next (say (promised u u.now) (.copyDone c.who true))) ∧
      ∀ g, Claims.GuardIs u c.guard (some g) →
        let l := match g with | some n => min c.len (n * c.unit) | none => c.len
        (l = 0 → c.signal = none → exec (.flumeAccept k) s = .next (say (promised u u.now) (.copyDone c.who false))) ∧
        ∀ n w d, (l = 0 ∧ c.signal ≠ none ∧ n = u.now) ∨ (l ≠ 0 ∧ Claims.CopyTime c w ∧ Claims.CopyTrip u c d ∧
            n = u.now + 64 + (((u.flume f).copies.map fun r => r.len - r.pos).sum + l + 532) / 533 + w + d) →
          let v := if c.ce then (u.settleAt c.dst).emptyDst c.dst l else u
          exec (.flumeAccept k) s = .next (promised (v.modFlume f fun x => { x with copies := x.copies ++ [⟨c, l, 0, [], [], [], 0, false⟩] }) n))) ∧
  (∀ (s : State) (p b o len : Nat), b < 3 → 0 < len → o + len ≤ 2 ^ 16 →
    let u := s.emptyDst (.scratch p b o) len
    let d := p % 2 ^ 20
    Claims.OnlyPlot s u d ∧ (∀ c i, (u.plot d).bufs.byte c i = (s.plot d).bufs.byte c i) ∧
    ∀ c w, c < 3 → (u.plot d).bufs.wordEmpty c w = ((s.plot d).bufs.wordEmpty c w || decide (c = b ∧ o / 8 ≤ w ∧ 8 * w < o + len))) ∧
  (∀ (s : State) (l : Loc) (va len : Nat) (e : Tlb), Claims.InPage l 0 len va e → 0 < len →
    let u := s.emptyDst l len
    u = { s with mem := { s.mem with fe := u.mem.fe } } ∧
    ∀ x, Sparse.get false u.mem.fe x = (Sparse.get false s.mem.fe x || decide (e.target_ va / 64 ≤ x ∧ 64 * x < e.target_ va + len))) ∧
  (∀ (s : State) (p : Nat), (∀ e ∈ s.checked, e.2 ≠ .plot p) → s.settlePort p = s) ∧
  ∀ (s : State) (p k : Nat) (m : Packet) (a : Acc), s.checked.filter (fun e => e.2 == .plot p) = [(a.who, .plot p)] → s.net[k]? = some m → m.body = .acc a →
    (∀ j, j < k → ∀ n, s.net[j]? = some n → ∀ b, n.body = .acc b → b.who ≠ a.who) → s.settlePort p = (s.takeMsg k).portServe (p % 2 ^ 20) m a

/-- R277, R282, R344: whose turn it is in a flume. A copy keeps its turn for 4 KiB while it can take a step; one that reads or writes bytes that an
earlier copy of the flume writes, or writes bytes that one reads, waits for it; so does one at a plot that has accepted writes to perform,
and the last word or sector while a peer has not performed the bytes before it. -/
def Sys2Proof.Stated.CopyTurns : Prop :=
  (∀ (s : State) (f k : Nat), s.mover f ≠ some k → exec (.copyPiece f k) s = .next s) ∧
  (∀ (s : State) (f k n : Nat) (r : CopyRun), ((s.flume f).copies.take 4)[k]? = some r → (s.flume f).turn = some (r.cmd.who, n) → n < 4096 →
    (∀ j q, j < k → ((s.flume f).copies.take 4)[j]? = some q → q.cmd.who ≠ r.cmd.who) →
    s.canMove f (((s.flume f).copies.take 4).take k) r = true → s.mover f = some k) ∧
  (∀ (s : State) (f : Nat) (before : List CopyRun) (r : CopyRun), s.net = [] → r.pos < r.len → (∀ q ∈ before, 0 < q.len) →
    (∀ q ∈ r :: before, ∃ sp sb so dp db o, q.cmd.src = .scratch sp sb so ∧ q.cmd.dst = .scratch dp db o) → r.cmd.kind = 0 →
    let place := fun (l : Loc) (i : Nat) => match l with | .scratch p b o => (p, b, o + i) | .pages _ _ => (0, 0, 0)
    let shares := fun (a : Loc) (n : Nat) (b : Loc) (m : Nat) => ∃ i j, i < n ∧ j < m ∧ place a i = place b j
    (s.canMove f before r = true ↔
      (∀ q ∈ before, ¬ shares q.cmd.dst q.len r.cmd.dst r.len ∧ ¬ shares q.cmd.dst q.len r.cmd.src r.len ∧
        ¬ shares q.cmd.src q.len r.cmd.dst r.len) ∧ r.asked = [] ∧
      (∀ e ∈ s.checked, e.2 ≠ .plot (place r.cmd.src 0).1 ∧ e.2 ≠ .plot (place r.cmd.dst 0).1) ∧ (r.acks = 0 ∨ ∀ e, r.writeTo = some e → e ≤ r.lastFrom))) ∧
  (∀ (s : State) (f : Nat) (before : List CopyRun) (r : CopyRun) (e : Nat), s.net = [] → r.pos < r.len → r.acks ≠ 0 → r.writeTo = some e → r.lastFrom < e →
    s.canMove f before r = false) ∧
  ∀ (r : CopyRun) (va i : Nat) (e : Tlb), Claims.InPage r.cmd.dst e.ty r.len va e → i < r.len →
    (r.lastFrom ≤ i ↔ e.target_ (va + i) / 64 = e.target_ (va + (r.len - 1)) / 64)

/-- R97 to R99, R277, R282, R286: the step of a copy whose turn it is: a piece is read, to the end of a word, from a buffer or from HBM; what a peer
holds is asked of it, and its answer read; what has been read whole arrives in order at the destination, whose other bytes keep their values,
up to the end of a word; a word or sector whose last byte lands becomes full; bytes for a peer leave for it. The copy counts on. The last piece
completes the copy, and its plot is told, or its signal leaves. Pieces that end with a word are log entry 79. -/
def Sys2Proof.Stated.CopyMoves : Prop :=
  (∀ (s : State) (f k : Nat) (r : CopyRun), Claims.Turn1 s f k r →
    let i := Instr.copyPiece f k
    let n := r.readTo - r.read
    let reads := fun (u : State) (bs : List Byte) => u.modRun f r.cmd.who fun y => { y with buf := y.buf ++ bs, asked := [], got := [] }
    (r.writeTo = none →
      (∀ sp sb so dp db o, r.cmd.src = .scratch sp sb so → r.cmd.dst = .scratch dp db o → (sp, sb) ≠ (dp, db) → (s.plot (sp % 2 ^ 20)).bufs.errs = [] →
        exec i s = .next (reads s ((List.range n).map fun j => (s.plot (sp % 2 ^ 20)).bufs.byte sb (so + (r.read + j))))) ∧
      (∀ va e dp db o, Claims.InPage r.cmd.src 0 r.len va e → r.cmd.dst = .scratch dp db o →
        let at_ := fun j => e.target_ (va + (r.read + j))
        ((∀ j, j < n → s.hbmBad (at_ j) = false) → exec i s = .next (reads s ((List.range n).map fun j => Sparse.get 0 s.mem.hbm (at_ j)))) ∧
        ((∃ j, j < n ∧ s.hbmBad (at_ j) = true) → exec i s = .next (s.endCopy f r.cmd true))) ∧
      ∀ va e, Claims.InPage r.cmd.src 1 r.len va e → exec i s = .next ((s.modRun f r.cmd.who fun y => { y with asked := [e.pkg] }).push
        ⟨.req, .peer s.pkg, .peer e.pkg, r.cmd.tenant, .copyAsk f r.cmd.who r.read ((List.range n).map fun j => e.target_ (va + (r.read + j)))⟩)) ∧
    ∀ e, r.writeTo = some e →
      let bs := r.buf.take (e - r.pos)
      (∀ dp db o, r.cmd.dst = .scratch dp db o → db < 3 → ∃ u : State, exec i s = .next (Claims.Wrote u f r e 0) ∧ Claims.OnlyPlot s u (dp % 2 ^ 20) ∧
        let new := (u.plot (dp % 2 ^ 20)).bufs
        let old := (s.plot (dp % 2 ^ 20)).bufs
        (∀ j v, bs[j]? = some v → new.byte db (o + (r.pos + j)) = v) ∧
        (∀ c j, c < 3 → c ≠ db ∨ j < o + r.pos ∨ o + e ≤ j → new.byte c j = old.byte c j) ∧
        ∀ c w, c < 3 → (new.wordEmpty c w = true ↔ old.wordEmpty c w = true ∧
          ¬ (c = db ∧ ∃ j, r.pos ≤ j ∧ j < e ∧ (o + j) / 8 = w ∧ (j + 1 = r.len ∨ (o + j) % 8 = 7)))) ∧
      (∀ va p, Claims.InPage r.cmd.dst 0 r.len va p → ∃ u : State, exec i s = .next (Claims.Wrote u f r e 0) ∧
        u = { s with mem := { s.mem with hbm := u.mem.hbm, bad := u.mem.bad, fe := u.mem.fe } } ∧
        let dest := fun j => p.target_ (va + (r.pos + j))
        (∀ a, Sparse.get 0 u.mem.hbm a = if Sparse.get false s.mem.gate (a / 64) then Sparse.get 0 s.mem.hbm a
          else Claims.putAt (bs.zipIdx.map fun b => (dest b.2, b.1)) (fun a => Sparse.get 0 s.mem.hbm a) a) ∧
        ∀ x, (Sparse.get false u.mem.fe x = true ↔ Sparse.get false s.mem.fe x = true ∧
          ¬ ∃ j, j < e - r.pos ∧ dest j / 64 = x ∧ (r.pos + j + 1 = r.len ∨ dest j % 64 = 63))) ∧
      ∀ va p, Claims.InPage r.cmd.dst 1 r.len va p → let dest := fun j => p.target_ (va + (r.pos + j))
        exec i s = .next (Claims.Wrote (s.push ⟨.chi, .peer s.pkg, .peer p.pkg, r.cmd.tenant, .copyOut f r.cmd.who (bs.zipIdx.map fun b => (dest b.2, b.1))
          (((List.range bs.length).filter fun j => r.pos + j + 1 == r.len || dest j % 64 == 63).map dest)⟩) f r e 1)) ∧
  (∀ (s : State) (f k g n : Nat) (r : CopyRun) (cls : Cls) (ans : Option (List Byte)), ((s.flume f).copies.take 4)[k]? = some r → s.mover f = some k →
    s.net = [⟨cls, .peer g, .peer s.pkg, r.cmd.tenant, .copyIn f r.cmd.who n ans⟩] → let t : State := { s with net := [] }
      (ans = none → exec (.copyPiece f k) s = .next (t.endCopy f r.cmd true)) ∧
      ∀ bs va e, ans = some bs → Claims.InPage r.cmd.src 1 r.len va e → e.pkg = g → r.asked = [g] → r.got = [] → bs.length = r.readTo - r.read →
        exec (.copyPiece f k) s = .next (t.modRun f r.cmd.who fun y => { y with buf := r.buf ++ bs, asked := [], got := [] })) ∧
  (∀ (r : CopyRun), r.read < r.len → r.read < r.readTo ∧ r.readTo ≤ r.len ∧ r.readTo ≤ 64 * (r.read / 64 + 1) + 7 ∧
    (∀ p b o, r.cmd.src = .scratch p b o → r.readTo = r.len ∨ (o + r.readTo) % 8 = 0)) ∧
  (∀ (r : CopyRun) (p b o : Nat), r.cmd.dst = .scratch p b o → r.pos < r.len → r.read ≤ r.len →
    (∀ e, r.writeTo = some e → r.pos < e ∧ e ≤ r.read ∧ e ≤ r.pos + 64 ∧ (e = r.len ∨ (o + e) % 8 = 0)) ∧
    (r.read = r.len ∨ r.pos + 8 ≤ 64 * (r.read / 64) → r.writeTo ≠ none)) ∧
  ∀ (s : State) (f : Nat) (r : CopyRun), (s.flume f).copies.find? (fun y => y.cmd.who == r.cmd.who) = some r →
    let done := r.len ≤ r.pos ∧ r.acks = 0
    (¬ done → s.copyStep f r.cmd.who = s) ∧
    (done → r.cmd.signal = none → (s.flume f).waiting = [] → s.copyStep f r.cmd.who =
      (s.modFlume f fun x => { x with copies := x.copies.filter fun y => y.cmd.who != r.cmd.who }).push
        ⟨.rsp, .base (f / 2), .plot r.cmd.who.plot, r.cmd.tenant, .copyDone r.cmd.who false⟩) ∧
    ∀ op l v va e, r.cmd.signal = some (op, l, v) → Claims.InPage l 1 8 va e →
      (done → r.signalled = false → s.copyStep f r.cmd.who = (s.modRun f r.cmd.who fun y => { y with signalled := true }).push
        ⟨.req, .peer s.pkg, .peer e.pkg, r.cmd.tenant, .putsSignal f r.cmd.who op (e.target_ va) v⟩) ∧
      (r.signalled = true → s.copyStep f r.cmd.who = s)

/-- R282, R286, R287, R346: this package as a peer: a piece of a PUTS is written and acknowledged, its closed sectors become full; bytes asked for a
GET are read, in their turn among the connection's requests; what another partition asks is refused and counted, and a word that cannot be
corrected is refused. -/
def Sys2Proof.Stated.PeerPieces : Prop :=
  ∀ (s t : State) (k f : Nat) (m : Packet) (w : Who), Claims.Arrives s k m t →
    let own := fun (as : List Nat) => m.tenant = 0 ∨ ∀ a ∈ as, t.owns m.tenant a = true
    let bad : State := { t with mismatch := t.mismatch + 1 }
    let back := fun (u : State) (c : Cls) (b : Msg) => u.push ⟨c, m.dst, m.src, m.tenant, b⟩
    (∀ bs full, m.body = .copyOut f w bs full →
      (¬ own (bs.map (·.1)) → exec (.baseDieAccess k) s = .next (back bad .rsp (.copyAck f w false))) ∧
      (own (bs.map (·.1)) → ∃ u : State, exec (.baseDieAccess k) s = .next (back u .rsp (.copyAck f w true)) ∧
        u = { t with mem := { t.mem with hbm := u.mem.hbm, bad := u.mem.bad, fe := u.mem.fe } } ∧
        (∀ a, Sparse.get 0 u.mem.hbm a = if Sparse.get false t.mem.gate (a / 64) then Sparse.get 0 t.mem.hbm a
          else Claims.putAt bs (fun a => Sparse.get 0 t.mem.hbm a) a) ∧
        ∀ x, Sparse.get false u.mem.fe x = (Sparse.get false t.mem.fe x && !(full.any fun a => a / 64 == x)))) ∧
    ∀ n as, m.body = .copyAsk f w n as →
      (s.peerTurn k m = false → exec (.baseDieAccess k) s = .next s) ∧
      (s.peerTurn k m = true →
        (¬ own as → exec (.baseDieAccess k) s = .next (back bad .rsp (.copyIn f w n none))) ∧
        (own as → (∃ a ∈ as, t.hbmBad a = true) → exec (.baseDieAccess k) s = .next (back t .rsp (.copyIn f w n none))) ∧
        (own as → (∀ a ∈ as, t.hbmBad a = false) → exec (.baseDieAccess k) s =
          .next (back t .chi (.copyIn f w n (some (as.map fun a => Sparse.get 0 t.mem.hbm a))))))

/-- R250, R282, R283, R286, R287, R332: the end of a copy frees its record, or marks it failed; an acknowledgement of a piece counts, and one of the
signal ends the copy; what comes of a copy that has ended is dropped; a copy not complete at its promise is found late with all of its task that
are, once, and counted (log entry 79); a signal, in its turn among the connection's requests, is applied and acknowledged, and one to memory of
another partition is refused and counted. -/
def Sys2Proof.Stated.CopyEnds : Prop :=
  (∀ (s t : State) (k p : Nat) (m : Packet) (w : Who), Claims.Arrives s k m t → Claims.AtPlot s m p → Claims.Same t m p → w.plot % 2 ^ 20 = p →
    (t.plot p).outbox = [] →
    (m.body = .copyDone w false → ∀ c, (t.plot p).find w.task = some (.ctx c) → ∃ u, exec (.copyComplete k) s = .next u ∧
      (u.ctx p c).copies = (t.ctx p c).copies.filter (fun x => x.id != w.id) ∧ Claims.OthersSame t u p c) ∧
    (m.body = .copyDone w true → ∀ c, (t.plot p).find w.task = some (.ctx c) → ∃ u, exec (.copyFailed k) s = .next u ∧
      (u.ctx p c).copies = (t.ctx p c).copies.map (fun x => if x.id = w.id then { x with failed := true } else x) ∧ Claims.OthersSame t u p c)) ∧
  (∀ (s t : State) (k f : Nat) (m : Packet) (w : Who) (ok : Bool), Claims.Arrives s k m t → m.body = .copyAck f w ok →
    ((t.flume f).copies.find? (fun r => r.cmd.who == w) = none → exec (.copyComplete k) s = .next t) ∧
    ∀ r, (t.flume f).copies.find? (fun r => r.cmd.who == w) = some r →
      (ok = false → exec (.copyComplete k) s = .next (t.endCopy f r.cmd true)) ∧
      (ok = true → r.signalled = true → r.acks = 0 → exec (.copyComplete k) s = .next (t.endCopy f r.cmd false)) ∧
      (ok = true → r.acks ≠ 0 → exec (.copyComplete k) s = .next ((t.modRun f w fun r => { r with acks := r.acks - 1 }).copyStep f w))) ∧
  (∀ (s t : State) (k f n : Nat) (m : Packet) (w : Who) (bs : Option (List Byte)), Claims.Arrives s k m t → m.body = .copyIn f w n bs →
    (∀ r ∈ (t.flume f).copies, r.cmd.who ≠ w) → exec (.copyComplete k) s = .next t) ∧
  (∀ (s : State) (p c k : Nat) (r : CopyRec), c < 4 → (s.ctx p c).copies[k]? = some r →
    let ended := fun (x : CopyRec) => ∃ m ∈ s.net, ∃ b, m.body = .copyDone ⟨s.plotId p, (s.ctx p c).csr.taskid, x.id⟩ b
    let past := fun (x : CopyRec) => x.failed = false ∧ x.promise ≤ s.now ∧ ¬ ended x
    (¬ past r → exec (.copyLate p c k) s = .next s) ∧
    (past r → (∀ x ∈ (s.ctx p c).copies, past x → x.late = true) → exec (.copyLate p c k) s = .next s) ∧
    (past r → ∃ u : State, exec (.copyLate p c k) s = .next u ∧ (u.ctx p c).regs = (s.ctx p c).regs ∧ u.mem = s.mem ∧
      ∀ (j : Nat) (x : CopyRec), (s.ctx p c).copies[j]? = some x →
        ∃ b, (u.ctx p c).copies[j]? = some { x with late := b } ∧ (b = true ↔ x.late = true ∨ past x))) ∧
  ∀ (s t : State) (k f op a : Nat) (m : Packet) (w : Who) (v : Word), Claims.Arrives s k m t → m.body = .putsSignal f w op a v →
    let own := m.tenant = 0 ∨ t.owns m.tenant a = true
    let acked := fun (u : State) (ok : Bool) => u.push ⟨.rsp, m.dst, m.src, m.tenant, .copyAck f w ok⟩
    (s.peerTurn k m = false → exec (.putsSignal k) s = .next s) ∧
    (s.peerTurn k m = true → ¬ own → exec (.putsSignal k) s = .next (acked { t with mismatch := t.mismatch + 1 } false)) ∧
    (s.peerTurn k m = true → own → ∀ g ∈ Claims.amoTable, g.1 = op → ∃ u : State, exec (.putsSignal k) s = .next (acked u true) ∧
      u = { t with mem := { t.mem with hbm := u.mem.hbm, bad := u.mem.bad } } ∧
      ∀ j, j < 8 → Sparse.get false t.mem.gate ((a + j) / 64) = false →
        Sparse.get 0 u.mem.hbm (a + j) = (g.2 (.ofNat 64 (numLE ((List.range 8).map fun i => Sparse.get 0 t.mem.hbm (a + i)))) v 0).extractLsb' (8 * j) 8)

/-! ## Events: sluices -/

namespace Sys2Proof.Claims

open Sys2Proof Sys2Proof.Machine

/-- R292: a step of an instance that keeps a member in collw: it writes destination bytes of this member, or the barrier of B. -/
def ToWrite (c : Comm) (i : Inst) (q : Nat × Nat × Nat) : Prop :=
  q.1 = 2 ∨ q.1 = 1 ∨ q.1 = 0 ∧ q.2.1 = c.rank ∧ (i.ctl.toNat / 2 ^ 8 % 16 ≠ 5 ∨ i.ctl.toNat / 2 ^ 16 % 2 ^ 16 = c.rank) ∧ 0 < i.len

/-- R294: a chunk carries the signature of an instance. -/
def Signed (q : Chunk) (i : Inst) : Prop :=
  q.op = i.ctl.toNat / 2 ^ 8 % 16 ∧ q.root = i.ctl.toNat / 2 ^ 16 % 2 ^ 16 ∧ q.b = i.ctl.getLsbD 12 ∧ ∃ r rest, i.reqs = r :: rest ∧ q.len = r.len

/-- R291, R292: what a coll or collw on a broken communicator, or a collw on an instance that broke, is told. -/
def brokenAnswer (cause : Nat) (token : Word) (other : Rsp) : Rsp :=
  if cause = 0x10 then .trap .collMismatch token else if cause = 0x11 then .trap .collOverrun token else other

/-- The step is the next of a sluice, which has no chunk in progress, or this one. -/
def TakesUp (s : State) (x : Nat) (i : Inst) (step : Nat × Nat × Nat) : Prop :=
  s.steps[x]? = some (i, step) ∧ (s.sluice (i.comm / 32)).taken = none ∧ i.ready (s.comm i.comm) step = true ∧
    ((s.comm i.comm).urg = true ∨ (s.urgent (i.comm / 32) = false ∧ s.nextBulk (i.comm / 32) = some i.comm))

/-- The step is in progress at its sluice. -/
def InProgress (s : State) (x : Nat) (i : Inst) (k : Taken) : Prop :=
  s.steps[x]? = some (i, k.step) ∧ (s.sluice (i.comm / 32)).taken = some k ∧ k.comm = i.comm ∧ k.seq = i.seq

/-- Bytes of a buffer range of one local member, whose plot has no accepted write to perform and no error. -/
def Settled (s : State) (l : Loc) (p b o : Nat) : Prop :=
  l = .scratch p b o ∧ b < 3 ∧ o % 8 = 0 ∧ (s.plot (p % 2 ^ 20)).bufs.errs = [] ∧ ∀ e ∈ s.checked, e.2 ≠ .plot p

end Sys2Proof.Claims

open Sys2Proof Sys2Proof.Machine

/-- R21, R288, R290 to R292, R294: a coll at its sluice is checked and noted; an instance begins when every local member has issued it with one control
word and length, and each is given the token; collw waits until the bytes of its member are written, or has its status at once. A communicator or a
buffer of another partition is refused and counted (log entry 28), as is a chunk or a break notice for no communicator of its partition; when one
breaks, each request that waits is told so with the token that it would have had, and the next member has the notice; the source of a broadcast is checked at its sluice (log entry 11). -/
def Sys2Proof.Stated.Collectives : Prop :=
  (∀ (s t : State) (k : Nat) (m : Packet) (r : CollReq), Claims.Arrives s k m t → m.body = .coll r →
    let id := r.ctl.toNat % 256
    let c := t.comm id
    let root := r.ctl.toNat / 2 ^ 16 % 2 ^ 16
    let say := fun (u : State) (a : Rsp) => u.push ⟨.rsp, .head (id / 32 / 2), .plot r.who.plot, m.tenant, .rsp r.who a⟩
    let other := c.en = true ∧ c.tenant ≠ m.tenant
    let usable := c.en = true ∧ c.tenant = m.tenant ∧ r.who.plot ∈ c.locals ∧ root < c.npk + 1
    (other → exec (.collRequest k) s = .next (say { t with mismatch := t.mismatch + 1 } (.trap .storeFault r.ctl))) ∧
    (¬ other → ¬ usable → exec (.collRequest k) s = .next (say t (.trap .storeFault r.ctl))) ∧
    let zero := r.tval = 0 ∨ r.ctl.toNat / 2 ^ 8 % 2 ^ 4 ≠ 1 ∨ (c.rank = root ∧ c.locals.head? = some r.who.plot)
    (usable → ¬ zero → exec (.collRequest k) s = .next (say t (.trap .storeFault r.tval))) ∧
    (usable → zero → c.brk = true → exec (.collRequest k) s =
      .next (say t (Claims.brokenAnswer c.bcause (.ofNat 64 (id + c.seq * 2 ^ 16)) (.trap .storeFault r.ctl)))) ∧
    (usable → zero → c.brk = false →
      (∀ l w p b o, (l = r.src ∧ w = .loadFault) ∨ (t.foreign r.src m.tenant = false ∧ l = r.dst ∧ w = .storeFault) → l = .scratch p b o →
        t.foreign l m.tenant = true → exec (.collRequest k) s = .next (say (t.mismatchAt (p % 2 ^ 20)) (.trap w l.baddr))) ∧
      (t.foreign r.src m.tenant = false → t.foreign r.dst m.tenant = false →
        exec (.collRequest k) s = .next (t.modComm id fun c => { c with reqs := c.reqs ++ [r] })))) ∧
  (∀ (s : State) (x : Nat) (r : CollReq) (rest : List CollReq), let c := s.comm x
    c.en = true → c.brk = false → (∀ i ∈ s.insts, i.comm = x → i.status ≠ 0) → c.ready = some (r :: rest) →
    let same := ∀ q ∈ rest, q.ctl = r.ctl ∧ q.len = r.len
    (¬ same → exec (.collAccept x) s = .next (s.breakComm x 0x10)) ∧
    (same → (∀ q ∈ r :: rest, q.who.plot / 2 ^ 20 = s.pkg) → ∃ u : State, ∃ i ∈ u.insts, (u.comm x).brk = false ∧ (u.comm x).seq = (c.seq + 1) % 2 ^ 16 ∧
      i.comm = x ∧ i.seq = c.seq ∧ i.ctl = r.ctl ∧ i.reqs = r :: rest ∧
      (∀ q ∈ r :: rest, ∃ m ∈ u.net, m.dst = .plot q.who.plot ∧ m.body = .rsp q.who (.words [.ofNat 64 (x + c.seq * 2 ^ 16)] 0)) ∧
      let odd := ∃ q ∈ c.staged, q.seq = c.seq ∧ ¬ Claims.Signed q i
      (odd → exec (.collAccept x) s = .next (u.breakComm x 0x10)) ∧ (¬ odd → exec (.collAccept x) s = .next u))) ∧
  (∀ (s : State) (x : Nat), (s.comm x).en = false ∨ (s.comm x).brk = true → exec (.collAccept x) s = .next s) ∧
  (∀ (s t : State) (k : Nat) (m : Packet) (w : Who) (token : Word) (i : Inst), Claims.Arrives s k m t → m.body = .collw w token →
    let id := token.toNat % 256
    let c := t.comm id
    let say := fun (u : State) (a : Rsp) => u.push ⟨.rsp, .head (id / 32 / 2), .plot w.plot, m.tenant, .rsp w a⟩
    let flags := Rsp.words [.ofNat 64 (i.flags % 64)] (i.flags % 64)
    (c.en = true → c.tenant ≠ m.tenant → exec (.collwRequest k) s = .next (say { t with mismatch := t.mismatch + 1 } (.trap .loadFault token))) ∧
    (c.en = true → c.tenant = m.tenant → w.plot ∉ c.locals → exec (.collwRequest k) s = .next (say t (.trap .loadFault token))) ∧
    (c.en = true → c.tenant = m.tenant → w.plot ∈ c.locals → token.toNat / 256 % 256 = 0 → token.toNat / 2 ^ 32 = 0 →
      t.insts.find? (fun i => i.comm == id && i.seq == token.toNat / 2 ^ 16 % 2 ^ 16) = some i →
      (i.status = 1 ∨ (i.status = 0 ∧ ∀ q ∈ i.todo, ¬ Claims.ToWrite c i q) → exec (.collwRequest k) s = .next (say t flags)) ∧
      (i.status = 0 → (∃ q ∈ i.todo, Claims.ToWrite c i q) → exec (.collwRequest k) s = .next { t with insts := t.insts.map fun j =>
        if j.comm = id && j.seq = i.seq then { j with waiters := j.waiters ++ [w] } else j }) ∧
      (2 ≤ i.status → exec (.collwRequest k) s = .next (say t (Claims.brokenAnswer i.cause token (.words [.ofNat 64 (0x600 + i.flags % 64)] (i.flags % 64))))))) ∧
  (∀ (s t : State) (k x cause vch : Nat) (m : Packet) (q : Chunk), Claims.Arrives s k m t →
    (∀ y, y < 256 → ((t.comm y).en = true ∧ (t.comm y).tenant = m.tenant ∧ (t.comm y).vch = vch ↔ y = x)) → x < 256 →
    (m.body = .breakNotice vch cause → exec (.commBreakNotice k) s = .next (t.breakComm x cause)) ∧
    (m.body = .chunk q → q.vch = vch → (t.comm x).brk = true → exec (.chunkArrival k) s = .next t) ∧
    (m.body = .chunk q → q.vch = vch → (t.comm x).brk = false →
      let stage := fun (seq : Nat) (bad : Prop) =>
        let d := (q.seq + 2 ^ 16 - seq) % 2 ^ 16
        (d < 3 → (d ≠ 0 ∨ ¬ bad) → exec (.chunkArrival k) s = .next (t.modComm x fun c => { c with staged := c.staged ++ [{ q with arrived := t.now }] })) ∧
        (3 ≤ d → d < 32768 → exec (.chunkArrival k) s = .next (t.breakComm x 0x11)) ∧
        (32768 ≤ d ∨ d = 0 ∧ bad → exec (.chunkArrival k) s = .next (t.breakComm x 0x10))
      (t.insts.find? (fun i => i.comm == x && i.status == 0) = none → stage (t.comm x).seq False) ∧
      ∀ i, t.insts.find? (fun i => i.comm == x && i.status == 0) = some i → stage i.seq (¬ Claims.Signed q i))) ∧
  (∀ (s t : State) (k cause vch : Nat) (m : Packet) (q : Chunk), Claims.Arrives s k m t →
    (∀ y, y < 256 → ¬ ((t.comm y).en = true ∧ (t.comm y).tenant = m.tenant ∧ (t.comm y).vch = vch)) →
    (m.body = .breakNotice vch cause → exec (.commBreakNotice k) s = .next { t with mismatch := t.mismatch + 1 }) ∧
    (m.body = .chunk q → q.vch = vch → exec (.chunkArrival k) s = .next { t with mismatch := t.mismatch + 1 })) ∧
  ∀ (s : State) (x cause : Nat), ((s.comm x).brk = true → s.breakComm x cause = s) ∧
    ((s.comm x).brk = false → ∃ u : State, (u.comm x).brk = true ∧ (u.comm x).bcause = cause ∧ (u.comm x).reqs = [] ∧ (∀ i ∈ u.insts, i.comm = x → i.status ≠ 0) ∧
      u.pkg = s.pkg ∧
      let c := s.comm x
      (∀ (before after : List CollReq) (r : CollReq), c.reqs = before ++ r :: after → r.who.plot / 2 ^ 20 = s.pkg →
        let token : Word := .ofNat 64 (x + (c.seq + (before.filter fun q => q.who.plot == r.who.plot).length) % 2 ^ 16 * 2 ^ 16)
        ∃ m ∈ u.net, m.dst = .plot r.who.plot ∧ m.body = .rsp r.who (Claims.brokenAnswer cause token (.trap .storeFault r.ctl))) ∧
      let next := c.members.getD ((c.rank + 1) % (c.npk + 1)) 0
      s.breakComm x cause = if next = s.pkg then u else u.push ⟨.sys, .peer s.pkg, .peer next, c.tenant, .breakNotice c.vch cause⟩)

/-- R98, R282, R290, R293, R295, R296, R400: the datapath of a sluice. One chunk is in progress at a time: its step completes, and no other is taken
up; otherwise an urgent communicator's ready chunk goes first, and the next bulk communicator's in cyclic order. The chunk that a step needs leaves
the receive buffer, and a member's own bytes are read and merged with it; the step completes: bytes land at the local members, whose words become
full, or leave for the next rank. -/
def Sys2Proof.Stated.ChunksMove : Prop :=
  (∀ (s : State) (x : Nat) (i : Inst) (step : Nat × Nat × Nat), s.steps[x]? = some (i, step) →
    let c := s.comm i.comm
    let port := i.comm / 32
    (∀ k, (s.sluice port).taken = some k →
      (k.comm = i.comm ∧ k.seq = i.seq ∧ k.step = step → exec (.chunkTakeup x) s = .next (s.completeStep i k)) ∧
      (¬ (k.comm = i.comm ∧ k.seq = i.seq ∧ k.step = step) → exec (.chunkTakeup x) s = .next s)) ∧
    ((s.sluice port).taken = none →
      let turn := c.urg = true ∨ (s.urgent port = false ∧ s.nextBulk port = some i.comm)
      (i.ready c step = false → exec (.chunkTakeup x) s = .next s) ∧
      (i.ready c step = true → ¬ turn → exec (.chunkTakeup x) s = .next s) ∧
      (i.ready c step = true → turn → exec (.chunkTakeup x) s = .next (s.takeUp i step)))) ∧
  (∀ (s : State) (port n last : Nat), (s.sluice port).bulk = some last → s.nextBulk port = some n →
    let ready := fun (c : Nat) => ∃ (i : Inst) (step : Nat × Nat × Nat), (i, step) ∈ s.steps ∧ i.comm = c ∧ c / 32 = port ∧ (s.comm c).urg = false ∧
      i.ready (s.comm c) step = true
    let far := fun (c : Nat) => (c + 31 - last % 32) % 32
    ready n ∧ ∀ c, ready c → far n ≤ far c) ∧
  (∀ (s : State) (x p b o kind blk off : Nat) (i : Inst) (r : CollReq), Claims.TakesUp s x i (kind, blk, off) → kind < 2 → i.reqs = [r] → i.ahead = [] →
    Claims.Settled s r.src p b o → r.len % 8 = 0 → off % 8 = 0 →
    let c := s.comm i.comm
    let op := i.ctl.toNat / 2 ^ 8 % 16
    let at_ := (if op = 3 ∨ op = 4 then blk * r.len else 0) + off
    blk ≤ c.npk →
    let own := (List.range (min 4096 (r.len - off))).map fun j => (s.plot (p % 2 ^ 20)).bufs.byte b (o + (at_ + j))
    let holds := fun (u : State) (bs : List Byte) (fl inFl : Nat) => (u.sluice (i.comm / 32)).taken = some ⟨i.comm, i.seq, (kind, blk, off), bs, fl, inFl⟩ ∧
      u.plots = s.plots ∧ u.mem = s.mem ∧ (c.urg = false → (u.sluice (i.comm / 32)).bulk = some i.comm)
    (i.needs c (kind, blk, off) = false → ∃ u : State, exec (.chunkTakeup x) s = .next u ∧ holds u own 0 0) ∧
    ∀ k, i.needs c (kind, blk, off) = true → c.staged.find? (i.wants c (kind, blk, off)) = some k →
      (kind = 1 → ∃ u : State, exec (.chunkTakeup x) s = .next u ∧ holds u k.bytes k.flags k.flags ∧ (u.comm i.comm).staged = c.staged.erase k) ∧
      (kind = 0 → ∃ u : State, exec (.chunkTakeup x) s = .next u ∧ (u.comm i.comm).staged = c.staged.erase k ∧
        holds u (mergeChunks k.bytes own).1 (k.flags ||| 0 ||| (mergeChunks k.bytes own).2) k.flags)) ∧
  (∀ (s : State) (x blk off : Nat) (i : Inst) (k : Taken), Claims.InProgress s x i k → k.step = (0, blk, off) → (s.comm i.comm).rank ≠ blk →
    let c := s.comm i.comm
    let next := c.members.getD ((c.rank + 1) % (c.npk + 1)) 0
    let j : Inst := { i with todo := i.todo.erase k.step }
    ∃ u : State, (u.sluice (i.comm / 32)).taken = none ∧ u.plots = s.plots ∧ u.mem = s.mem ∧ u.net = s.net ∧ u.link = s.link ∧ (u.comm i.comm).out = c.out + 1 ∧
      exec (.chunkTakeup x) s = .next ((u.push ⟨.chi, .peer s.pkg, .peer next, c.tenant, .chunk {
        vch := c.vch, tenant := c.tenant, seq := i.seq, op := i.ctl.toNat / 2 ^ 8 % 16, len := i.len, root := i.ctl.toNat / 2 ^ 16 % 2 ^ 16, b := i.ctl.getLsbD 12,
        kind := 0, block := blk, off := off, bytes := k.bytes, flags := k.flags, hops := 0, arrived := 0 }⟩).finishInst j)) ∧
  ∀ (s : State) (x p b o kind blk off : Nat) (i : Inst) (r : CollReq) (k : Taken), Claims.InProgress s x i k → k.step = (kind, blk, off) →
    (kind = 1 ∨ kind = 0 ∧ (s.comm i.comm).rank = blk) → i.reqs = [r] → i.held = [] → Claims.Settled s r.dst p b o → r.len % 8 = 0 → off % 8 = 0 →
    k.bytes.length % 8 = 0 →
    let op := i.ctl.toNat / 2 ^ 8 % 16
    let place := fun (q : Nat × Nat × Nat) => (if op = 2 ∨ op = 4 then q.2.1 * r.len else 0) + q.2.2
    let at_ := place k.step
    (∀ q ∈ i.todo.erase k.step, q.1 < 2 → q.2.2 % 8 = 0 ∧ (place q + min 4096 (r.len - q.2.2) ≤ at_ ∨ at_ + k.bytes.length ≤ place q)) →
    ∃ u : State, exec (.chunkTakeup x) s = .next u ∧ (u.sluice (i.comm / 32)).taken = none ∧
      u.mem = s.mem ∧ (∀ q, q ≠ p % 2 ^ 20 → u.plot q = s.plot q) ∧
      let new := (u.plot (p % 2 ^ 20)).bufs
      let old := (s.plot (p % 2 ^ 20)).bufs
      (∀ j v, k.bytes[j]? = some v → new.byte b (o + at_ + j) = v) ∧
      (∀ c j, c < 3 → c ≠ b ∨ j < o + at_ ∨ o + at_ + k.bytes.length ≤ j → new.byte c j = old.byte c j) ∧
      ∀ c w, c < 3 → new.wordEmpty c w = (old.wordEmpty c w && !decide (c = b ∧ (o + at_) / 8 ≤ w ∧ 8 * w < o + at_ + k.bytes.length))

/-! ## Events: Lintil -/

namespace Sys2Proof.Claims

open Sys2Proof Sys2Proof.Machine

/-- R298, R299, R301: a received frame of a kind, taken, with the connection that it names, whose state is in the cache: its TS is the latest
received, and the state is the most recently used. -/
structure Frames (s t : State) (k kind : Nat) (f : Frame) (x : Conn) (i : Nat) : Prop where
  frame : s.link.rx[k]? = some f
  kind_ : f.pause = false ∧ f.kind = kind
  conn : s.connOf f = some (x, i)
  cached : x.spilled = false
  taken : t = ({ s with link := { s.link with rx := s.link.rx.eraseIdx k } } : State).setConn i { x with lastTse := f.ts, used := s.now }

/-- R303, R243: a packet that has come by a frame of a tenant: it carries that tenant, and its entries of this package are local ones. -/
def received (pkg tenant : Nat) (m : Packet) : Packet :=
  { m with tenant := tenant, body := match m.body with
    | .inv i => .inv { i with caps := i.caps.map fun g => { g with home := if g.home = some pkg then none else g.home } }
    | b => b }

/-- A connection state of a headworks' cache. -/
def Cached (port : Nat) (x : Conn) : Prop := x.port / 2 = port / 2 ∧ x.spilled = false ∧ x.state ≤ 1

end Sys2Proof.Claims

/-- R297 to R303: a data frame in order delivers its packet for the frame's tenant, and those kept behind it; what addresses a plot, memory or a
communicator of another is dropped and counted at the port; one before is acknowledged again, one ahead is kept or asked
for; an acknowledgement frees frames; a nack has them sent again; an open frame waits for a spilled connection's state, and opens a connection where
there is a route and room (its index in SEQ is the model's choice, log entry 109), and an open-ack completes one; a close fails what was not acknowledged; PAUSE frames and unknown kinds are discarded, the latter counted. -/
def Sys2Proof.Stated.LintilFrames : Prop :=
  (∀ (s t : State) (k i : Nat) (f : Frame) (x : Conn) (m : Packet), Claims.Frames s t k 0 f x i → f.body = some m →
    let u := t.ackPart i f
    ∀ y, u.link.conns[i]? = some y →
      let c := y.chan f.ch
      (f.seq = c.recvSeq → c.kept = [] → ((c.recvSeq + 1) % 2 ^ 32 + 2 ^ 32 - c.ackSeq) % 2 ^ 32 < 8 → exec (.lintilData k) s =
        .next ((u.setConn i ((y.setChan f.ch { c with recvSeq := (c.recvSeq + 1) % 2 ^ 32 }).answered m)).portTake y.port f.ten m)) ∧
      (f.seq = c.recvSeq → c.kept = [] → 8 ≤ ((c.recvSeq + 1) % 2 ^ 32 + 2 ^ 32 - c.ackSeq) % 2 ^ 32 → exec (.lintilData k) s =
        .next (((u.setConn i ((y.setChan f.ch { c with recvSeq := (c.recvSeq + 1) % 2 ^ 32 }).answered m)).portTake y.port f.ten m).sendAck i f.ch)) ∧
      (f.seq ≠ c.recvSeq → seqBefore f.seq c.recvSeq = true → exec (.lintilData k) s = .next (u.sendAck i f.ch)) ∧
      (f.seq ≠ c.recvSeq → seqBefore f.seq c.recvSeq = false → c.kept.length < keptFrames → (∀ e ∈ c.kept, e.1 ≠ f.seq) →
        exec (.lintilData k) s = .next (u.setConn i (y.setChan f.ch { c with kept := c.kept ++ [(f.seq, m)] }))) ∧
      (f.seq ≠ c.recvSeq → seqBefore f.seq c.recvSeq = false → keptFrames ≤ c.kept.length →
        exec (.lintilData k) s = .next ((u.setConn i (y.setChan f.ch { c with ackSeq := c.recvSeq, cred := 0 })).transmit (u.frame y 2 f.ch c.recvSeq none)))) ∧
  (∀ (s : State) (m : Packet), (m.tenant = 0 → s.foreignTo m = false) ∧ (m.tenant ≠ 0 →
    (∀ a b c, m.body = .dirMap a b c → (s.foreignTo m = true ↔ (s.plot (a.toNat / 2 ^ 28 % 2 ^ 20)).tenant ≠ m.tenant)) ∧
    (∀ id, m.dst = .plot id → (∀ a b c, m.body ≠ .dirMap a b c) → (s.foreignTo m = true ↔ (s.plot (id % 2 ^ 20)).tenant ≠ m.tenant)) ∧
    (∀ g a, m.dst = .peer g → m.body = .acc a → (s.foreignTo m = true ↔ s.owns m.tenant a.addr = false)) ∧
    (∀ q, (∀ id, m.dst ≠ .plot id) → m.body = .gate q → (s.foreignTo m = true ↔ s.owns m.tenant q.target = false)) ∧
    (∀ g f w bs full, m.dst = .peer g → m.body = .copyOut f w bs full → (s.foreignTo m = true ↔ ∃ b ∈ bs, s.owns m.tenant b.1 = false)))) ∧
  (∀ (s : State) (port tenant : Nat) (m : Packet), let m' := Claims.received s.pkg tenant m
    (s.foreignTo m' = false → s.portTake port tenant m = s.pushLocal m') ∧
    (s.foreignTo m' = true → ∃ u : State, s.portTake port tenant m = u.refused m' ∧ u = { s with link := { s.link with mismatch := u.link.mismatch } } ∧
      ∀ q, Sparse.get 0 u.link.mismatch q = Sparse.get 0 s.link.mismatch q + if q = port then 1 else 0)) ∧
  (∀ (s t : State) (k i : Nat) (f : Frame) (x : Conn), (Claims.Frames s t k 1 f x i → exec (.lintilAck k) s = .next (t.ackPart i f)) ∧
    (Claims.Frames s t k 2 f x i → exec (.lintilNack k) s = .next ((t.ackPart i f).resendFrom i f.ch f.seq)) ∧
    (Claims.Frames s t k 4 f x i → exec (.lintilOpenAck k) s =
      .next ((t.setConn i { x with remote := f.seq, state := 1, lastTse := f.ts, used := s.now }).drain i)) ∧
    (Claims.Frames s t k 5 f x i → exec (.lintilClose k) s = .next (t.failConn i))) ∧
  ∀ (s : State) (k : Nat) (f : Frame), s.link.rx[k]? = some f →
    let t : State := { s with link := { s.link with rx := s.link.rx.eraseIdx k } }
    (f.pause = true → exec (.pauseFrameReceive k) s = .next t) ∧
    (f.pause = false → f.kind = 1 → s.connOf f = none → exec (.lintilAck k) s = .next { t with link := { t.link with dropped := s.link.dropped + 1 } }) ∧
    (∀ x i, f.pause = false → f.kind = 1 → s.connOf f = some (x, i) → x.spilled = true → exec (.lintilAck k) s = .next s) ∧
    (f.pause = false → f.kind = 3 → (∃ x ∈ s.link.conns, x.peer = f.spkg ∧ x.tenant = f.ten ∧ x.state ≤ 1 ∧ x.spilled = true) →
      exec (.lintilOpen k) s = .next s) ∧
    (f.pause = false → 5 < f.kind → exec (.lintilUnknownKind k) s = .next { t with link := { t.link with dropped := s.link.dropped + 1 } }) ∧
    (f.pause = false → f.kind = 3 → (∀ c ∈ s.link.conns, ¬ (c.peer = f.spkg ∧ c.tenant = f.ten ∧ c.state ≤ 1)) →
      ((∀ r ∈ s.link.routes, r.1 ≠ f.spkg) → ∃ r : Frame, exec (.lintilOpen k) s = .next (t.transmit r) ∧ r.kind = 5 ∧ r.conn = f.seq ∧ r.dpkg = f.spkg) ∧
      (∀ port, s.link.routes.find? (fun r => r.1 == f.spkg) = some (f.spkg, port) → s.link.conns.length < 2048 → ∃ (u : State) (x : Conn) (r : Frame),
        exec (.lintilOpen k) s = .next (u.transmit r) ∧ r.kind = 4 ∧ r.conn = f.seq ∧ r.seq = x.local_ ∧ u.link.conns = s.link.conns ++ [x] ∧
          x.state = 1 ∧ x.remote = f.seq ∧ x.peer = f.spkg ∧ x.tenant = f.ten ∧ x.window = 65536))

/-- R300 to R302: the receiver's timer acknowledges each channel that owes it; a timeout sends frames again, the oldest first, or the open frame of a
connection that is opening, and the sixteenth in a row fails the connection; a spilled state, once it is written, comes back into the cache; for a new
one the least recently used of its headworks goes to a free place of the host area, 256 bytes whose values are free. An acknowledgement frees the frames
before it, and moves the smoothed round trip and the window. -/
def Sys2Proof.Stated.LintilTimers : Prop :=
  (∀ (s : State) (k : Nat) (x : Conn), s.link.conns[k]? = some x →
    (x.state = 1 → x.spilled = false → exec (.ackTimer k) s =
      .next ((x.chans.filter fun c => c.2.recvSeq != c.2.ackSeq || c.2.cred != 0).foldl (fun s c => s.sendAck k c.1) s)) ∧
    (x.state ≠ 1 → exec (.ackTimer k) s = .next s) ∧
    (∀ at_, (x.state = 1 ∧ x.oldest = some at_) ∨ (x.state = 0 ∧ x.asking = at_) → x.spilled = false →
      let t := s.setConn k { x with timeouts := x.timeouts + 1, asking := s.now }
      (s.now < at_ + 8 * s.target x → exec (.retransmitTimeout k) s = .next s) ∧
      (at_ + 8 * s.target x ≤ s.now → 15 ≤ x.timeouts → exec (.retransmitTimeout k) s = .next (s.failConn k)) ∧
      (at_ + 8 * s.target x ≤ s.now → x.timeouts < 15 →
        (x.state = 1 → exec (.retransmitTimeout k) s = .next (x.chans.foldl (fun s c => match c.2.unacked with
          | u :: _ => s.resendFrom k c.1 u.1
          | [] => s) t)) ∧
        (x.state = 0 → ∃ r : Frame, exec (.retransmitTimeout k) s = .next (t.transmit r) ∧ r.kind = 3 ∧ r.seq = x.local_ ∧ r.dpkg = x.peer ∧ r.ten = x.tenant))) ∧
    (x.spilled = false → exec (.connectionStateFetch k) s = .next s) ∧
    let writing := ∃ area len, s.link.spillArea = some (area, len) ∧ ∃ e ∈ s.link.spills, e.1 = area + 256 * x.place
    (x.spilled = true → writing → exec (.connectionStateFetch k) s = .next s) ∧
    (x.spilled = true → ¬ writing → s.link.conns.length ≤ 2048 → ∃ u : State, exec (.connectionStateFetch k) s = .next (u.drain k) ∧
      u.link.conns[k]? = some { x with spilled := false, used := s.now })) ∧
  (∀ (s u : State) (port : Nat), s.connRoom port = some u → u ≠ s → ∃ (i n area len : Nat) (x : Conn) (bs : List Byte), s.link.conns[i]? = some x ∧
    Claims.Cached port x ∧ (∀ y ∈ s.link.conns, Claims.Cached port y → x.used ≤ y.used) ∧ s.link.spillArea = some (area, len) ∧ n < len / 256 ∧
    (∀ y ∈ s.link.conns, y.spilled = true → y.state ≤ 1 → y.place ≠ n) ∧ bs.length = 256 ∧ u = { s with link := { s.link with
      conns := s.link.conns.set i { x with spilled := true, place := n }, spills := s.link.spills ++ [(area + 256 * n, bs)] } }) ∧
  (∀ (s : State) (i ch from_ : Nat) (x : Conn), s.link.conns[i]? = some x → ∃ fs : List Frame, (s.resendFrom i ch from_).link.tx = s.link.tx ++ fs ∧
    fs.map (fun f => (f.seq, f.body)) = ((x.chan ch).unacked.filter fun u => !seqBefore u.1 from_).map (fun u => (u.1, some u.2.1)) ∧
    ∀ f ∈ fs, f.kind = 0 ∧ f.ch = ch ∧ f.dpkg = x.peer ∧ f.ten = x.tenant ∧ f.ack = (x.chan ch).recvSeq) ∧
  ∀ (s : State) (i : Nat) (f : Frame) (x : Conn), s.link.conns[i]? = some x →
    let c := x.chan f.ach
    let b := ((c.unacked.filter fun u => seqBefore u.1 f.ack).map fun u => u.2.1.bytes).sum
    ∃ (u : State) (y : Conn), s.ackPart i f = u.drain i ∧ u.link.conns[i]? = some y ∧ y.queue = x.queue ∧
      (y.chan f.ach).unacked = c.unacked.filter (fun u => !seqBefore u.1 f.ack) ∧ (∀ ch, ch ≠ f.ach → y.chan ch = x.chan ch) ∧
      (b = 0 → y.window = x.window ∧ y.srtt = x.srtt ∧ y.timeouts = x.timeouts) ∧
      (b ≠ 0 →
        let r : Nat := (s.now % 2 ^ 32 + 2 ^ 32 - f.tse) % 2 ^ 32
        let target : Nat := s.target x
        let clamp := fun (w : Nat) => max 4150 (min w (16 * 2 ^ 20))
        y.timeouts = 0 ∧ (y.srtt : Int) = x.srtt + Int.tdiv ((r : Int) - x.srtt) 8 ∧
        (r < target → y.window = clamp (x.window + 4150 * b / x.window)) ∧
        (target ≤ r → x.cutLeft = 0 → y.window = clamp (x.window - x.window * (r - target) / (2 * r)) ∧ y.cutLeft = y.window) ∧
        (target ≤ r → x.cutLeft ≠ 0 → y.window = x.window ∧ y.cutLeft = x.cutLeft - b))

/-- R298, R299, R302: a frame's header, whose bytes are sent most significant first; a connection sends what goes first, of the SYS channel or of
an urgent communicator, and else a packet of the next channel in turn that has one, the channel's oldest; a packet leaves when the connection
is open and the window has room. -/
def Sys2Proof.Stated.LintilSends : Prop :=
  (∀ f : Frame, f.kind < 16 → f.spkg < 65536 → f.dpkg < 65536 → f.ten < 65536 → f.conn < 8192 → f.ch < 256 → f.seq < 2 ^ 32 → f.ack < 2 ^ 32 → f.ach < 256 →
    f.ts < 2 ^ 32 → f.tse < 2 ^ 32 → f.len < 65536 → f.cred < 256 →
    let part := fun (hi lo : Nat) => f.header.toNat / 2 ^ lo % 2 ^ (hi - lo + 1)
    part 255 252 = 1 ∧ part 251 248 = f.kind ∧ part 247 232 = f.spkg ∧ part 231 216 = f.dpkg ∧ part 215 200 = f.ten ∧ part 199 187 = f.conn ∧
    part 186 184 = 0 ∧ part 183 176 = f.ch ∧ part 175 144 = f.seq ∧ part 143 112 = f.ack ∧ part 111 104 = f.ach ∧ part 103 72 = f.ts ∧
    part 71 40 = f.tse ∧ part 39 24 = f.len ∧ part 23 16 = f.cred ∧ part 15 0 = 0 ∧
    ∀ i, i < 32 → f.headerBytes[i]? = some (.ofNat 8 (f.header.toNat / 256 ^ (31 - i)))) ∧
  (∀ (s : State) (x : Conn), (x.queue = [] → s.nextOut x = none) ∧
    ∀ k j, s.nextOut x = some (k, j) → x.queue[j]? = some k ∧
      (∀ i q, i < j → x.queue[i]? = some q → q.channel = k.channel → s.goesFirst x.tenant q ≠ s.goesFirst x.tenant k) ∧
      (s.goesFirst x.tenant k = false → (∀ q ∈ x.queue, s.goesFirst x.tenant q = false) ∧
        ∀ q ∈ x.queue, (k.channel + 255 - x.turn) % 256 ≤ (q.channel + 255 - x.turn) % 256)) ∧
  ∀ (s : State) (i n : Nat) (x : Conn) (k : Packet) (j : Nat), s.link.conns[i]? = some x → s.nextOut x = some (k, j) →
    (x.state = 1 ∧ x.spilled = false ∧ x.inFlight + k.bytes ≤ x.window → drainConn (n + 1) s i = drainConn n
      ((s.setConn i (x.sent k j s.cycle.toNat (s.goesFirst x.tenant k))).transmit (s.frame x 0 k.channel (x.chan k.channel).sendSeq (some k))) i) ∧
    (¬ (x.state = 1 ∧ x.spilled = false ∧ x.inFlight + k.bytes ≤ x.window) → drainConn (n + 1) s i = s)

/-! ## Events: a plot's hardware, and its debug port -/

namespace Sys2Proof.Claims

open Sys2Proof Sys2Proof.Machine

/-- R330, R21: an operation of a debug session for a plot of its partition, first in its turn, has been taken. -/
structure Debugs (s t : State) (k : Nat) (op : DbgOp) (p : Nat) : Prop where
  request : ∃ q, s.dbgOps[k]? = some q ∧ q.op = op ∧ q.tenant = (s.plot p).tenant
  plot : op.plot = p ∧ plotOk p = true ∧ p < 2 ^ 20
  turn : ∀ e ∈ s.dbgOps.take k, e.op.plot ≠ p
  taken : t = { s with dbgOps := s.dbgOps.eraseIdx k }

/-- The port's answer. -/
def portSays (s : State) (r : DbgReply) : State := { s with dbgReplies := s.dbgReplies ++ [r] }

end Sys2Proof.Claims

/-- R332 to R336, R388: a threshold's window ends at its multiples of 1,024 cc; a task blocked on one instruction is counted once every 2^24 cc; the
scrubber corrects every row that can be, and bytes read as before; a rebuilt square holds what could be decoded; an idle plot sleeps after
4,096 cc, and its sweep ends. -/
def Sys2Proof.Stated.PlotCare : Prop :=
  (∀ (s : State) (p k : Nat), let x := Sparse.get Thr.reset (s.plot p).thr k
    (x.win ≠ 0 → s.now % (x.win * 1024) = 0 → ∃ u : State, exec (.thresholdWindowReset p k) s = .next u ∧
      Sparse.get Thr.reset (u.plot p).thr k = { x with cnt := 0, fired := false } ∧ ∀ c, u.ctx p c = s.ctx p c) ∧
    (x.win = 0 ∨ s.now % (x.win * 1024) ≠ 0 → exec (.thresholdWindowReset p k) s = .next s)) ∧
  (∀ (s : State) (p k since : Nat), k < 4 → (s.ctx p k).blockedSince = some since → (s.ctx p k).live = true →
    let periods := (s.now - since) / 2 ^ 24
    let counted := if (s.ctx p k).watched.1 = since then (s.ctx p k).watched.2 else 0
    (periods ≤ counted → exec (.watchdog p k) s = .next s) ∧
    (counted < periods → ∃ u : State, exec (.watchdog p k) s = .next (u.countAt p 11) ∧
      u.ctx p k = { s.ctx p k with watched := (since, counted + 1) } ∧ Claims.OthersSame s u p k)) ∧
  (∀ (s : State) (p : Nat), ∃ u : State, exec (.scrub p) s = .next u ∧ (∀ b o, (u.plot p).bufs.byte b o = (s.plot p).bufs.byte b o ∧
      (u.plot p).bufs.wordEmpty b o = (s.plot p).bufs.wordEmpty b o) ∧ (∀ q, q ≠ p → u.plot q = s.plot q) ∧ ∀ c, u.ctx p c = s.ctx p c) ∧
  (∀ (s : State) (p k : Nat), k ∈ (s.plot p).bufs.rebuilding → ∃ u : State, exec (.squareRebuildComplete p k) s = .next u ∧
    k ∉ (u.plot p).bufs.rebuilding ∧ (∀ b o, (u.plot p).bufs.byte b o = (s.plot p).bufs.byte b o) ∧ Sparse.get 0 (u.plot p).bufs.corrections k = 0 ∧
    ∀ i, i < 1024 → (∀ q, q ∈ (s.plot p).bufs.wrong (k / 64) i → q = k % 64) → Sparse.get 0 (u.plot p).bufs.errs (errKey (k / 64) i (k % 64)) = 0) ∧
  ∀ (s : State) (p : Nat), let u := Claims.noticed s p
    ((u.plot p).sched.asleep = false → (u.plot p).sched.idleSince + 4096 ≤ s.now → ∃ t : State, exec (.retentionEnter p) s = .next t ∧
      (t.plot p).sched.asleep = true ∧ ∀ c, t.ctx p c = u.ctx p c) ∧
    ∃ t : State, exec (.paritySweepComplete p) s = .next t ∧ (t.plot p).sched.sweep = false ∧ (∀ c, t.ctx p c = s.ctx p c) ∧ ∀ q, q ≠ p → t.plot q = s.plot q

/-- R178, R309, R321, R323, R335: the plot's own CSRs: what a write leaves, through the field rules; a write of PTROOT empties the micro-TLB. -/
def Sys2Proof.Stated.PlotCsrWrites : Prop :=
  ∀ (s : State) (p k : Nat) (w : Word),
    exec (.ptrootWrite p w) s = .next (s.writePtroot p w) ∧ exec (.objentWrite p k w) s = .next (s.writeObjent p (k % 16) w) ∧
    exec (.chentWrite p k w) s = .next (s.writeChent p (k % 64) w) ∧ exec (.cisternWrite p w) s = .next (s.writeCistern p w) ∧
    exec (.sqstatWrite p w) s = .next (s.writeSqstat p w) ∧ ((s.writePtroot p w).plot p).utlb = [] ∧
    (((s.writeChent p (k % 64) w).plot p).chan (k % 64)).en = bitw w 31 ∧ (∀ j, j ≠ k % 64 → ((s.writeChent p (k % 64) w).plot p).chan j = (s.plot p).chan j) ∧
    (∀ j, j ≠ k % 16 → ((s.writeObjent p (k % 16) w).plot p).obj j = (s.plot p).obj j) ∧ (((s.writeObjent p (k % 16) w).plot p).obj (k % 16)).v = bitw w 63

/-- R326, R330, R331: the debug port: halt, resume, deliver and step act on a context, and on a spilled task by its image; registers, CSRs, buffers,
the instruction store and the template are read and written; a snapshot is of one cycle, of the task table (R14) with the started tasks (R402), the records, the active barriers (R253),
the connections (R302); of what partitions share it shows the partition's own. An operation on a plot of another partition is refused and counted. -/
def Sys2Proof.Stated.DebugPort : Prop :=
  ∀ (s t : State) (k p c : Nat),
    (∀ q, s.dbgOps[k]? = some q → (∀ e ∈ s.dbgOps.take k, e.op.plot ≠ p) → q.op = .resume p c → q.tenant ≠ (s.plot p).tenant →
      exec (.debugResume k) s = .next (Claims.portSays (({ s with dbgOps := s.dbgOps.eraseIdx k } : State).mismatchAt p) .refused)) ∧
    (Claims.Debugs s t k (.halt p c) p → c < 4 → (t.ctx p c).live = true → (t.ctx p c).ended = false → (t.ctx p c).furrow.leader = none →
      ∃ u : State, exec (.debugHalt k) s = .next (Claims.portSays u .done) ∧ (u.ctx p c).regs = (t.ctx p c).regs ∧
        ((t.ctx p c).pair = none → (t.ctx p c).hold = none → (t.plot p).engine.running ≠ some c → (u.ctx p c).halted = true) ∧
        ((t.ctx p c).pair.isSome = true ∨ (t.ctx p c).hold.isSome = true → (u.ctx p c).haltReq = true)) ∧
    (Claims.Debugs s t k (.halt p c) p → c < 4 → (t.ctx p c).live = false → exec (.debugHalt k) s = .next (Claims.portSays t .refused)) ∧
    (∀ y n, 4 ≤ c → Claims.Debugs s t k (.resume p c) p → (t.plot p).sched.images[c - 4]? = some (y, n) → ∃ u : State, exec (.debugResume k) s =
      .next (Claims.portSays u .done) ∧ Claims.OnlyPlot t u p ∧ (∀ j, u.ctx p j = t.ctx p j) ∧ (u.plot p).sched.images =
        (t.plot p).sched.images.set (c - 4) ({ y with halted := false, haltReq := false, hotTrap := none, dbgStep := false }, n)) ∧
    (Claims.Debugs s t k (.resume p c) p → c < 4 → exec (.debugResume k) s =
      .next (Claims.portSays (t.modCtx p c fun y => { y with halted := false, haltReq := false, hotTrap := none, dbgStep := false }) .done)) ∧
    (Claims.Debugs s t k (.stepOne p c) p → c < 4 → (t.ctx p c).furrow.leader = none → exec (.debugStep k) s =
      .next (Claims.portSays (t.modCtx p c fun y => { y with halted := false, haltReq := false, hotTrap := none, dbgStep := true }) .done)) ∧
    (Claims.Debugs s t k (.deliver p c) p → c < 4 → ∀ a v e b, (t.ctx p c).halted = true → (t.ctx p c).hotTrap = some (a, v, e, b) → exec (.debugDeliver k) s =
      .next (Claims.portSays ((t.modCtx p c fun y => { y with halted := false, haltReq := false, hotTrap := none, dbgStep := false }).enterTrap p c a v e b) .done)) ∧
    (∀ r, Claims.Debugs s t k (.regRead p c r) p → c < 4 → r < 60 → exec (.debugRegRead k) s =
      .next (Claims.portSays t (.register (((t.ctx p c).regs.gv r).setWidth 256) (!(t.ctx p c).regs.isEmpty r)))) ∧
    (∀ r v fe, Claims.Debugs s t k (.regWrite p c r v fe) p → c < 4 → (t.ctx p c).pending r = false → (t.ctx p c).multi = [] → 0 < r → r < 60 →
      ∃ u : State, exec (.debugRegWrite k) s = .next (Claims.portSays u .done) ∧ (u.ctx p c).regs.gv r = v.setWidth 64 ∧
        (u.ctx p c).regs.isEmpty r = !(fe.getD true) ∧ (∀ j, j ≠ r → (u.ctx p c).regs.gv j = (t.ctx p c).regs.gv j ∧
          (u.ctx p c).regs.isEmpty j = (t.ctx p c).regs.isEmpty j) ∧ Claims.OthersSame t u p c) ∧
    (∀ n, Claims.Debugs s t k (.csrRead p c n) p → c < 4 → csrKnown n = true → exec (.debugCsrRead k) s = .next (Claims.portSays t (.csr (t.csrRead p c n)))) ∧
    (∀ n w, Claims.Debugs s t k (.csrWrite p c n w) p → c < 4 → csrKnown n = true → csrReadOnly n = false →
      exec (.debugCsrWrite k) s = .next (Claims.portSays (t.csrWrite p c n w) .done)) ∧
    (∀ b o n, Claims.Debugs s t k (.bufRead p b o n) p → o + n ≤ Claims.lengthOf b → (t.plot p).bufs.errs = [] → ∃ fe, exec (.debugBufferRead k) s =
      .next (Claims.portSays t (.bytes ((List.range n).map fun i => (t.plot p).bufs.byte b (o + i)) fe))) ∧
    (∀ b o bs, Claims.Debugs s t k (.bufWrite p b o bs none) p → b < 3 → o + bs.length ≤ Claims.lengthOf b → ∃ u : State,
      exec (.debugBufferWrite k) s = .next (Claims.portSays u .done) ∧ (∀ (i : Nat) (v : Byte), bs[i]? = some v → (u.plot p).bufs.byte b (o + i) = v ∧
        (u.plot p).bufs.wordEmpty b ((o + i) / 8) = false) ∧ (∀ i, i < o ∨ o + bs.length ≤ i → (u.plot p).bufs.byte b i = (t.plot p).bufs.byte b i) ∧
      ∀ j, u.ctx p j = t.ctx p j) ∧
    (∀ n, Claims.Debugs s t k (.snapshot p n) p → exec (.debugSnapshot k) s = .next (Claims.portSays t (t.snapshot p n))) ∧
    t.snapshot p .store = .store t.now (t.plot p).istore ∧
    t.snapshot p .tasks = .tasks t.now (t.plot p).chans (t.plot p).queues (((List.range 4).map fun c => (c, t.ctx p c)).filter (·.2.live)) ((t.plot p).sched.images.map (·.1))
      (Sparse.get [] t.started p) ∧
    t.snapshot p .turnout = .turnout t.now (t.plot p).records (t.recLogs.filterMap fun l => if l.1 / 4096 = p then some (l.1 % 4096, l.2) else none) ∧
    (∃ bs, t.snapshot p .barriers = .barriers t.now bs ∧ ∀ b, b ∈ bs ↔ b ∈ (t.field (fieldOf p)).barriers.take 16 ∧
      ∀ q ∈ rectPlots b.rect, (t.plot (q % 2 ^ 20)).tenant = (t.plot p).tenant) ∧
    t.snapshot p .links = .links t.now ((t.link.conns.filter fun c => c.tenant == (t.plot p).tenant).map fun c => ⟨c.peer, c.port, c.state, c.window, c.srtt⟩) ∧
    (∀ id, (t.comm id).tenant ≠ (t.plot p).tenant → t.snapshot p (.comm id) = .refused) ∧
    (∀ a w, Claims.Debugs s t k (.istoreWrite p a w) p → a % 4 = 0 → a ≤ 0x1FFC → ∃ u : State, exec (.debugIstoreWrite k) s = .next (Claims.portSays u .done) ∧
      (u.plot p).word a = w ∧ (∀ b, b % 4 = 0 → b ≠ a → (u.plot p).word b = (t.plot p).word b) ∧ ∀ j, u.ctx p j = t.ctx p j) ∧
    (∀ x, Claims.Debugs s t k (.template p x) p → exec (.debugTemplateWrite k) s = .next (Claims.portSays (t.modPlot p fun y => { y with tmpl := x.clean }) .done))

/-! ## Events: the host, Damkar, and start-up -/

namespace Sys2Proof.Claims

open Sys2Proof Sys2Proof.Machine

/-- R376 to R378: an operation of the host, first of its kind, has been taken. -/
structure HostDoes (s t : State) (k : Nat) (kind : HostOp → Bool) (op : HostOp) : Prop where
  request : s.host.ops[k]? = some op
  turn : ∀ e ∈ s.host.ops.take k, kind e = false
  taken : t = { s with host := { s.host with ops := s.host.ops.eraseIdx k } }

/-- R380: Damkar runs, and a command waits in its mailbox. -/
structure Commands (s : State) (code : Nat) (p : Payload) : Prop where
  go : s.host.mailbox.go = true
  code_ : s.host.mailbox.code = code
  payload : s.host.mailbox.payload = p
  stage : s.stage = 5

/-- R380: a command has ended with a status and what it returns. -/
def ended (s : State) (status : Nat) (reply : List Word) : State :=
  { s with host := { s.host with mailbox := { s.host.mailbox with go := false, done := true, status := status, reply := reply } } }

/-- R380, R201: the partition of a tenant, at a boundary of its quanta. -/
def Parted (s : State) (tenant : Nat) (q : Part) : Prop := s.part tenant = some q ∧ s.atBoundary q = true

/-- R383, R385: an SPDM request of a code, in the protocol's version and first in its turn, at stage 4 or later, has been taken. -/
structure Spdm_ (s t : State) (k code : Nat) (bs : List Byte) : Prop where
  request : s.host.ops[k]? = some (.spdm bs)
  code_ : (bs.getD 1 0).toNat = code
  version : (bs.getD 0 0).toNat = if code = 0x84 then 0x10 else 0x12
  stage : 4 ≤ s.stage
  turn : ∀ o ∈ s.host.ops.take k, ∀ b, o ≠ .spdm b
  taken : t = { s with host := { s.host with ops := s.host.ops.eraseIdx k } }

/-- R385: the answer to an SPDM request, and what the session is after it. -/
def replies (s : State) (ans : List Byte) (x : Spdm) : State :=
  { s with host := { s.host with replies := s.host.replies ++ [ans], spdm := x } }

/-- R385: ERROR, which leaves the session as it is. -/
def failsWith (s : State) (why data : Nat) : State := replies s [0x12, 0x7F, .ofNat 8 why, .ofNat 8 data] s.host.spdm

/-- A measurement block of SPDM 1.2 (log entry 54): its index, DMTF's form, and a SHA-384 digest of firmware. -/
def measured (s : State) (i : Nat) : List Byte := [.ofNat 8 i, 1, 51, 0, 1, 48, 0] ++ digestBytes (s.measurement i)

end Sys2Proof.Claims

/-- R376 to R378, R380, R387, R206, R236: the host's window reads HBM through its granules, all ones where there is none, and writes it but for active headgate
records, with no sector bit changed; a word of a slot is written; GO = 1 in a slot's control word makes the proxy invoke with the words as they stand, or refuses the slot; BAR0 reads
as its words, and a write of CMD starts a command while none runs, whose payload stays as it is; event records are read; a record of the host
is given up; the runtime waits for a command that runs; a launch goes when an IMAGE.LOAD has succeeded and the other packages that it names are loaded
(log entry 97), by a slot, after those before it, to an object, or to plots as one multicast (R213, R367, R370);
configuration space is written and read, with values of its own (R375). What CMD's and the payload's writes do while a command runs, and that the
payload has no layout of its own, is the model's (log entry 56); so is that a write of CTL while GO = 1 and writes of words 11 to 15 are discarded (log
entry 53), and how the host says that it has read records (log entry 24). -/
def Sys2Proof.Stated.HostWindow : Prop :=
  ∀ (s t : State) (k : Nat),
    (∀ a n, Claims.HostDoes s t k HostOp.isWindow (.windowRead a n) → exec (.hostWindowRead k) s = .next { t with host := { t.host with
      replies := t.host.replies ++ [(List.range n).map fun i => match Sparse.get none s.host.windows ((a + i) / 2 ^ 30) with
        | some g => Sparse.get 0 s.mem.hbm (g.1 + (a + i) % 2 ^ 30)
        | none => 255] } }) ∧
    (∀ a bs, Claims.HostDoes s t k HostOp.isWindow (.windowWrite a bs) → ∃ u : State, exec (.hostWindowWrite k) s = .next u ∧ u.plots = s.plots ∧
      u.mem.fe = s.mem.fe ∧ ∀ (g i : Nat) (w : Nat) (v : Byte), Sparse.get none s.host.windows g = some (w, i) → w % 2 ^ 30 = 0 → bs = [v] → a / 2 ^ 30 = g →
        Sparse.get false s.mem.gate ((w + a % 2 ^ 30) / 64) = false → Sparse.get 0 u.mem.hbm (w + a % 2 ^ 30) = v) ∧
    (∀ part slot word w q, Claims.HostDoes s t k HostOp.isPosted (.slotWrite part slot word w) → s.partAt part = some q →
      (slot < 63 → word < 11 → word ≠ 1 → exec (.hostInvoke k) s = .next (t.setSlot part slot word w)) ∧
      (slot < 63 → word = 1 → bitw (s.slot part slot 1) 63 = false → bitw w 63 = true → exec (.hostInvoke k) s = .next (((t.setSlot part slot 1 w).takeWords part slot).runSlot q slot)) ∧
      (slot < 63 → word = 1 → bitw (s.slot part slot 1) 63 = false → bitw w 63 = false → exec (.hostInvoke k) s = .next (t.setSlot part slot 1 w)) ∧
      (63 ≤ slot ∨ 11 ≤ word ∨ (word = 1 ∧ bitw (s.slot part slot 1) 63 = true) → exec (.hostInvoke k) s = .next t)) ∧
    (∀ off, Claims.HostDoes s t k HostOp.isBar (.barRead off) → exec (.hostWindowRead k) s = .next { t with host := { t.host with
      replies := t.host.replies ++ [bytesLE 8 (t.barWord off).toNat] } }) ∧
    (t.barWord 0x008 = .ofNat 64 ((if t.host.mailbox.done then 2 ^ 63 else 0) + t.host.mailbox.status % 256) ∧ t.barWord 0x010 = .ofNat 64 t.stage ∧ t.barWord 0x018 = t.host.evq.lost ∧
      ∀ x slot word, x < 256 → slot < 63 → word < 16 → t.barWord (0x10000 + 0x2000 * x + 128 * slot + 8 * word) =
        if (t.partAt x).isSome then t.slot x slot word else 0) ∧
    (∀ off w, Claims.HostDoes s t k HostOp.isPosted (.barWrite off w) → exec (.hostInvoke k) s = .next (t.barWrite off w)) ∧
    (∀ w : Word, let m := t.host.mailbox
      (m.go = true ∨ bitw w 63 = false → t.barWrite 0 w = t) ∧
      (m.go = false → bitw w 63 = true → 1 ≤ w.toNat % 65536 → w.toNat % 65536 ≤ 12 → t.barWrite 0 w = { t with host := { t.host with mailbox :=
        { m with go := true, code := w.toNat % 65536, done := false, status := 0, reply := [] } } })) ∧
    (∀ p, Claims.HostDoes s t k HostOp.isPosted (.payload p) → exec (.hostInvoke k) s = .next (if s.host.mailbox.go then t else
      { t with host := { t.host with mailbox := { t.host.mailbox with payload := p } } })) ∧
    (∀ n w, Claims.HostDoes s t k HostOp.isConfig (.configWrite n w) → exec (.hostInvoke k) s =
      .next { t with host := { t.host with config := (n, w) :: s.host.config } }) ∧
    (∀ n, Claims.HostDoes s t k HostOp.isConfig (.configRead n) → ∃ v : Nat, exec (.hostWindowRead k) s =
      .next { t with host := { t.host with replies := t.host.replies ++ [bytesLE 4 v] } }) ∧
    (Claims.HostDoes s t k HostOp.isPosted .awaitCmd → exec (.hostInvoke k) s = .next (if s.host.mailbox.go then s else t)) ∧
    (∀ part ls, Claims.HostDoes s t k HostOp.isPosted (.launch part ls) → exec (.hostInvoke k) s =
      .next (if s.host.mailbox.go = true ∨ s.loadedElsewhere ls = false then s else { t with host := { t.host with
        ops := (if s.host.mailbox.code = 7 ∧ s.host.mailbox.status = 0 then launchAll part ls else []) ++ t.host.ops } })) ∧
    (∀ part slot, Claims.HostDoes s t k HostOp.isPosted (.await part slot) → exec (.hostInvoke k) s = .next (if bitw (s.slot part slot 1) 63 then s else t)) ∧
    (∀ q slot, s.partAt q.index = some q → slot < 63 → s.host.ops.length + q.index * 63 + slot = k → exec (.hostInvoke k) s =
      .next (if bitw (s.slot q.index slot 1) 63 then s.runSlot q slot else s)) ∧
    (∀ (q : Part) (slot : Nat), let ctl := (s.takenWord q.index slot 1).toNat
      let res := (s.takenWord q.index slot 10).toNat
      let part := fun (lo n : Nat) => ctl / 2 ^ lo % 2 ^ n
      part 37 25 ≠ 0 ∨ part 12 4 ≠ 0 ∨ part 6 2 ≠ 0 ∨ 8 < part 8 4 ∨ part 24 8 &&& part 16 8 ≠ part 24 8 ∨ 2 ^ part 8 4 ≤ part 16 8 ∨ res % 16 ≠ 0 ∨ 2 ^ 48 ≤ res →
        ∃ w : Word, s.runSlot q slot = (s.setSlot q.index slot 11 0).setSlot q.index slot 1 w ∧ bitw w 63 = false ∧ bitw w 62 = true ∧
          ∀ i, i < 62 → bitw w i = ctl.testBit i) ∧
    (∀ (part : Nat) (l : Launch), l.args.length ≤ 8 → l.chan < 64 → let (target, mc) := match l.to_ with | .object o => (o, 0) | .plots r => (r, 1)
      launchAll part [l] = [.await part 0, .slotWrite part 0 0 target] ++ l.args.zipIdx.map (fun a => .slotWrite part 0 (2 + a.2) a.1) ++
        [.slotWrite part 0 10 0, .slotWrite part 0 1 (.ofNat 64 (2 ^ 63 + mc * 2 ^ 36 + l.args.length * 2 ^ 8 + l.chan)), .await part 0]) ∧
    (∀ n, Claims.HostDoes s t k HostOp.isPosted (.eventsRead n) → exec (.hostInvoke k) s =
      .next { t with host := { t.host with evq := { t.host.evq with unread := t.host.evq.unread - n } } }) ∧
    ∀ part h q r res, Claims.HostDoes s t k HostOp.isPosted (.release part h) → s.partAt part = some q → hPlot h / 2 ^ 20 = s.pkg →
      (s.plot (hPlot h % 2 ^ 20)).tenant = q.tenant → (s.plot (hPlot h % 2 ^ 20)).named h = some r → r.owner = .host res →
      exec (.release k) s = .next (t.modRec (hPlot h % 2 ^ 20) (hSlot h) fun r => { r with owner := .gone res })

/-- R288, R297, R376, R380 to R382, R386, R387, R389: the commands of the mailbox. Before stage 5 each answers BUSY. A partition is created on free plots
and granules, whose bytes become zero and whose sectors become full, and destroyed when nothing of it is open; after 2^26 cc the time-out ends the copies that
still are. The others set what they name; a communicator's entry that another partition has set is denied. -/
def Sys2Proof.Stated.Management : Prop :=
  (∀ (s : State) (n : Nat), ∀ f ∈ [(Instr.partCreate, 1), (.partDestroy, 2), (.partDestroyTimeout, 2), (.partSetdet, 3), (.partSetcont, 4), (.commSet, 5),
      (.windowMap, 6), (.imageLoad, 7), (.resync, 8), (.portCfg, 9), (.powerCap, 10), (.evqSet, 11), (.pkgId, 12)],
    (s.host.mailbox.go = true → s.host.mailbox.code = f.2 → s.stage ≠ 5 → exec f.1 s = .next (Claims.ended s 1 [])) ∧
    (s.host.mailbox.go = false ∨ (s.host.mailbox.code = n ∧ n ≠ f.2) → exec f.1 s = .next s)) ∧
  (∀ (s : State) (tenant base pcont : Nat) (rects : List (Nat × Nat × Nat × Nat × Nat)) (granules : List Nat) (proxy : Nat), s.host.parts = [] →
    Claims.Commands s 1 (.create tenant [s.pkg] rects granules 0 base proxy (.ofNat 64 pcont)) → 0 < tenant → tenant < 65536 → rects.length ≤ 64 →
    rects.all rectIn = true → base % 64 = 0 → (∀ g ∈ granules, g < 576 ∧ Sparse.get 0 s.host.granules g = 0) → granules.Nodup →
    let plots := (rects.flatMap fun r => (List.range r.2.2.2.1).flatMap fun i => (List.range r.2.2.2.2).map fun j =>
      r.1 * 2 ^ 16 + (r.2.1 + i) * 256 + (r.2.2.1 + j)).eraseDups
    proxy ∈ plots → (∀ p ∈ plots, (s.plot p).tenant = 0) →
      ∃ u : State, exec .partCreate s = .next (Claims.ended u 0 [0]) ∧ (∀ p ∈ plots, (u.plot p).tenant = tenant ∧ (∀ c, (u.ctx p c).live = false) ∧
          (∀ b o, (u.plot p).bufs.byte b o = 0) ∧ ∀ r, ((u.plot p).rec_ r).st = .free) ∧ (∀ p, p ∉ plots → u.plot p = s.plot p) ∧
        (∀ a, a / 2 ^ 30 ∈ granules → Sparse.get 0 u.mem.hbm a = 0 ∧ Sparse.get false u.mem.fe (a / 64) = false ∧ u.owner a = tenant) ∧
        (s.mem.wf = true → ∀ a, a / 2 ^ 30 ∉ granules → Sparse.get 0 u.mem.hbm a = Sparse.get 0 s.mem.hbm a) ∧ (∃ q ∈ u.host.parts, q.tenant = tenant ∧ q.proxy = proxy)) ∧
  (∀ (s : State) (tenant base pcont proxy f row col : Nat), Claims.Commands s 1 (.create tenant [s.pkg] [(f, row, col, 1, 1)] [] 0 base proxy (.ofNat 64 pcont)) →
    0 < tenant → tenant < 65536 → s.part tenant = none → base % 64 = 0 → f < 16 → row < 192 → col < 216 → let p := f * 2 ^ 16 + row * 256 + col
      ((s.plot proxy).tenant ≠ 0 ∨ (s.plot p).tenant ≠ 0 → exec .partCreate s = .next (Claims.ended s 4 [])) ∧
      ((s.plot proxy).tenant = 0 → (s.plot p).tenant = 0 → proxy ≠ p → exec .partCreate s = .next (Claims.ended s 2 []))) ∧
  (∀ (s : State) (tenant : Nat) (q : Part) (c d : Word) (g h : Nat), s.part tenant = some q → s.atBoundary q = false → 0 < tenant → h % 2 ^ 30 = 0 → h < Config.hbmBytes →
    (Claims.Commands s 2 (.destroy tenant) → exec .partDestroy s = .next s) ∧ (Claims.Commands s 3 (.setDet tenant c d) → exec .partSetdet s = .next s) ∧
    (Claims.Commands s 4 (.setCont tenant c) → exec .partSetcont s = .next s) ∧ (Claims.Commands s 6 (.windowMap g h tenant) → exec .windowMap s = .next s) ∧
    (∀ o, Sparse.get none s.host.windows g = some (o, tenant) → Claims.Commands s 6 (.windowMap g h 0) → exec .windowMap s = .next s)) ∧
  (∀ (s : State) (tenant : Nat) (q : Part), Claims.Commands s 2 (.destroy tenant) → Claims.Parted s tenant q →
    (s.openOf tenant = true → exec .partDestroy s = .next (s.modPart tenant fun q => { q with dying := some (q.dying.getD s.now) })) ∧
    (s.openOf tenant = false → ∃ u : State, exec .partDestroy s = .next (Claims.ended u 0 []) ∧ (∀ p ∈ q.plots, (u.plot p).tenant = 0) ∧
      ∀ r ∈ u.host.parts, r.tenant ≠ tenant) ∧
    (q.dying = none → exec .partDestroyTimeout s = .next s) ∧ (∀ at_, q.dying = some at_ → s.now < at_ + 2 ^ 26 → exec .partDestroyTimeout s = .next s) ∧
    ∀ at_, q.dying = some at_ → at_ + 2 ^ 26 ≤ s.now → s.link.conns = [] → (∀ c ∈ s.comms, c.2.tenant ≠ tenant) → (∀ f, (s.flume f).waiting = []) →
      ∃ u : State, exec .partDestroyTimeout s = .next u ∧
        ∀ f, f < 24 → ∀ r ∈ (u.flume f).copies, r ∈ (s.flume f).copies ∧ r.cmd.tenant ≠ tenant) ∧
  (∀ (s : State) (tenant : Nat) (q : Part) (c d : Word), Claims.Parted s tenant q →
    (Claims.Commands s 3 (.setDet tenant c d) → ∃ u : State, exec .partSetdet s = .next (Claims.ended u 0 []) ∧
      ∀ p ∈ q.plots, (u.plot p).csr.detctl = c &&& 3 ∧ (u.plot p).csr.detq = d &&& 0xFFFFF ∧
        (u.plot p).sched.ended = false ∧ (u.plot p).sched.retired = 0) ∧
    (Claims.Commands s 4 (.setCont tenant c) → ∃ u : State, exec .partSetcont s = .next (Claims.ended u 0 []) ∧ ∀ p ∈ q.plots, (u.plot p).csr.pcont = c &&& 7)) ∧
  (∀ (s : State) (tenant id : Nat) (q : Part) (entry : Word) (l : Nat), Claims.Parted s tenant q → (s.plot (l % 2 ^ 20)).tenant = tenant → l / 2 ^ 20 = s.pkg →
    plotOk (l % 2 ^ 20) = true → id < 256 → entry.toNat / 2 ^ 48 % 2 ^ 8 = 0 → entry.toNat % 2 ^ 6 = 0 → 16 ≤ entry.toNat / 2 ^ 32 % 2 ^ 8 → entry.toNat / 2 ^ 8 % 2 ^ 8 = 0 →
    Claims.Commands s 5 (.commSet tenant id entry [s.pkg] [l]) →
    ((s.comm id).tenant ≠ 0 → (s.comm id).tenant ≠ tenant → exec .commSet s = .next (Claims.ended s 4 [])) ∧
    ((s.comm id).tenant = 0 ∨ (s.comm id).tenant = tenant → (∀ c ∈ s.comms, c.1 ≠ id → c.2.en = false) →
    ∃ u : State, exec .commSet s = .next (Claims.ended u 0 []) ∧ let c := u.comm id
      c.en = bitw entry 63 ∧ c.members = [s.pkg] ∧ c.locals = [l] ∧ c.tenant = tenant ∧ c.seq = 0 ∧ c.brk = false ∧ c.reqs = [] ∧ c.staged = [] ∧ ∀ i ∈ u.insts, i.comm ≠ id)) ∧
  (∀ (s : State) (granule hbm tenant : Nat) (q : Part), Claims.Commands s 6 (.windowMap granule hbm tenant) → hbm % 2 ^ 30 = 0 → hbm < Config.hbmBytes → 0 < tenant →
    Claims.Parted s tenant q →
    (s.owner hbm = tenant → (∀ g o, Sparse.get none s.host.windows granule = some (g, o) → o = tenant) → ∃ u : State, exec .windowMap s = .next (Claims.ended u 0 []) ∧
      Sparse.get none u.host.windows granule = some (hbm, tenant) ∧ u.mem = s.mem) ∧ 
    (s.owner hbm ≠ tenant ∨ (∃ g o, Sparse.get none s.host.windows granule = some (g, o) ∧ o ≠ tenant) →
      exec .windowMap s = .next (Claims.ended s 4 []))) ∧
  (∀ (s : State) (granule hbm : Nat), Claims.Commands s 6 (.windowMap granule hbm 0) → hbm % 2 ^ 30 = 0 → hbm < Config.hbmBytes →
    (∀ g o, Sparse.get none s.host.windows granule = some (g, o) → ∃ q, Claims.Parted s o q) →
    ∃ u : State, exec .windowMap s = .next (Claims.ended u 0 []) ∧ Sparse.get none u.host.windows granule = none ∧ u.mem = s.mem) ∧
  (∀ (s : State) (tenant p : Nat) (q : Part) (img : Image), Claims.Commands s 7 (.imageLoad tenant img [p]) → Claims.Parted s tenant q → (s.plot p).tenant = tenant →
    plotOk p = true → img.text.length ≤ 2048 → img.abuf.length ≤ 0x4000 → img.wbuf.length ≤ 0x8000 → img.objs = [] → img.chans = [] →
    img.data.2 = [] ∨ img.data ∈ q.segments →
    ∃ u : State, exec .imageLoad s = .next (Claims.ended u 0 []) ∧ (∀ (i : Nat) (w : W32), img.text[i]? = some w → (u.plot p).word (4 * i) = w) ∧
      (∀ (i : Nat) (b : Byte), img.abuf[i]? = some b → (u.plot p).bufs.byte 0 i = b) ∧ (∀ (i : Nat) (b : Byte), img.wbuf[i]? = some b → (u.plot p).bufs.byte 1 i = b)) ∧
  (∀ (s : State) (tenant p : Nat) (q : Part) (img : Image), Claims.Commands s 7 (.imageLoad tenant img [p]) → Claims.Parted s tenant q → (s.plot p).tenant = tenant →
    plotOk p = true → img.text.length ≤ 2048 → img.abuf.length ≤ 0x4000 → img.wbuf.length ≤ 0x8000 → img.objs = [] → img.chans = [] →
    img.data.2 ≠ [] → img.data ∉ q.segments →
    (∀ e : Tlb, e.ty = 0 → e.va ≤ img.data.1 → (∀ i, i < img.data.2.length → s.service p (img.data.1 + i) = some e) →
      ∃ u : State, exec .imageLoad s = .next (Claims.ended u 0 []) ∧ (∃ r, u.part tenant = some r ∧ r.segments = q.segments ++ [img.data]) ∧
        ∀ (i : Nat) (b : Byte), img.data.2[i]? = some b → Sparse.get false s.mem.gate (e.target_ (img.data.1 + i) / 64) = false →
          Sparse.get 0 u.mem.hbm (e.target_ (img.data.1 + i)) = b) ∧
    (∀ i, i < img.data.2.length → s.service p (img.data.1 + i) = none → exec .imageLoad s = .next (Claims.ended s 2 []))) ∧
  (∀ (s : State) (a n : Nat), Claims.Commands s 8 (.resync a n) → let bs := Config.summary s.summary
    (n < bs.length → exec .resync s = .next (Claims.ended s 3 [.ofNat 64 bs.length])) ∧
    (bs.length ≤ n → ∃ u : State, exec .resync s = .next (Claims.ended u 0 []) ∧ ∀ (i : Nat) (b : Byte), bs[i]? = some b → Sparse.get 0 u.mem.host (a + i) = b)) ∧
  (∀ (s : State) (port mac ethertype rtt : Nat) (routes : List (Nat × Nat)), Claims.Commands s 9 (.portCfg port mac ethertype rtt routes none) → port < 8 →
    (∀ r ∈ routes, r.2 < 8) → ∃ u : State, exec .portCfg s = .next (Claims.ended u 0 []) ∧ Sparse.get PortCfg.reset u.link.ports port = ⟨mac, rtt⟩ ∧
      u.link.ethertype = ethertype ∧ u.link.routes = routes ∧ u.plots = s.plots) ∧
  (∀ (s : State) (n v : Nat), (Claims.Commands s 10 (.powerCap n) → exec .powerCap s = .next (Claims.ended { s with host := { s.host with powerCap := n } } 0 [])) ∧
    (Claims.Commands s 11 (.evqSet n v) → ∃ u : State, exec .evqSet s = .next (Claims.ended u 0 []) ∧ u.host.evq.addr = some n ∧ u.host.evq.vector = v ∧
      u.host.evq.pos = 0 ∧ u.host.evq.unread = 0) ∧
    (Claims.Commands s 12 (.pkgId n) → n < 65536 → s.host.parts = [] → (∀ c ∈ s.link.conns, 1 < c.state) → exec .pkgId s = .next (Claims.ended { s with pkg := n } 0 [])) ∧
    (Claims.Commands s 12 (.pkgId n) → n < 65536 → s.host.parts ≠ [] → exec .pkgId s = .next (Claims.ended s 1 [])))

/-- R383 to R385, R389: power on starts stage 1; the end of a stage begins the next, the second's end leaves every store zero and CYCLE 0, and enters in SQSTAT a square that failed its self-test, the fourth
waits for the CXL link; SPDM requests in their order are answered, others with ERROR, in SPDM 1.2's layouts (log entry 54); the model's start has the
squares that fail their self-test as an input (log entry 68); a change of the throttle is an event and changes
nothing else. -/
def Sys2Proof.Stated.StartupAndSpdm : Prop :=
  (∀ s : State, (∃ t : State, exec .powerOn s = .next t ∧ t.stage = 1 ∧ t.plots = [] ∧ t.net = [] ∧ t.pkg = 0 ∧ t.mem.host = s.mem.host) ∧
    (s.stage = 1 → exec .startupStageComplete s = .next { s with stage := 2 }) ∧
    (s.stage = 2 → ∃ t : State, exec .startupStageComplete s = .next t ∧ t.stage = 3 ∧ t.cycle = 0 ∧ t.mem.hbm = [] ∧ t.mem.fe = [] ∧
      (s.selfTest = [] → t.plots = []) ∧ ∀ p b q, s.selfTest = [(p, b, q)] → b < 3 → q < squares b →
        failedSquare (t.plot p).csr.sqstat b = some q ∧ (∀ r, r ≠ p → t.plot r = Plot.reset) ∧ (t.plot p).bufs = Bufs.reset) ∧
    (s.stage = 3 → exec .startupStageComplete s = .next (if s.host.cxlUp then { s with stage := 4 } else s)) ∧
    (s.stage = 4 → exec .startupStageComplete s = .next { s with stage := 5 }) ∧ (s.stage = 5 → exec .startupStageComplete s = .next s) ∧
    exec .cxlLinkUp s = .next { s with host := { s.host with cxlUp := true } }) ∧
  (∀ (s : State) (n : Nat), exec (.throttleChange n) s =
    .next (if s.host.throttle = n then s else ({ s with host := { s.host with throttle := n } } : State).hostEvent 2 0 n)) ∧
  ∀ (s t : State) (k code : Nat) (bs : List Byte), Claims.Spdm_ s t k code bs →
    let x := s.host.spdm
    let chain := digestBytes (sha384 Config.certificate)
    let field := fun (i n : Nat) => numLE ((bs.drop i).take n)
    let bit := fun (b : Bool) => if b then 1 else 0
    let known := [(0x84, Instr.getVersion k, 4, true), (0xE1, .getCapabilities k, 20, x.version), (0xE3, .negotiateAlgorithms k, 32, x.caps), (0x81, .getDigests k, 4, x.algs),
      (0x82, .getCertificate k, 8, x.algs), (0x83, .challenge k, 36, x.algs), (0xE0, .getMeasurements k, 4, x.algs)]
    let fresh : State := { t with serial := t.serial + 1 }
    (∀ f ∈ known, f.1 = code → (bs.length < f.2.2.1 → exec f.2.1 s = .next (Claims.failsWith t 0x01 0)) ∧
      (f.2.2.1 ≤ bs.length → f.2.2.2 = false → exec f.2.1 s = .next (Claims.failsWith t 0x04 0))) ∧
    (∀ f ∈ known, f.1 ≠ code → f.1 ≠ 0x84 → exec f.2.1 s = .next s) ∧
    ((∀ f ∈ known, f.1 ≠ code) → exec (.getVersion k) s = .next (Claims.failsWith t 0x07 code)) ∧
    (code = 0x84 → 4 ≤ bs.length → let ans := [0x10, 0x04, 0, 0, 0, 1, 0, 0x12]
      exec (.getVersion k) s = .next (Claims.replies t ans ⟨true, false, false, bs ++ ans, [], []⟩)) ∧
    (code = 0xE1 → 20 ≤ bs.length → x.version = true → ∃ (timing : Byte) (sizes : List Byte), sizes.length = 8 ∧
      let ans := [0x12, 0x61, 0, 0, 0, timing, 0, 0, 0x16, 0, 0, 0] ++ sizes
      exec (.getCapabilities k) s = .next (Claims.replies t ans { x with caps := true, agreed := x.agreed ++ bs ++ ans })) ∧
    (code = 0xE3 → 32 ≤ bs.length → x.caps = true →
      let sign := (field 8 4).testBit 7
      let hash := (field 12 4).testBit 1
      let dmtf := (bs.getD 6 0).toNat.testBit 0
      let ans := [0x12, 0x63, 0, 0, 36, 0, .ofNat 8 (bit dmtf), 0, .ofNat 8 (4 * bit dmtf), 0, 0, 0, .ofNat 8 (128 * bit sign), 0, 0, 0, .ofNat 8 (2 * bit hash), 0, 0, 0] ++
        List.replicate 16 0
      (sign = true ∨ hash = true → exec (.negotiateAlgorithms k) s = .next (Claims.replies t ans { x with algs := true, agreed := x.agreed ++ bs ++ ans })) ∧
      (sign = false → hash = false → exec (.negotiateAlgorithms k) s = .next (Claims.failsWith t 0x01 0))) ∧
    (code = 0x81 → 4 ≤ bs.length → x.algs = true → let ans := [0x12, 0x01, 0, 1] ++ chain
      exec (.getDigests k) s = .next (Claims.replies t ans { x with identity := x.identity ++ bs ++ ans, measured := [] })) ∧
    (code = 0x82 → 8 ≤ bs.length → x.algs = true →
      let rest := Config.certificate.drop (field 4 2)
      let part := rest.take (field 6 2)
      let ans := [0x12, 0x02, 0, 0] ++ bytesLE 2 part.length ++ bytesLE 2 (rest.length - part.length) ++ part
      ((bs.getD 2 0).toNat % 16 = 0 → rest ≠ [] → exec (.getCertificate k) s =
        .next (Claims.replies t ans { x with identity := x.identity ++ bs ++ ans, measured := [] })) ∧
      ((bs.getD 2 0).toNat % 16 ≠ 0 ∨ rest = [] → exec (.getCertificate k) s = .next (Claims.failsWith t 0x01 0))) ∧
    (code = 0x83 → 36 ≤ bs.length → x.algs = true → (bs.getD 2 0).toNat % 16 = 0 → ∀ what, what = (bs.getD 3 0).toNat → what = 0 ∨ what = 1 ∨ what = 0xFF →
      ∃ nonce : List Byte, nonce.length = 32 ∧
        let body := [0x12, 0x03, 0, 1] ++ chain ++ nonce ++ (if what = 0 then [] else digestBytes (sha384 ([1, 2, 3, 4, 5].flatMap (Claims.measured t)))) ++ [0, 0]
        exec (.challenge k) s = .next (Claims.replies fresh (body ++ signature "responder-challenge_auth signing" (x.agreed ++ x.identity ++ bs ++ body))
          { x with identity := [], measured := [] })) ∧
    (code = 0xE0 → 4 ≤ bs.length → x.algs = true → ∀ i, i = (bs.getD 3 0).toNat → i ≤ 5 ∨ i = 0xFF →
      ∃ nonce : List Byte, nonce.length = 32 ∧
        let ms := if i = 0 then [] else if i = 0xFF then [1, 2, 3, 4, 5].flatMap (Claims.measured t) else Claims.measured t i
        let body := [0x12, 0x60, .ofNat 8 (if i = 0 then 5 else 0), 0, .ofNat 8 (if i = 0 then 0 else if i = 0xFF then 5 else 1)] ++ bytesLE 3 ms.length ++ ms ++ nonce ++ [0, 0]
        let said := x.measured ++ bs ++ body
        ((bs.getD 2 0).toNat % 2 = 0 → exec (.getMeasurements k) s = .next (Claims.replies fresh body { x with measured := said })) ∧
        ((bs.getD 2 0).toNat % 2 = 1 → 37 ≤ bs.length → (bs.getD 36 0).toNat % 16 = 0 → exec (.getMeasurements k) s =
          .next (Claims.replies fresh (body ++ signature "responder-measurements signing" (x.agreed ++ said)) { x with measured := [] })))

/-! ## Frames of every instruction -/

namespace Sys2Proof.Claims

open Sys2Proof Sys2Proof.Machine

/-- The registers that an instruction writes, at once or later, numbered as in R60. -/
def written : Instr → List Nat
  | .add d _ _ _ _ | .sub d _ _ _ _ | .and d _ _ _ _ | .or d _ _ _ _ | .xor d _ _ _ _ | .andn d _ _ _ _ | .orn d _ _ _ _ | .xnor d _ _ _ _
  | .sll d _ _ _ _ | .srl d _ _ _ _ | .sra d _ _ _ _ | .rol d _ _ _ _ | .ror d _ _ _ _ | .slt d _ _ _ _ | .sltn d _ _ _ _ | .seq d _ _ _ _
  | .sne d _ _ _ _ | .min d _ _ _ _ | .max d _ _ _ _ | .minn d _ _ _ _ | .maxn d _ _ _ _ | .mul d _ _ _ _ | .mulh d _ _ _ _ | .mulhn d _ _ _ _
  | .mulhsn d _ _ _ _ | .div d _ _ _ _ | .divn d _ _ _ _ | .rem d _ _ _ _ | .remn d _ _ _ _ | .clz d _ _ _ | .ctz d _ _ _ | .ffs d _ _ _
  | .popc d _ _ _ | .csel d _ _ _ _ | .brev d _ _ | .bswap d _ _ | .padd d _ _ _ _ _ | .psub d _ _ _ _ _ | .addi d _ _ _ | .andi d _ _ _
  | .ori d _ _ _ | .xori d _ _ _ | .slti d _ _ _ | .sltni d _ _ _ | .slli d _ _ _ | .srli d _ _ _ | .srai d _ _ _ | .rori d _ _ _
  | .exti d _ _ _ _ | .insi d _ _ _ _ | .lea d _ _ _ _ _ | .leaA d _ _ _ _ | .leaW d _ _ _ _ | .leaC d _ _ _ _ | .jalr d _ _ _ | .tself d
  | .tselfF d | .ldl d _ _ _ _ _ | .ldg d _ _ _ _ | .ldx d _ _ _ _ _ | .ldsync d _ _ _ _ | .ldfe d _ _ _ _ | .amoAdd d _ _ _ _ _
  | .amoSwap d _ _ _ _ _ | .amoCas d _ _ _ _ _ | .amoMin d _ _ _ _ _ | .amoMax d _ _ _ _ _ | .amoMinn d _ _ _ _ _ | .amoMaxn d _ _ _ _ _
  | .amoAnd d _ _ _ _ _ | .amoOr d _ _ _ _ _ | .amoXor d _ _ _ _ _ | .amoFaddF d _ _ _ _ _ | .amoFaddD d _ _ _ _ _ | .bar d _ _ | .pput d _ _ _ _
  | .ppeek d _ _ | .pstat d _ _ | .invoke d _ _ _ _ | .await d _ _ | .hstat d _ _ | .recv d _ _ | .cpy d _ | .cpyE d _ _ _ | .coll d _
  | .collw d _ _ | .puts d _ | .get d _ | .csrr d _ | .csrw d _ _ _ | .csrs d _ _ _ | .csrc d _ _ _ => [regG d]
  | .vaddInt d _ _ _ _ _ | .vsubInt d _ _ _ _ _ | .vmulInt d _ _ _ _ _ | .vmulh d _ _ _ _ _ | .vminInt d _ _ _ _ _ | .vmaxInt d _ _ _ _ _
  | .vabsInt d _ _ _ | .vnegInt d _ _ _ | .vavg d _ _ _ _ _ | .vabsd d _ _ _ _ _ | .vmacc d _ _ _ _ _ | .vdivInt d _ _ _ _ _ | .vrem d _ _ _ _ _
  | .vclz d _ _ _ | .vpopc d _ _ _ | .vaddFloat d _ _ _ _ _ | .vsubFloat d _ _ _ _ _ | .vmulFloat d _ _ _ _ _ | .vmulz d _ _ _ _ _
  | .vdivFloat d _ _ _ _ _ | .vminFloat d _ _ _ _ _ | .vmaxFloat d _ _ _ _ _ | .vabsFloat d _ _ _ | .vnegFloat d _ _ _ | .vfma d _ _ _ _ _
  | .vfms d _ _ _ _ _ | .vfnma d _ _ _ _ _ | .vsqrt d _ _ _ | .vfmaz d _ _ _ _ _ | .vceq d _ _ _ _ _ | .vcne d _ _ _ _ _ | .vclt d _ _ _ _ _
  | .vcle d _ _ _ _ _ | .vcun d _ _ _ _ _ | .vand d _ _ _ _ _ | .vor d _ _ _ _ _ | .vxor d _ _ _ _ _ | .vandn d _ _ _ _ _ | .vnot d _ _ _
  | .vsll d _ _ _ _ _ | .vsrl d _ _ _ _ _ | .vsra d _ _ _ _ _ | .vcvt d _ _ _ _ _ _ | .vperm d _ _ _ _ _ | .vrev d _ _ _ | .vzipl d _ _ _ _ _
  | .vziph d _ _ _ _ _ | .vuzpe d _ _ _ _ _ | .vuzpo d _ _ _ _ _ | .vmov d _ _ _ | .vidx d _ | .vrcp d _ _ _ | .vrsqrt d _ _ _ | .vexp2 d _ _ _
  | .vlog2 d _ _ _ | .vexp d _ _ _ | .vtanh d _ _ _ | .vsigm d _ _ _ | .vrand d _ | .sgetLo d _ _ | .sgetHi d _ _ | .sdrain d _ _ _
  | .snorm d _ _ _ _ _ | .snormZ d _ _ _ _ _ | .mdrainV d _ => [regV d]
  | .supd d _ _ _ | .supdw d _ _ _ _ _ | .smrg d _ _ _ _ | .sclr d | .sputLo d _ _ | .sputHi d _ _ | .supdRow d _ _ _ _ | .supdCol d _ _ _ _ => [regS d]
  | .amoAmerge d _ _ _ _ _ | .ptake d _ _ | .ptaken d _ _ => [regG d, regG d + 1]
  | .awaitb d _ b _ => [regG d, regG b]
  | .jal l _ => [regG l]
  | .vextr g _ _ _ | .vmskb g _ _ _ => [regG g]
  | .vldRow v _ _ _ _ | .vldCol v _ _ _ _ _ | .vbcast _ v _ _ => [regV v]
  | _ => []

/-- csrw, csrs and csrc. -/
def writesCsr : Instr → Bool
  | .csrw _ _ _ _ | .csrs _ _ _ _ | .csrc _ _ _ _ => true
  | _ => false

/-- The instructions that write bytes of the plot's own buffers: stores and matrix instructions. -/
def storesOwn : Instr → Bool
  | .stl _ _ _ _ _ _ | .stfull _ _ _ _ _ | .vstRow _ _ _ _ _ | .vstCol _ _ _ _ _ _ => true
  | .mma _ _ _ _ | .mmaG _ _ _ _ | .mmas _ _ _ _ | .mcfg _ | .mcfgD _ | .mzero _ | .mdrain _ _ | .mdrainZ _ _ => true
  | .mscale _ _ _ | .mscaleZ _ _ _ | .mcomp _ _ _ => true
  | _ => false

/-- The instructions that change a full/empty bit of the plot's own buffers. -/
def marksOwn : Instr → Bool
  | .ldfe _ _ _ _ _ | .stfull _ _ _ _ _ | .clrfe _ _ _ _ => true
  | .mma _ _ _ _ | .mmaG _ _ _ _ | .mmas _ _ _ _ | .mcfg _ | .mcfgD _ | .mzero _ | .mdrain _ _ | .mdrainZ _ _ => true
  | .mscale _ _ _ | .mscaleZ _ _ _ | .mcomp _ _ _ => true
  | _ => false

/-- An instruction of a task has run and led to a state; recv, which may answer another recv of its channel, stands apart (`RecvKept`). -/
def Runs (i : Instr) (s t : State) : Prop := encode i ≠ none ∧ (∀ d a x, i ≠ .recv d a x) ∧ exec i s = .next t

/-- Only registers of a list have changed or will be written. -/
structure Keeps (s t : State) (ws : List Nat) : Prop where
  values : ∀ q, q ∉ ws → t.me.regs.gv q = s.me.regs.gv q
  vectors : ∀ q, 64 + q ∉ ws → t.me.regs.vv q = s.me.regs.vv q
  records : ∀ q, 80 + q ∉ ws → t.me.regs.sv q = s.me.regs.sv q
  full : ∀ q, q ∉ ws → t.me.regs.isEmpty q = s.me.regs.isEmpty q
  later : ∀ m ∈ t.me.multi, m ∈ s.me.multi ∨ m.reg ∈ ws
  waits : ∀ o ∈ t.me.outst, ∀ r ∈ o.act.dests, r ∈ ws ∨ ∃ q ∈ s.me.outst, r ∈ q.act.dests

end Sys2Proof.Claims

/-- R59, R54: an instruction, however it ends, writes no register but its destinations: unless the task ends by a kill, every other register
keeps its value and its full/empty bit, no late result is added for it, and no answer will write it. -/
def Sys2Proof.Stated.RegistersKept : Prop :=
  ∀ (i : Instr) (s t : State), Claims.Runs i s t → t.me.live = true → Claims.Keeps s t (Claims.written i)

/-- R306, R308, R310: an instruction other than a CSR write changes, of its context's CSRs, only what a trap records (EPC, TCAUSE, TVAL, TSTAT), the
flags of FPCSR, MRP, and, for vrand, RNGCTR. -/
def Sys2Proof.Stated.CsrsKept : Prop :=
  ∀ (i : Instr) (s t : State), Claims.Runs i s t → t.me.live = true → Claims.writesCsr i = false →
    let c := t.me.csr
    c = { s.me.csr with epc := c.epc, tcause := c.tcause, tval := c.tval, tstat := c.tstat, fpcsr := c.fpcsr, mrp := c.mrp, rngctr := c.rngctr } ∧
      c.fpcsr &&& ~~~63#64 = s.me.csr.fpcsr &&& ~~~63#64 ∧ ((∀ d y, i ≠ .vrand d y) → c.rngctr = s.me.csr.rngctr)

/-- R233: the same for recv, which serves the waiting recvs of its channel, of any context of its plot, in turn: a context that goes on keeps every
register that neither this recv nor an answer it waits for writes, and its CSRs but what a trap of this recv records; other plots keep
everything but what a furrow's end does. -/
def Sys2Proof.Stated.RecvKept : Prop :=
  ∀ (d a : BitVec 6) (b : Bool) (s t : State), encode (.recv d a b) ≠ none → exec (.recv d a b) s = .next t → s.cur.1 < 2 ^ 20 →
    (∀ k, ∀ e ∈ (s.myPlot.chan k).recvs, e.1.plot % 2 ^ 20 = s.cur.1) →
    let p := s.cur.1
    (∀ c, (t.ctx p c).live = true →
      let x := s.ctx p c
      let y := t.ctx p c
      let kept := fun (q : Nat) => (c = s.cur.2 → q ≠ regG d) ∧ ∀ o ∈ x.outst, q ∉ o.act.dests
      (∀ q, kept q → y.regs.gv q = x.regs.gv q ∧ y.regs.isEmpty q = x.regs.isEmpty q) ∧ (∀ q, kept (64 + q) → y.regs.vv q = x.regs.vv q) ∧
      (∀ q, kept (80 + q) → y.regs.sv q = x.regs.sv q) ∧
      y.csr = { x.csr with epc := y.csr.epc, tcause := y.csr.tcause, tval := y.csr.tval, tstat := y.csr.tstat, fpcsr := y.csr.fpcsr, mrp := y.csr.mrp } ∧
      y.csr.fpcsr &&& ~~~63#64 = x.csr.fpcsr &&& ~~~63#64) ∧
    ∀ q, q ≠ p → t.plot q = { s.plot q with ctxs := (t.plot q).ctxs, sched := { (s.plot q).sched with images := (t.plot q).sched.images } } ∧
      ∀ c, t.ctx q c = { s.ctx q c with pc := (t.ctx q c).pc, hold := (t.ctx q c).hold, furrow := (t.ctx q c).furrow }

/-- R23, R199: an instruction changes nothing of other contexts but what a furrow's end does to their fetch, and nothing of other plots but the
like: one goes on at its own PC or at its next instruction, and a follower of a split is ready. Of the package it changes only what is under
way: packets, frames, events for the host, and what the turnouts have noted. -/
def Sys2Proof.Stated.OthersKept : Prop :=
  ∀ (i : Instr) (s t : State), Claims.Runs i s t →
    t = { s with plots := t.plots, net := t.net, link := t.link, host := { s.host with evq := t.host.evq, msix := t.host.msix }, mem := t.mem,
                 serial := t.serial, budget := t.budget, fields := t.fields, recLogs := t.recLogs } ∧
    (Claims.writesCsr i = false → t.fields = s.fields) ∧
    (∀ q c, (q, c) ≠ s.cur → (i = .split → t.ctx q c = { s.ctx q c with
        pc := (t.ctx q c).pc, hold := (t.ctx q c).hold, furrow := (t.ctx q c).furrow, block := (t.ctx q c).block
        readySince := (t.ctx q c).readySince, issued := (t.ctx q c).issued }) ∧
      (i ≠ .split → t.ctx q c = { s.ctx q c with pc := (t.ctx q c).pc, hold := (t.ctx q c).hold, furrow := (t.ctx q c).furrow } ∧ ((t.ctx q c).pc = (s.ctx q c).pc ∨ ∃ e rest, (s.ctx q c).furrow.queue = e :: rest ∧ (t.ctx q c).pc = e.pc))) ∧
    ∀ q, q ≠ s.cur.1 → t.plot q = { s.plot q with ctxs := (t.plot q).ctxs, sched := { (s.plot q).sched with images := (t.plot q).sched.images } }

/-- R100 to R102, R95, R97, R236: HBM, its sector bits and its headgate marks are changed by no instruction of a plot (accesses are served later,
at their units); bytes of the plot's buffers only by local stores and matrix instructions, full/empty bits only by those that say so. -/
def Sys2Proof.Stated.MemoryKept : Prop :=
  ∀ (i : Instr) (s t : State), encode i ≠ none → exec i s = .next t →
    t.mem = { s.mem with host := t.mem.host } ∧
    (Claims.storesOwn i = false → ∀ b o, t.myPlot.bufs.byte b o = s.myPlot.bufs.byte b o) ∧
    (Claims.marksOwn i = false → ∀ b o, t.myPlot.bufs.wordEmpty b o = s.myPlot.bufs.wordEmpty b o) ∧
    ((∀ a x, i ≠ .iswr a x) → t.myPlot.istore = s.myPlot.istore) ∧ (Claims.writesCsr i = false → t.myPlot.objs = s.myPlot.objs)

/-- R305, R311: outside a trap, a task in task mode comes to supervisor mode only by trap entry: at the vector, INTRAP set, PPRIV = 0. -/
def Obligations.ModeGuarded : Prop :=
  ∀ (i : Instr) (s t : State), Claims.Runs i s t → s.me.sup = false → bitw s.me.csr.tstat 1 = false → t.me.sup = true →
    let tvec := s.myPlot.csr.tvec
    bitw tvec 63 = true ∧ t.me.pc = tvec &&& 0x1FFC ∧ bitw t.me.csr.tstat 1 = true ∧ bitw t.me.csr.tstat 0 = false

/-! ## The obligations made of several statements -/

/-- A cycle of a plot runs the decoded instruction at the PC; an event of the agenda is that step. Which step comes next is the agenda's, the
model's own (DESIGN CHOICE, log entry 7). -/
def Obligations.StepRunsDecoded : Prop :=
  Sys2Proof.Stated.StepRunsDecoded ∧ Sys2Proof.Stated.StepRunsEvents

/-- An instruction, however it ends, changes no register but its destinations, and no CSR it does not name. -/
def Obligations.RegistersKept : Prop :=
  Sys2Proof.Stated.RegistersKept ∧ Sys2Proof.Stated.CsrsKept ∧ Sys2Proof.Stated.RecvKept

/-- An instruction changes nothing of other contexts and plots, of memory and buffers, but what it names. -/
def Obligations.OthersKept : Prop :=
  Sys2Proof.Stated.OthersKept ∧ Sys2Proof.Stated.MemoryKept

/-- Products and quotients retire without a trap; the quotient and the remainder are those of R28. -/
def Obligations.DivisionTable : Prop :=
  Sys2Proof.Stated.LateResult ∧ Sys2Proof.Stated.DivisionTable

/-- Branches, jal and jalr go to their targets, or trap on a bad one. -/
def Obligations.BranchesAndJumps : Prop :=
  Sys2Proof.Stated.BranchGoes ∧ Sys2Proof.Stated.JumpGoes

/-- tret returns from a trap; trap and brk retire and then trap. -/
def Obligations.TrapReturnAndSoftware : Prop :=
  Sys2Proof.Stated.TrapReturn ∧ Sys2Proof.Stated.SoftwareTraps

/-- Which containment level decides, and what each action does. -/
def Obligations.ContainmentActs : Prop :=
  Sys2Proof.Stated.ContainmentLevel ∧ Sys2Proof.Stated.Containment ∧ Sys2Proof.Stated.TrapFault ∧ Sys2Proof.Stated.Killed

/-- FPCSR and the other CSRs: what a write leaves for a read. -/
def Obligations.CsrLayouts : Prop :=
  Sys2Proof.Stated.FpcsrLayout ∧ Sys2Proof.Stated.CsrFields

/-- iswr writes the instruction store; tlbinv and objhome send their requests. -/
def Obligations.SystemRequests : Prop :=
  Sys2Proof.Stated.StoreWordWritten ∧ Sys2Proof.Stated.ServiceRequests

/-- yield, sleep, sleepuntil, tself, tself.f, chblk and chunb. -/
def Obligations.YieldSleepChannels : Prop :=
  Sys2Proof.Stated.YieldAndSleep ∧ Sys2Proof.Stated.TaskSelf ∧ Sys2Proof.Stated.ChannelBlock

/-- lead, follow and split. -/
def Obligations.FurrowInstructions : Prop :=
  Sys2Proof.Stated.LeadTakes ∧ Sys2Proof.Stated.FollowAsks ∧ Sys2Proof.Stated.SplitDissolves

/-- tend, resolve, resolveref and break end the task and settle its promise. That ownership of the settlement is looked at in the local record
is DEDUCED (log entry 31). -/
def Obligations.TaskEnds : Prop :=
  Sys2Proof.Stated.TaskEnds ∧ Sys2Proof.Stated.SettlementLeaves

/-- A fence waits for the accesses of its scope; bar arrives and holds its context. -/
def Obligations.FencesAndBarriers : Prop :=
  Sys2Proof.Stated.FenceWaits ∧ Sys2Proof.Stated.BarrierArrives

/-- What a watchpoint matches, and what it stops. Where the check stands among an access's other checks is DEDUCED (log entry 26). -/
def Obligations.WatchpointTraps : Prop :=
  Sys2Proof.Stated.WatchpointMatches ∧ Sys2Proof.Stated.WatchpointTraps ∧ Sys2Proof.Stated.WatchpointStops

/-- ldl and stl of an own buffer. -/
def Obligations.OwnLoadStore : Prop :=
  Sys2Proof.Stated.OwnLoad ∧ Sys2Proof.Stated.OwnStore

/-- ldg, stg, ldx, stx and the global synchronising accesses send their requests. -/
def Obligations.GlobalAccess : Prop :=
  Sys2Proof.Stated.GlobalAccess ∧ Sys2Proof.Stated.GlobalSync

/-- AMOs send and hold; what stops a global access, in its order. Shown to answer a next state, under conditions on the state and operands alone:
amoAdd, amoSwap, amoCas, amoMin, amoMax, amoMinn, amoMaxn, amoAnd, amoOr, amoXor, amoFaddF, amoFaddD, amoAmerge. -/
def Obligations.AtomicAccess : Prop :=
  Sys2Proof.Stated.AtomicAccess ∧ Sys2Proof.Stated.GlobalFaults

/-- invoke takes a record and sends the invocation, which goes to its next strict argument or its target. A multicast that has strict arguments
travels as one invocation until they are known (DEDUCED, log entry 22). -/
def Obligations.InvokeSends : Prop :=
  Sys2Proof.Stated.InvokeSends ∧ Sys2Proof.Stated.InvocationRoutes

/-- await, awaitb, hstat, send and recv. -/
def Obligations.HandlesAwaited : Prop :=
  Sys2Proof.Stated.AwaitAsks ∧ Sys2Proof.Stated.MessagesLeave

/-- acq.s, acq.x, rel, handover and hgbind ask the headgate unit. rel and handover take the record from the table when the request leaves
(DEDUCED, log entry 27). -/
def Obligations.HeadgateRequests : Prop :=
  Sys2Proof.Stated.AcquireAsks ∧ Sys2Proof.Stated.ReleaseAsks

/-- The POOL instructions ask the field's weir. -/
def Obligations.PoolRequests : Prop :=
  Sys2Proof.Stated.PoolRequests

/-- cpy, cpy.e, puts, get, coll and collw leave for the flume or the sluice. The ranks of coll's range checks are those of the communicator's
entry (DEDUCED, log entry 11). With NS = 1 the signal is not looked at, and a length of 0 still translates a page (DEDUCED, log entry 32); the pages
are those of the service's walk (DEDUCED, log entry 33). -/
def Obligations.CopiesAndCollectives : Prop :=
  Sys2Proof.Stated.CopyStarts ∧ Sys2Proof.Stated.RemoteCopyStarts ∧ Sys2Proof.Stated.FlumeChosen ∧ Sys2Proof.Stated.CollectiveAsks

/-- The numbers of Upd, UpdW and Merge, and the statistics instructions. -/
def Obligations.StatisticRecords : Prop :=
  Sys2Proof.Stated.StatisticNumbers ∧ Sys2Proof.Stated.Statistics

/-- What a matrix instruction waits for; the control instructions; an element of mscale and a group of mcomp. The order of the checks of a
control word is DEDUCED (log entry 35); the packet of mdrain.v's row, and when a context joins the order of R138, are DEDUCED (log entry 47); that a
signalling NaN scale raises no NV under .z is the model's choice (log entry 64), and so is which of two overlapping drained elements stays (log
entry 95). -/
def Obligations.MatrixInstructions : Prop :=
  Sys2Proof.Stated.MatrixWaits ∧ Sys2Proof.Stated.MatrixControl ∧ Sys2Proof.Stated.MatrixElements

/-- Answers, port words and translations arrive at their tasks; the engine is granted. Shown to answer a next state, under conditions on the
state and operands alone: longLatencyResponse, heldAccessResponse, portWordTransfer, translationComplete, engineGrant, awaitAnswer. -/
def Obligations.AnswersReachTasks : Prop :=
  Sys2Proof.Stated.AnswersArrive ∧ Sys2Proof.Stated.AnswerFills ∧ Sys2Proof.Stated.PortWordMoves ∧ Sys2Proof.Stated.TranslationArrives ∧ Sys2Proof.Stated.EngineGoes

/-- The remote port, base die, parking places and host serve accesses. An AMO on a word that cannot be corrected poisons its result and leaves
memory (DEDUCED, log entry 13); which marks block an ordinary write is DEDUCED (log entry 20); that stfull and clrfe change a sector's bit at an
active record too, and what a parked load holds back, are DEDUCED (log entry 48). Shown to answer a next state, under conditions on the state and
operands alone: remotePortAccess, parkedRequestServe, requestResend, baseDieAccess, amoServe, hostRequest, cxlCompletion. -/
def Obligations.AccessesServed : Prop :=
  Sys2Proof.Stated.RemotePortServes ∧ Sys2Proof.Stated.BaseDieServes ∧ Sys2Proof.Stated.PeerWriteServes ∧ Sys2Proof.Stated.ParkedServed ∧ Sys2Proof.Stated.HostServes

/-- Invocations and messages at channels, agents, directories and the translation tables. After objhome the list of the old object is kept by the
agent of the new home's field (DEDUCED, log entry 51); a mismatch at a receiver that is no plot is counted in the package's counter (DEDUCED, log
entry 28); a message that the agent gives back is ready from then on (DESIGN CHOICE, log entry 86). Shown to answer a next state, under
conditions on the state and operands alone: invocationArrival, rawMessageArrival, agentListAppend, agentReturn, directoryForward,
channelBlockRequest, tlbInvalidate, directoryMapUpdate. -/
def Obligations.InvocationsArrive : Prop :=
  Sys2Proof.Stated.InvocationArrives ∧ Sys2Proof.Stated.ChannelQueues ∧ Sys2Proof.Stated.AgentKeeps ∧ Sys2Proof.Stated.DirectoryAndTlb

/-- Promise records: settlements, forwarding, requests and answers. How a record answers requests older than its collapse is DEDUCED (log entry
30). Every settlement of a member that is no break counts as resolved (DEDUCED, log entry 42), a launch of one member has the value 1 (DEDUCED,
log entry 80), and a registration at a chained record waits for that record's collapse (DEDUCED, log entry 43). Shown to answer a next state,
under conditions on the state and operands alone: settlementArrival, recordQueueEntry, acceptanceNotice, chainRegistration, chainCollapse,
awaitRequest, hstatRequest, recordFree. -/
def Obligations.PromiseRecords : Prop :=
  Sys2Proof.Stated.SettlementArrives ∧ Sys2Proof.Stated.RecordForwards ∧ Sys2Proof.Stated.RecordRequests ∧ Sys2Proof.Stated.RecordAnswers

/-- Task start, spill and restore, floor tick and sleep, furrows and quanta. The lowest-numbered free context is taken (DESIGN CHOICE, log entry
14); what a wait makes of a floor-tick quantum is the model's (log entry 105); a follower's instruction that is under way at a split completes
(DEDUCED, log entry 83); a plot with a free context and a task for it does not end its quantum (DESIGN CHOICE, log entry 85). Shown to answer a
next state, under conditions on the state and operands alone: taskStart, contextFree, spill, spillComplete, restore, floorTick, sleepWake,
quantumEnd, quantumApply, followJoin, furrowTimeoutSplit. -/
def Obligations.SchedulerEvents : Prop :=
  Sys2Proof.Stated.TasksStart ∧ Sys2Proof.Stated.SpillAndRestore ∧ Sys2Proof.Stated.FloorAndSleep ∧ Sys2Proof.Stated.FurrowEvents ∧ Sys2Proof.Stated.QuantumEnds

/-- Headgate units grant, release, hand over and bind; barriers let their members go. A waiting acquire counts as an entry of the table (DEDUCED,
log entry 15); without a free space for requests that wait every acquire is sent again (DESIGN CHOICE, log entry 88); a handover's grant is not
counted in GRANTS (DESIGN CHOICE, log entry 108). Shown to answer a next state, under conditions on the state and operands alone:
headgateRequest, headgateGrant, headgateRelease, handoverGrant, hgbindChange, barrierArrival, barrierRelease. -/
def Obligations.HeadgateUnits : Prop :=
  Sys2Proof.Stated.AcquireAtUnit ∧ Sys2Proof.Stated.ReleaseAndHandover ∧ Sys2Proof.Stated.GrantsArrive ∧ Sys2Proof.Stated.BarrierEvents

/-- Weirs: checks, puts, takes, upkeep, pulls and collects. PUL and OVD of a peek are 0 (DEDUCED, log entry 21). The count of redirects and what
a disabling discards are DEDUCED (log entry 49), as are the package's counter of mismatches (log entry 28) and when a new bound takes effect (log
entry 92); two partitions at one pool, a put that precedes only the next Tround, and a put back at a full weir are the model's choices (log
entries 90, 93 and 94). Shown to answer a next state, under conditions on the state and operands alone: weirPut, putRedirect, announcement,
announcementAck, weirTake, weirPeek, weirStat, weirCfg, weirSummary, summaryArrival, moveArrival, pull, pullAnswer, emptinessCollect,
collectAnswer, elementOverdue. -/
def Obligations.PoolEvents : Prop :=
  Sys2Proof.Stated.PoolRequestsChecked ∧ Sys2Proof.Stated.PoolPuts ∧ Sys2Proof.Stated.PoolTakes ∧ Sys2Proof.Stated.PoolUpkeep ∧ Sys2Proof.Stated.PoolPullsAndCollects

/-- Flumes accept, move and end copies; sluices run collectives. A guard that cannot be read fails the copy (DEDUCED, log entry 17); pieces that
end with a word, and late copies found together, are DEDUCED (log entry 79), as are the check of a broadcast's source at the sluice (log entry
11), the words that two chunks share (log entry 100) and the package's counter of mismatches (log entry 28). Shown to answer a next state, under
conditions on the state and operands alone: baseDieAccess, flumeAccept, copyPiece, copyComplete, copyLate, copyFailed, putsSignal, collRequest,
collAccept, collwRequest, chunkArrival, chunkTakeup, commBreakNotice. -/
def Obligations.CopyEvents : Prop :=
  Sys2Proof.Stated.FlumeAccepts ∧ Sys2Proof.Stated.CopyTurns ∧ Sys2Proof.Stated.CopyMoves ∧ Sys2Proof.Stated.PeerPieces ∧
    Sys2Proof.Stated.CopyEnds ∧ Sys2Proof.Stated.Collectives ∧ Sys2Proof.Stated.ChunksMove

/-- Lintil frames, acknowledgements, timeouts and connection states. How many frames out of order a channel keeps is free (log entry 18); the
place of a spilled state is the model's choice (log entry 98). Shown to answer a next state, under conditions on the state and operands alone:
lintilData, lintilAck, lintilNack, lintilOpen, lintilOpenAck, lintilClose, pauseFrameReceive, ackTimer, retransmitTimeout, connectionStateFetch,
lintilUnknownKind. -/
def Obligations.LintilEvents : Prop :=
  Sys2Proof.Stated.LintilFrames ∧ Sys2Proof.Stated.LintilTimers ∧ Sys2Proof.Stated.LintilSends

/-- Thresholds, watchdog, scrubber, squares, retention, the plot's CSRs, and the debug port. That resume forgets a trap held by HOT is DEDUCED
(log entry 55); that the corrections of a rebuilt square are 0 is DEDUCED (log entry 57), and so is the list of started tasks (log entry 102).
Shown to answer a next state, under conditions on the state and operands alone: thresholdWindowReset, watchdog, scrub, squareRebuildComplete,
ptrootWrite, objentWrite, chentWrite, cisternWrite, sqstatWrite, debugHalt, debugResume, debugDeliver, debugStep, debugRegRead, debugRegWrite,
debugCsrRead, debugCsrWrite, debugBufferRead, debugBufferWrite, debugSnapshot, debugIstoreWrite, debugTemplateWrite, retentionEnter,
paritySweepComplete. -/
def Obligations.PlotAndDebug : Prop :=
  Sys2Proof.Stated.PlotCare ∧ Sys2Proof.Stated.PlotCsrWrites ∧ Sys2Proof.Stated.DebugPort

/-- The host window and slots, the management mailbox, start-up, and SPDM. The layouts of SPDM 1.2 are PRESUMED, its certificate chain and
signatures free (log entry 54). Which writes of a slot are discarded is DEDUCED (log entry 53); how the host marks records read, and what EVQ.SET
resets, is the model's choice (log entry 24); the statuses of the commands are DEDUCED (log entry 56); the squares that fail their self-test are
an input (DESIGN CHOICE, log entry 68); where DATA goes is the model's choice (log entry 96), the runtime's launches are DEDUCED (log entry 97),
and configuration space is free (log entry 99). Shown to answer a next state, under conditions on the state and operands alone: hostWindowRead,
hostWindowWrite, hostInvoke, release, partCreate, partDestroy, partDestroyTimeout, partSetdet, partSetcont, commSet, windowMap, imageLoad,
resync, portCfg, powerCap, evqSet, pkgId, getVersion, getCapabilities, negotiateAlgorithms, getDigests, getCertificate, challenge,
getMeasurements, powerOn, startupStageComplete, cxlLinkUp, throttleChange. -/
def Obligations.HostAndStartup : Prop :=
  Sys2Proof.Stated.HostWindow ∧ Sys2Proof.Stated.Management ∧ Sys2Proof.Stated.StartupAndSpdm
end

