-- ==== Sys2Proof/Laws/Sparse.lean ====
section
/-!
SUPPORT. Reads after writes of sparse tables, and their canonical form.
-/

namespace Sys2Proof.Sparse

variable {α : Type}

@[simp] theorem get_nil (d : α) (i : Nat) : get d [] i = d := rfl

theorem get_cons (d : α) (k i : Nat) (v : α) (t : List (Nat × α)) :
    get d ((k, v) :: t) i = if k < i then get d t i else if k = i then v else d := rfl

/-- Entries at or below a key do not matter to reads above it. -/
theorem get_above (d : α) {i j : Nat} (h : i < j) : ∀ m : List (Nat × α), get d (above i m) j = get d m j
  | [] => rfl
  | (k, v) :: t => by
    unfold above
    split
    · rw [get_above d h t, get_cons, if_pos (by omega)]
    · rfl

/-- What stays of a table begins above the key, so the key and everything below read as the default. -/
theorem get_above_le (d : α) {i j : Nat} (h : j ≤ i) : ∀ m : List (Nat × α), get d (above i m) j = d
  | [] => rfl
  | (k, v) :: t => by
    unfold above
    split
    · exact get_above_le d h t
    · rw [get_cons, if_neg (by omega), if_neg (by omega)]

variable [DecidableEq α]

/-- A key reads as what was written to it. -/
@[simp] theorem get_set_self (d : α) (i : Nat) (v : α) : ∀ m : List (Nat × α), get d (set d m i v) i = v
  | [] => by
    unfold set
    split
    · simp_all
    · rw [get_cons]; simp
  | (k, w) :: t => by
    unfold set
    split
    · rw [get_cons, if_pos ‹_›, get_set_self d i v t]
    · split
      · rw [get_above_le d (Nat.le_refl i)]; simp_all
      · rw [get_cons]; simp

/-- Every other key reads as before. -/
theorem get_set_ne (d : α) {i j : Nat} (v : α) (h : j ≠ i) : ∀ m : List (Nat × α), get d (set d m i v) j = get d m j
  | [] => by
    unfold set
    split
    · rfl
    · rw [get_cons]; split
      · rfl
      · rw [if_neg (by omega)]; rfl
  | (k, w) :: t => by
    unfold set
    split
    · rw [get_cons, get_cons, get_set_ne d v h t]
    · rcases Nat.lt_or_gt_of_ne h with hj | hj
      · have hk : get d ((k, w) :: t) j = d := by rw [get_cons, if_neg (by omega), if_neg (by omega)]
        rw [hk]
        split
        · exact get_above_le d (by omega) _
        · rw [get_cons, if_neg (by omega), if_neg (by omega)]
      · split
        · exact get_above d hj _
        · rw [get_cons, if_pos hj]; exact get_above d hj _

/-- A read after a write. -/
theorem get_set (d : α) (m : List (Nat × α)) (i j : Nat) (v : α) :
    get d (set d m i v) j = if j = i then v else get d m j := by
  by_cases h : j = i
  · subst h; simp
  · simp [h, get_set_ne d v h]

/-- A read after a change. -/
theorem get_modify (d : α) (m : List (Nat × α)) (i j : Nat) (f : α → α) :
    get d (modify d m i f) j = if j = i then f (get d m i) else get d m j := get_set d m i j _

omit [DecidableEq α] in
theorem above_idem (i : Nat) : ∀ m : List (Nat × α), above i (above i m) = above i m
  | [] => rfl
  | (k, v) :: t => by
    by_cases h : k ≤ i
    · simp [above, h, above_idem i t]
    · simp [above, h]

theorem set_above (d : α) (i : Nat) (w : α) : ∀ m : List (Nat × α),
    set d (above i m) i w = if w = d then above i m else (i, w) :: above i m
  | [] => by simp [set, above]
  | (k, v) :: t => by
    by_cases h : k ≤ i
    · simp [above, h, set_above d i w t]
    · have hlt : ¬ k < i := by omega
      simp [above, h, set, hlt]

/-- The last of two writes to a key stands. -/
@[simp] theorem set_set (d : α) (i : Nat) (v w : α) : ∀ m : List (Nat × α), set d (set d m i v) i w = set d m i w
  | [] => by
    by_cases h : v = d <;> simp [set, h, above]
  | (k, x) :: t => by
    by_cases hk : k < i
    · simp [set, hk, set_set d i v w t]
    · have ha := set_above d i w ((k, x) :: t)
      by_cases h : v = d
      · simpa [set, hk, h] using ha
      · simp only [set, hk, if_false, h, Nat.lt_irrefl]
        rw [show above i ((i, v) :: above i ((k, x) :: t)) = above i ((k, x) :: t) by
          rw [above, if_pos (Nat.le_refl i)]; exact above_idem i _]

/-! ## The canonical form -/

/-- A canonical table with a lower bound has every weaker one. -/
theorem wfAbove_weaken (d : α) {lo hi : Nat} (h : lo ≤ hi) : ∀ {m : List (Nat × α)}, wfAbove d (some hi) m = true → wfAbove d (some lo) m = true
  | [], _ => rfl
  | (k, v) :: t, w => by
    simp only [wfAbove, Bool.and_eq_true, decide_eq_true_eq] at w ⊢
    exact ⟨⟨by omega, w.1.2⟩, w.2⟩

theorem wf_of_wfAbove (d : α) {lo : Nat} : ∀ {m : List (Nat × α)}, wfAbove d (some lo) m = true → wf d m = true
  | [], _ => rfl
  | (k, v) :: t, w => by
    simp only [wf, wfAbove, Bool.and_eq_true, decide_eq_true_eq, Bool.true_and] at w ⊢
    exact ⟨w.1.2, w.2⟩

theorem wfAbove_above (d : α) (i : Nat) {lo : Option Nat} : ∀ {m : List (Nat × α)}, wfAbove d lo m = true → wfAbove d (some i) (above i m) = true
  | [], _ => rfl
  | (k, v) :: t, w => by
    unfold above
    have w' : wfAbove d (some k) t = true := by
      simp only [wfAbove, Bool.and_eq_true] at w; exact w.2
    split
    · exact wfAbove_above d i w'
    · simp only [wfAbove, Bool.and_eq_true, decide_eq_true_eq] at w ⊢
      exact ⟨⟨by omega, w.1.2⟩, w.2⟩

theorem wfAbove_set (d : α) (i : Nat) (v : α) : ∀ {lo : Option Nat} {m : List (Nat × α)}, (∀ l, lo = some l → l < i) → wfAbove d lo m = true →
    wfAbove d lo (set d m i v) = true
  | lo, [], hl, _ => by
    unfold set
    split
    · rfl
    · cases lo <;> simp_all [wfAbove]
  | lo, (k, x) :: t, hl, w => by
    have w2 : wfAbove d (some k) t = true := by simp only [wfAbove, Bool.and_eq_true] at w; exact w.2
    unfold set
    split
    · simp only [wfAbove, Bool.and_eq_true] at w ⊢
      exact ⟨w.1, wfAbove_set d i v (by rintro l ⟨⟩; assumption) w2⟩
    · have ha : wfAbove d (some i) (above i ((k, x) :: t)) = true := wfAbove_above d i w
      split
      · cases lo with
        | none => exact wf_of_wfAbove d ha
        | some l => exact wfAbove_weaken d (Nat.le_of_lt (hl l rfl)) ha
      · cases lo <;> simp_all [wfAbove]

/-- A write keeps the canonical form. -/
theorem wf_set (d : α) {m : List (Nat × α)} (i : Nat) (v : α) (h : wf d m = true) : wf d (set d m i v) = true :=
  wfAbove_set d i v (by simp) h

/-- So does a write of several values. -/
theorem wf_setN (d : α) : ∀ {m : List (Nat × α)} (i : Nat) (vs : List α), wf d m = true → wf d (setN d m i vs) = true
  | _, _, [], h => h
  | _, i, v :: vs, h => by
    unfold setN
    exact wf_setN d (i + 1) vs (wf_set d i v h)

/-- So do writes one after another. -/
theorem wf_foldl_set {β : Type} (d : α) (key : β → Nat) (val : β → α) : ∀ (l : List β) {m : List (Nat × α)}, wf d m = true →
    wf d (l.foldl (fun m b => set d m (key b) (val b)) m) = true
  | [], _, h => h
  | b :: l, _, h => wf_foldl_set d key val l (wf_set d (key b) (val b) h)

theorem wfAbove_filter (d : α) (p : Nat × α → Bool) : ∀ {lo : Option Nat} {m : List (Nat × α)}, wfAbove d lo m = true →
    wfAbove d lo (m.filter p) = true
  | _, [], _ => rfl
  | lo, (k, x) :: t, w => by
    have w2 : wfAbove d (some k) t = true := by simp only [wfAbove, Bool.and_eq_true] at w; exact w.2
    have ih := wfAbove_filter d p w2
    by_cases hp : p (k, x)
    · rw [List.filter_cons_of_pos hp]
      simp only [wfAbove, Bool.and_eq_true] at w ⊢
      exact ⟨w.1, ih⟩
    · rw [List.filter_cons_of_neg hp]
      cases lo with
      | none => exact wf_of_wfAbove d ih
      | some l =>
        simp only [wfAbove, Bool.and_eq_true, decide_eq_true_eq] at w
        exact wfAbove_weaken d (Nat.le_of_lt w.1.1) ih

/-- Leaving entries out keeps the canonical form. -/
theorem wf_filter (d : α) (p : Nat × α → Bool) {m : List (Nat × α)} (h : wf d m = true) : wf d (m.filter p) = true := wfAbove_filter d p h

end Sys2Proof.Sparse
end

