-- ==== Sys2Proof/Laws/State.lean ====
section
/-!
SUPPORT. What the accessors of the state read after each update: one lemma per field and update.
-/

namespace Sys2Proof.Machine

open Sys2Proof

/-! ## Plots -/

@[simp] theorem State.setPlot_plot_self (s : State) (p : Nat) (x : Plot) : (s.setPlot p x).plot p = x := Sparse.get_set_self _ _ _ _
theorem State.setPlot_plot_ne (s : State) {p q : Nat} (x : Plot) (h : q ≠ p) : (s.setPlot p x).plot q = s.plot q := Sparse.get_set_ne _ _ h _
theorem State.setPlot_plot (s : State) (p q : Nat) (x : Plot) : (s.setPlot p x).plot q = if q = p then x else s.plot q := Sparse.get_set _ _ _ _ _

@[simp] theorem State.setPlot_cycle (s : State) (p : Nat) (x : Plot) : (s.setPlot p x).cycle = s.cycle := rfl
@[simp] theorem State.setPlot_pkg (s : State) (p : Nat) (x : Plot) : (s.setPlot p x).pkg = s.pkg := rfl
@[simp] theorem State.setPlot_stage (s : State) (p : Nat) (x : Plot) : (s.setPlot p x).stage = s.stage := rfl
@[simp] theorem State.setPlot_cur (s : State) (p : Nat) (x : Plot) : (s.setPlot p x).cur = s.cur := rfl
@[simp] theorem State.setPlot_agenda (s : State) (p : Nat) (x : Plot) : (s.setPlot p x).agenda = s.agenda := rfl
@[simp] theorem State.setPlot_serial (s : State) (p : Nat) (x : Plot) : (s.setPlot p x).serial = s.serial := rfl
@[simp] theorem State.setPlot_budget (s : State) (p : Nat) (x : Plot) : (s.setPlot p x).budget = s.budget := rfl
@[simp] theorem State.setPlot_net (s : State) (p : Nat) (x : Plot) : (s.setPlot p x).net = s.net := rfl
@[simp] theorem State.setPlot_mem (s : State) (p : Nat) (x : Plot) : (s.setPlot p x).mem = s.mem := rfl
@[simp] theorem State.setPlot_gateQ (s : State) (p : Nat) (x : Plot) : (s.setPlot p x).gateQ = s.gateQ := rfl
@[simp] theorem State.setPlot_parked (s : State) (p : Nat) (x : Plot) : (s.setPlot p x).parked = s.parked := rfl
@[simp] theorem State.setPlot_parkedPort (s : State) (p : Nat) (x : Plot) : (s.setPlot p x).parkedPort = s.parkedPort := rfl
@[simp] theorem State.setPlot_resend (s : State) (p : Nat) (x : Plot) : (s.setPlot p x).resend = s.resend := rfl
@[simp] theorem State.setPlot_flumes (s : State) (p : Nat) (x : Plot) : (s.setPlot p x).flumes = s.flumes := rfl
@[simp] theorem State.setPlot_comms (s : State) (p : Nat) (x : Plot) : (s.setPlot p x).comms = s.comms := rfl
@[simp] theorem State.setPlot_insts (s : State) (p : Nat) (x : Plot) : (s.setPlot p x).insts = s.insts := rfl
@[simp] theorem State.setPlot_link (s : State) (p : Nat) (x : Plot) : (s.setPlot p x).link = s.link := rfl
@[simp] theorem State.setPlot_fields (s : State) (p : Nat) (x : Plot) : (s.setPlot p x).fields = s.fields := rfl
@[simp] theorem State.setPlot_host (s : State) (p : Nat) (x : Plot) : (s.setPlot p x).host = s.host := rfl
@[simp] theorem State.setPlot_deferred (s : State) (p : Nat) (x : Plot) : (s.setPlot p x).deferred = s.deferred := rfl
@[simp] theorem State.setPlot_dbgOps (s : State) (p : Nat) (x : Plot) : (s.setPlot p x).dbgOps = s.dbgOps := rfl
@[simp] theorem State.setPlot_dbgReplies (s : State) (p : Nat) (x : Plot) : (s.setPlot p x).dbgReplies = s.dbgReplies := rfl
@[simp] theorem State.setPlot_checked (s : State) (p : Nat) (x : Plot) : (s.setPlot p x).checked = s.checked := rfl
@[simp] theorem State.setPlot_selfTest (s : State) (p : Nat) (x : Plot) : (s.setPlot p x).selfTest = s.selfTest := rfl
@[simp] theorem State.setPlot_recLogs (s : State) (p : Nat) (x : Plot) : (s.setPlot p x).recLogs = s.recLogs := rfl
@[simp] theorem State.setPlot_started (s : State) (p : Nat) (x : Plot) : (s.setPlot p x).started = s.started := rfl
@[simp] theorem State.setPlot_sluices (s : State) (p : Nat) (x : Plot) : (s.setPlot p x).sluices = s.sluices := rfl
@[simp] theorem State.setPlot_mismatch (s : State) (p : Nat) (x : Plot) : (s.setPlot p x).mismatch = s.mismatch := rfl
@[simp] theorem State.setPlot_now (s : State) (p : Nat) (x : Plot) : (s.setPlot p x).now = s.now := rfl

/-- The last of two writes of a plot stands. -/
@[simp] theorem State.setPlot_setPlot (s : State) (p : Nat) (x y : Plot) : (s.setPlot p x).setPlot p y = s.setPlot p y := by
  simp [State.setPlot]

/-- A change of a plot, and of a context, as writes. -/
theorem State.modPlot_eq (s : State) (p : Nat) (f : Plot → Plot) : s.modPlot p f = s.setPlot p (f (s.plot p)) := rfl
theorem State.setCtx_eq (s : State) (p c : Nat) (y : Ctx) : s.setCtx p c y = s.setPlot p ((s.plot p).setCtx c y) := rfl
theorem State.modCtx_eq (s : State) (p c : Nat) (f : Ctx → Ctx) : s.modCtx p c f = s.setCtx p c (f (s.ctx p c)) := rfl
theorem State.modMe_eq (s : State) (f : Ctx → Ctx) : s.modMe f = s.modCtx s.cur.1 s.cur.2 f := rfl

/-! ## Contexts of a plot -/

@[simp] theorem Plot.setCtx_ctx_self (x : Plot) (c : Nat) (y : Ctx) : (x.setCtx c y).ctx c = y := Sparse.get_set_self _ _ _ _
theorem Plot.setCtx_ctx_ne (x : Plot) {c d : Nat} (y : Ctx) (h : d ≠ c) : (x.setCtx c y).ctx d = x.ctx d := Sparse.get_set_ne _ _ h _
theorem Plot.setCtx_ctx (x : Plot) (c d : Nat) (y : Ctx) : (x.setCtx c y).ctx d = if d = c then y else x.ctx d := Sparse.get_set _ _ _ _ _
@[simp] theorem Plot.setCtx_tenant (x : Plot) (c : Nat) (y : Ctx) : (x.setCtx c y).tenant = x.tenant := rfl
@[simp] theorem Plot.setCtx_istore (x : Plot) (c : Nat) (y : Ctx) : (x.setCtx c y).istore = x.istore := rfl
@[simp] theorem Plot.setCtx_istoreBad (x : Plot) (c : Nat) (y : Ctx) : (x.setCtx c y).istoreBad = x.istoreBad := rfl
@[simp] theorem Plot.setCtx_bufs (x : Plot) (c : Nat) (y : Ctx) : (x.setCtx c y).bufs = x.bufs := rfl
@[simp] theorem Plot.setCtx_inq (x : Plot) (c : Nat) (y : Ctx) : (x.setCtx c y).inq = x.inq := rfl
@[simp] theorem Plot.setCtx_outq (x : Plot) (c : Nat) (y : Ctx) : (x.setCtx c y).outq = x.outq := rfl
@[simp] theorem Plot.setCtx_chans (x : Plot) (c : Nat) (y : Ctx) : (x.setCtx c y).chans = x.chans := rfl
@[simp] theorem Plot.setCtx_queues (x : Plot) (c : Nat) (y : Ctx) : (x.setCtx c y).queues = x.queues := rfl
@[simp] theorem Plot.setCtx_outbox (x : Plot) (c : Nat) (y : Ctx) : (x.setCtx c y).outbox = x.outbox := rfl
@[simp] theorem Plot.setCtx_objs (x : Plot) (c : Nat) (y : Ctx) : (x.setCtx c y).objs = x.objs := rfl
@[simp] theorem Plot.setCtx_records (x : Plot) (c : Nat) (y : Ctx) : (x.setCtx c y).records = x.records := rfl
@[simp] theorem Plot.setCtx_tiles (x : Plot) (c : Nat) (y : Ctx) : (x.setCtx c y).tiles = x.tiles := rfl
@[simp] theorem Plot.setCtx_groups (x : Plot) (c : Nat) (y : Ctx) : (x.setCtx c y).groups = x.groups := rfl
@[simp] theorem Plot.setCtx_engine (x : Plot) (c : Nat) (y : Ctx) : (x.setCtx c y).engine = x.engine := rfl
@[simp] theorem Plot.setCtx_divBusy (x : Plot) (c : Nat) (y : Ctx) : (x.setCtx c y).divBusy = x.divBusy := rfl
@[simp] theorem Plot.setCtx_utlb (x : Plot) (c : Nat) (y : Ctx) : (x.setCtx c y).utlb = x.utlb := rfl
@[simp] theorem Plot.setCtx_xreq (x : Plot) (c : Nat) (y : Ctx) : (x.setCtx c y).xreq = x.xreq := rfl
@[simp] theorem Plot.setCtx_csr (x : Plot) (c : Nat) (y : Ctx) : (x.setCtx c y).csr = x.csr := rfl
@[simp] theorem Plot.setCtx_sched (x : Plot) (c : Nat) (y : Ctx) : (x.setCtx c y).sched = x.sched := rfl
@[simp] theorem Plot.setCtx_thr (x : Plot) (c : Nat) (y : Ctx) : (x.setCtx c y).thr = x.thr := rfl
@[simp] theorem Plot.setCtx_tmpl (x : Plot) (c : Nat) (y : Ctx) : (x.setCtx c y).tmpl = x.tmpl := rfl
@[simp] theorem Plot.setCtx_mismatch (x : Plot) (c : Nat) (y : Ctx) : (x.setCtx c y).mismatch = x.mismatch := rfl

@[simp] theorem Plot.setCtx_setCtx (x : Plot) (c : Nat) (y z : Ctx) : (x.setCtx c y).setCtx c z = x.setCtx c z := by
  simp [Plot.setCtx]

/-! ## Contexts of the package -/

@[simp] theorem State.setCtx_ctx_self (s : State) (p c : Nat) (y : Ctx) : (s.setCtx p c y).ctx p c = y := by
  simp [State.ctx, State.setCtx]

/-- A read of any context after a write of one. -/
theorem State.setCtx_ctx (s : State) (p c q d : Nat) (y : Ctx) :
    (s.setCtx p c y).ctx q d = if q = p ∧ d = c then y else s.ctx q d := by
  unfold State.ctx State.setCtx
  rw [State.setPlot_plot]
  by_cases h : q = p
  · subst h; simp [Plot.setCtx_ctx]
  · simp [h]

@[simp] theorem State.setCtx_mem (s : State) (p c : Nat) (y : Ctx) : (s.setCtx p c y).mem = s.mem := rfl
@[simp] theorem State.setCtx_net (s : State) (p c : Nat) (y : Ctx) : (s.setCtx p c y).net = s.net := rfl
@[simp] theorem State.setCtx_cur (s : State) (p c : Nat) (y : Ctx) : (s.setCtx p c y).cur = s.cur := rfl
@[simp] theorem State.setCtx_host (s : State) (p c : Nat) (y : Ctx) : (s.setCtx p c y).host = s.host := rfl
@[simp] theorem State.setCtx_cycle (s : State) (p c : Nat) (y : Ctx) : (s.setCtx p c y).cycle = s.cycle := rfl
@[simp] theorem State.setCtx_fields (s : State) (p c : Nat) (y : Ctx) : (s.setCtx p c y).fields = s.fields := rfl
@[simp] theorem State.setCtx_serial (s : State) (p c : Nat) (y : Ctx) : (s.setCtx p c y).serial = s.serial := rfl
@[simp] theorem State.setCtx_pkg (s : State) (p c : Nat) (y : Ctx) : (s.setCtx p c y).pkg = s.pkg := rfl
@[simp] theorem State.setCtx_stage (s : State) (p c : Nat) (y : Ctx) : (s.setCtx p c y).stage = s.stage := rfl
@[simp] theorem State.setCtx_agenda (s : State) (p c : Nat) (y : Ctx) : (s.setCtx p c y).agenda = s.agenda := rfl
@[simp] theorem State.setCtx_budget (s : State) (p c : Nat) (y : Ctx) : (s.setCtx p c y).budget = s.budget := rfl
@[simp] theorem State.setCtx_checked (s : State) (p c : Nat) (y : Ctx) : (s.setCtx p c y).checked = s.checked := rfl
@[simp] theorem State.setCtx_gateQ (s : State) (p c : Nat) (y : Ctx) : (s.setCtx p c y).gateQ = s.gateQ := rfl
@[simp] theorem State.setCtx_parked (s : State) (p c : Nat) (y : Ctx) : (s.setCtx p c y).parked = s.parked := rfl
@[simp] theorem State.setCtx_parkedPort (s : State) (p c : Nat) (y : Ctx) : (s.setCtx p c y).parkedPort = s.parkedPort := rfl
@[simp] theorem State.setCtx_resend (s : State) (p c : Nat) (y : Ctx) : (s.setCtx p c y).resend = s.resend := rfl
@[simp] theorem State.setCtx_flumes (s : State) (p c : Nat) (y : Ctx) : (s.setCtx p c y).flumes = s.flumes := rfl
@[simp] theorem State.setCtx_comms (s : State) (p c : Nat) (y : Ctx) : (s.setCtx p c y).comms = s.comms := rfl
@[simp] theorem State.setCtx_insts (s : State) (p c : Nat) (y : Ctx) : (s.setCtx p c y).insts = s.insts := rfl
@[simp] theorem State.setCtx_selfTest (s : State) (p c : Nat) (y : Ctx) : (s.setCtx p c y).selfTest = s.selfTest := rfl
@[simp] theorem State.setCtx_recLogs (s : State) (p c : Nat) (y : Ctx) : (s.setCtx p c y).recLogs = s.recLogs := rfl
@[simp] theorem State.setCtx_started (s : State) (p c : Nat) (y : Ctx) : (s.setCtx p c y).started = s.started := rfl
@[simp] theorem State.setCtx_sluices (s : State) (p c : Nat) (y : Ctx) : (s.setCtx p c y).sluices = s.sluices := rfl
@[simp] theorem State.setCtx_link (s : State) (p c : Nat) (y : Ctx) : (s.setCtx p c y).link = s.link := rfl
@[simp] theorem State.setCtx_deferred (s : State) (p c : Nat) (y : Ctx) : (s.setCtx p c y).deferred = s.deferred := rfl
@[simp] theorem State.setCtx_dbgOps (s : State) (p c : Nat) (y : Ctx) : (s.setCtx p c y).dbgOps = s.dbgOps := rfl
@[simp] theorem State.setCtx_dbgReplies (s : State) (p c : Nat) (y : Ctx) : (s.setCtx p c y).dbgReplies = s.dbgReplies := rfl
@[simp] theorem State.setCtx_mismatch (s : State) (p c : Nat) (y : Ctx) : (s.setCtx p c y).mismatch = s.mismatch := rfl
@[simp] theorem State.setCtx_now (s : State) (p c : Nat) (y : Ctx) : (s.setCtx p c y).now = s.now := rfl

/-- The current context after a change of it. -/
@[simp] theorem State.modMe_me (s : State) (f : Ctx → Ctx) : (s.modMe f).me = f s.me := by
  simp [State.me, State.modMe, State.setMe]
@[simp] theorem State.modMe_cur (s : State) (f : Ctx → Ctx) : (s.modMe f).cur = s.cur := rfl
@[simp] theorem State.modMe_mem (s : State) (f : Ctx → Ctx) : (s.modMe f).mem = s.mem := rfl
@[simp] theorem State.modMe_net (s : State) (f : Ctx → Ctx) : (s.modMe f).net = s.net := rfl
@[simp] theorem State.modCtx_mem (s : State) (p c : Nat) (f : Ctx → Ctx) : (s.modCtx p c f).mem = s.mem := rfl
@[simp] theorem State.modCtx_net (s : State) (p c : Nat) (f : Ctx → Ctx) : (s.modCtx p c f).net = s.net := rfl
@[simp] theorem State.modCtx_cur (s : State) (p c : Nat) (f : Ctx → Ctx) : (s.modCtx p c f).cur = s.cur := rfl
@[simp] theorem State.modPlot_mem (s : State) (p : Nat) (f : Plot → Plot) : (s.modPlot p f).mem = s.mem := rfl
@[simp] theorem State.modPlot_net (s : State) (p : Nat) (f : Plot → Plot) : (s.modPlot p f).net = s.net := rfl
@[simp] theorem State.modPlot_cur (s : State) (p : Nat) (f : Plot → Plot) : (s.modPlot p f).cur = s.cur := rfl
@[simp] theorem State.modPlot_plot_self (s : State) (p : Nat) (f : Plot → Plot) : (s.modPlot p f).plot p = f (s.plot p) := by
  simp [State.modPlot]

/-! ## Registers -/

@[simp] theorem Regs.gv_zero (x : Regs) : x.gv 0 = 0 := rfl
@[simp] theorem Regs.setGv_zero (x : Regs) (w : Word) : x.setGv 0 w = x := rfl
@[simp] theorem Regs.isEmpty_zero (x : Regs) : x.isEmpty 0 = false := rfl

/-- A g register after a write of one; g0 reads zero whatever is written (R59). -/
theorem Regs.setGv_gv (x : Regs) (r q : Nat) (w : Word) : (x.setGv r w).gv q = if q = r ∧ r ≠ 0 then w else x.gv q := by
  unfold Regs.setGv Regs.gv
  by_cases hr : r = 0
  · simp [hr]
  · by_cases hq : q = 0
    · simp [hq, hr, Ne.symm hr]
    · simp [hr, hq, Regs.filled, Sparse.get_set]

@[simp] theorem Regs.setGv_v (x : Regs) (r : Nat) (w : Word) : (x.setGv r w).v = x.v := by unfold Regs.setGv; split <;> rfl
@[simp] theorem Regs.setGv_r (x : Regs) (r : Nat) (w : Word) : (x.setGv r w).r = x.r := by unfold Regs.setGv; split <;> rfl

/-- A register that is written is full, and the others are as they were (R59). -/
theorem Regs.setGv_isEmpty (x : Regs) (r q : Nat) (w : Word) :
    (x.setGv r w).isEmpty q = if q = r then false else x.isEmpty q := by
  unfold Regs.setGv Regs.isEmpty
  by_cases hr : r = 0
  · subst hr; by_cases hq : q = 0 <;> simp [hq]
  · by_cases hq : q = r <;> simp [hr, hq, Regs.filled, Sparse.get_set]

@[simp] theorem Regs.setVv_g (x : Regs) (r : Nat) (w : V256) : (x.setVv r w).g = x.g := rfl
@[simp] theorem Regs.setVv_r (x : Regs) (r : Nat) (w : V256) : (x.setVv r w).r = x.r := rfl
@[simp] theorem Regs.setSv_g (x : Regs) (r : Nat) (w : S128) : (x.setSv r w).g = x.g := rfl
@[simp] theorem Regs.setSv_v (x : Regs) (r : Nat) (w : S128) : (x.setSv r w).v = x.v := rfl
theorem Regs.setVv_vv (x : Regs) (r q : Nat) (w : V256) : (x.setVv r w).vv q = if q = r then w else x.vv q := Sparse.get_set _ _ _ _ _
theorem Regs.setSv_sv (x : Regs) (r q : Nat) (w : S128) : (x.setSv r w).sv q = if q = r then w else x.sv q := Sparse.get_set _ _ _ _ _

end Sys2Proof.Machine
end

