-- ==== Sys2Proof/Laws/Effects.lean ====
section
/-!
SUPPORT. What the shared effects can change: packets, events for the host, counts, flags, and steps on a packet.
-/

namespace Sys2Proof.Machine

open Sys2Proof

/-! ## Steps on a packet -/

/-- A step on the first packet of its stream that takes it. -/
theorem State.onMsg_some {s t : State} {k : Nat} {m : Packet} {f : State → Packet → Option State}
    (h : s.first k = some m) (hf : f (s.takeMsg k) m = some t) : s.onMsg k f = .next t := by
  simp [State.onMsg, h, hf]

/-- A step on a packet that is not its own, or that has to wait, changes nothing. -/
theorem State.onMsg_none {s : State} {k : Nat} {m : Packet} {f : State → Packet → Option State}
    (h : s.first k = some m) (hf : f (s.takeMsg k) m = none) : s.onMsg k f = .next s := by
  simp [State.onMsg, h, hf]

/-- A step on a packet always has a next state. -/
theorem State.onMsg_next (s : State) (k : Nat) (f : State → Packet → Option State) : ∃ t, s.onMsg k f = .next t := by
  unfold State.onMsg
  split
  · exact ⟨_, rfl⟩
  · split <;> exact ⟨_, rfl⟩

/-! ## Packets -/

/-- What a packet that is sent can change: the packets under way, and the links. -/
def Sent (s t : State) : Prop := t = { s with net := t.net, link := t.link }

theorem Sent.refl (s : State) : Sent s s := rfl

theorem Sent.trans {s t u : State} (h : Sent s t) (g : Sent t u) : Sent s u := by
  unfold Sent at *
  rw [g, h]

theorem State.sent_pushLocal (s : State) (k : Packet) : Sent s (s.pushLocal k) := rfl
theorem State.sent_transmit (s : State) (f : Frame) : Sent s (s.transmit f) := rfl
theorem State.sent_setConn (s : State) (i : Nat) (x : Conn) : Sent s (s.setConn i x) := rfl

theorem State.sent_drainConn (i : Nat) : ∀ (n : Nat) (s : State), Sent s (drainConn n s i)
  | 0, s => Sent.refl s
  | n + 1, s => by
    unfold drainConn
    split
    · rfl
    · split
      · rfl
      · split
        · exact ((State.sent_setConn _ _ _).trans (State.sent_transmit _ _)).trans (State.sent_drainConn i n _)
        · rfl

theorem State.sent_drain (s : State) (i : Nat) : Sent s (s.drain i) := by
  unfold State.drain
  split
  · exact State.sent_drainConn _ _ _
  · rfl

theorem State.sent_sendOn (s : State) (i : Nat) (x : Conn) (k : Packet) : Sent s (s.sendOn i x k) :=
  (State.sent_setConn _ _ _).trans (State.sent_drain _ _)

theorem State.sent_connRoom {s t : State} {port : Nat} (h : s.connRoom port = some t) : Sent s t := by
  unfold State.connRoom at h
  dsimp only at h
  split at h
  · cases h; rfl
  · split at h
    · cases h
    · split at h
      · cases h
      · split at h
        · cases h
        · cases h; rfl

theorem State.sent_linkSend (s : State) (peer : Nat) (k : Packet) : Sent s (s.linkSend peer k).1 := by
  unfold State.linkSend
  split
  · exact State.sent_sendOn _ _ _ _
  · split
    · rfl
    · split
      · rfl
      · rename_i u h
        exact (State.sent_connRoom h).trans rfl

theorem Sent.foldl {β : Type} (f : State → β → State) (hf : ∀ s b, Sent s (f s b)) : ∀ (l : List β) (s : State), Sent s (l.foldl f s)
  | [], s => Sent.refl s
  | b :: l, s => (hf s b).trans (Sent.foldl f hf l _)

/-- Sending a packet. -/
theorem State.sent_push (s : State) (k : Packet) : Sent s (s.push k) := by
  unfold State.push
  split
  · rfl
  · refine (State.sent_linkSend _ _ _).trans (Sent.foldl _ ?_ _ _)
    intro s b
    split
    · rfl
    · exact State.sent_linkSend _ _ _

theorem State.sent_sendMine (s : State) (c : Cls) (d : Endpoint) (m : Msg) : Sent s (s.sendMine c d m) := State.sent_push _ _

theorem State.sent_sendPlot (s : State) (c : Cls) (e : Endpoint) (p t : Nat) (m : Msg) : Sent s (s.sendPlot c e p t m) := State.sent_push _ _

/-! ## Events for the host, counts and flags -/

/-- What an event for the host can change. -/
theorem State.hostEvent_only (s : State) (k a b : Nat) : ∃ (h : Sparse Byte) (e : Evq) (m : List Nat),
    s.hostEvent k a b = { s with mem := { s.mem with host := h }, host := { s.host with evq := e, msix := m } } := by
  unfold State.hostEvent
  dsimp only
  split
  · split <;> exact ⟨_, _, _, rfl⟩
  · exact ⟨_, _, _, rfl⟩

@[simp] theorem State.hostEvent_plots (s : State) (k a b : Nat) : (s.hostEvent k a b).plots = s.plots := by
  obtain ⟨h, e, m, q⟩ := s.hostEvent_only k a b; rw [q]
@[simp] theorem State.hostEvent_plot (s : State) (k a b p : Nat) : (s.hostEvent k a b).plot p = s.plot p := by
  obtain ⟨h, e, m, q⟩ := s.hostEvent_only k a b; rw [q]; rfl
@[simp] theorem State.hostEvent_cur (s : State) (k a b : Nat) : (s.hostEvent k a b).cur = s.cur := by
  obtain ⟨h, e, m, q⟩ := s.hostEvent_only k a b; rw [q]
@[simp] theorem State.hostEvent_net (s : State) (k a b : Nat) : (s.hostEvent k a b).net = s.net := by
  obtain ⟨h, e, m, q⟩ := s.hostEvent_only k a b; rw [q]

/-- A count changes the plot's thresholds, and of other plots nothing. -/
theorem State.count_plot (s : State) (p cls q : Nat) :
    (s.count p cls).2.plot q = if q = p then { s.plot p with thr := ((s.count p cls).2.plot p).thr } else s.plot q := by
  unfold State.count
  dsimp only
  split <;> by_cases h : q = p <;> simp [h, State.modPlot_eq, State.setPlot_plot]

/-- A count leaves every context. -/
theorem State.count_ctx (s : State) (p cls q c : Nat) : (s.count p cls).2.ctx q c = s.ctx q c := by
  unfold State.ctx
  rw [State.count_plot]
  split
  · subst_vars; rfl
  · rfl

/-- A count leaves the current plot and context the current ones. -/
theorem State.count_cur (s : State) (p cls : Nat) : (s.count p cls).2.cur = s.cur := by
  unfold State.count
  dsimp only
  split <;> simp [State.modPlot_eq]

end Sys2Proof.Machine
end

