-- ==== Sys2Proof/Laws/Memory.lean ====
section
/-!
SUPPORT. Every operation that writes the memories keeps their canonical form.
-/

namespace Sys2Proof.Machine

open Sys2Proof

/-- The canonical form, table by table. -/
theorem Memory.wf_iff (m : Memory) : m.wf = true ↔ Sparse.wf 0 m.hbm = true ∧ Sparse.wf false m.fe = true ∧ Sparse.wf false m.bad = true ∧
    Sparse.wf false m.gate = true ∧ Sparse.wf 0 m.host = true := by
  simp [Memory.wf, and_assoc]

/-- Memory after reset has it. -/
theorem Memory.wf_reset : Memory.reset.wf = true := by decide

/-- A power-on or the end of stage 2 leaves host memory alone. -/
theorem Memory.wf_hostOnly {h : Sparse Byte} (w : Sparse.wf 0 h = true) : ({ Memory.reset with host := h } : Memory).wf = true := by
  rw [Memory.wf_iff]; exact ⟨rfl, rfl, rfl, rfl, w⟩

/-- R236: bytes of HBM are written. -/
theorem Memory.wf_write {m : Memory} (bs : List (Nat × Byte)) (h : m.wf = true) : (m.write bs).wf = true := by
  rw [Memory.wf_iff] at h ⊢
  exact ⟨Sparse.wf_foldl_set 0 _ _ bs h.1, h.2.1, Sparse.wf_foldl_set false _ (fun _ => false) _ h.2.2.1, h.2.2.2.1, h.2.2.2.2⟩

/-- R236: a sector is marked. -/
theorem Memory.wf_markGate {m : Memory} (t : Nat) (a : Bool) (h : m.wf = true) : (m.markGate t a).wf = true := by
  rw [Memory.wf_iff] at h ⊢
  exact ⟨h.1, h.2.1, h.2.2.1, Sparse.wf_set _ _ _ h.2.2.2.1, h.2.2.2.2⟩

/-- R382: granules change owner. -/
theorem Memory.wf_zeroGranules {m : Memory} (gs : List Nat) (h : m.wf = true) : (m.zeroGranules gs).wf = true := by
  rw [Memory.wf_iff] at h ⊢
  exact ⟨Sparse.wf_filter _ _ h.1, Sparse.wf_filter _ _ h.2.1, Sparse.wf_filter _ _ h.2.2.1, Sparse.wf_filter _ _ h.2.2.2.1, h.2.2.2.2⟩

/-- R236: an ordinary write. -/
theorem State.wf_hbmWrite {s : State} (bs : List (Nat × Byte)) (h : s.mem.wf = true) : (s.hbmWrite bs).mem.wf = true := Memory.wf_write _ h

/-- R99: a sector's bit. -/
theorem State.wf_setSector {s : State} (t : Nat) (e : Bool) (h : s.mem.wf = true) : (s.setSector t e).mem.wf = true := by
  rw [Memory.wf_iff] at h ⊢
  exact ⟨h.1, Sparse.wf_set _ _ _ h.2.1, h.2.2⟩

/-- R99: a write of an engine. -/
theorem State.wf_hbmEngine {s : State} (bs : List (Nat × Byte)) (h : s.mem.wf = true) : (s.hbmEngine bs).mem.wf = true := by
  unfold State.hbmEngine
  generalize hs : s.hbmWrite bs = u
  have hu : u.mem.wf = true := hs ▸ State.wf_hbmWrite bs h
  clear hs h
  induction bs generalizing u with
  | nil => exact hu
  | cons b t ih => exact ih _ (State.wf_setSector _ _ hu)

/-- R185: the image a spill writes keeps the canonical form. -/
theorem State.wf_writeImage {s : State} (p task n : Nat) (h : s.mem.wf = true) : (s.writeImage p task n).mem.wf = true := Memory.wf_write _ h

/-- R347: bytes of host memory are written. -/
theorem State.wf_hostWrite {s : State} (bs : List (Nat × Byte)) (h : s.mem.wf = true) : (s.hostWrite bs).mem.wf = true := by
  rw [Memory.wf_iff] at h ⊢
  exact ⟨h.1, h.2.1, h.2.2.1, h.2.2.2.1, Sparse.wf_foldl_set 0 _ _ bs h.2.2.2.2⟩

/-- R235: the unit writes a record. -/
theorem State.wf_setGateRec {s : State} (t : Nat) (r : GateRec) (h : s.mem.wf = true) : (s.setGateRec t r).mem.wf = true :=
  Memory.wf_markGate _ _ (Memory.wf_write _ h)

/-- R387: an event record. -/
theorem State.wf_hostEvent {s : State} (k a b : Nat) (h : s.mem.wf = true) : (s.hostEvent k a b).mem.wf = true := by
  unfold State.hostEvent
  dsimp only
  split
  · split
    · rw [Memory.wf_iff] at h ⊢
      refine ⟨h.1, h.2.1, h.2.2.1, h.2.2.2.1, ?_⟩
      dsimp only
      exact Sparse.wf_setN 0 _ _ h.2.2.2.2
    · exact h
  · exact h

/-- The state after reset has it. -/
theorem State.wf_reset : State.reset.mem.wf = true := Memory.wf_reset

end Sys2Proof.Machine
end

