-- ==== Sys2Proof/Laws/Ops.lean ====
section
/-!
SUPPORT. What the shared operations do: the outcome of an attempt, reading and writing registers, and retirement.
-/

namespace Sys2Proof.Machine

open Sys2Proof

/-! ## Outcomes -/

@[simp] theorem State.finish_ok (s t : State) : s.finish (.ok t) = .next t := rfl
@[simp] theorem State.finish_trap (s : State) (c : Cause) (v : Word) : s.finish (.error (.trap c v)) = .next (s.trap c v) := rfl
@[simp] theorem State.finish_block (s : State) (w : Wait) : s.finish (.error (.block w)) = .next (s.blocked w) := rfl

/-- An attempt always has a next state. -/
theorem State.finish_next (s : State) (r : Try State) : ∃ t, s.finish r = .next t := by
  rcases r with (w | ⟨c, v⟩) | t <;> exact ⟨_, rfl⟩

@[simp] theorem Try.bind_ok {α β : Type} (a : α) (f : α → Try β) : ((Except.ok a : Try α) >>= f) = f a := rfl
@[simp] theorem Try.bind_error {α β : Type} (e : Stop) (f : α → Try β) : ((Except.error e : Try α) >>= f) = .error e := rfl
@[simp] theorem need_true (e : Stop) : need true e = .ok () := rfl
@[simp] theorem need_false (e : Stop) : need false e = .error e := rfl

/-! ## Sources -/

/-- A g register that is no port is read, and nothing changes. -/
theorem State.takeG_reg (s : State) (r : Nat) (h : isPort r = false) : s.takeG r = (s.me.regs.gv r, s) := by
  simp [State.takeG, h]

/-- A read of a source leaves every context, and everything outside the plot's inbound queues. -/
theorem State.takeG_frame (s : State) (r : Nat) :
    (s.takeG r).2.cur = s.cur ∧ (s.takeG r).2.me = s.me ∧ (s.takeG r).2 = { s with plots := (s.takeG r).2.plots } ∧
    (∀ q, q ≠ s.cur.1 → (s.takeG r).2.plot q = s.plot q) ∧
    (s.takeG r).2.myPlot = { s.myPlot with inq := (s.takeG r).2.myPlot.inq } := by
  unfold State.takeG
  split
  · split
    · refine ⟨rfl, ?_, rfl, fun q hq => ?_, ?_⟩
      · simp only [State.me, State.ctx, State.modPlot_cur, State.modPlot_plot_self]; rfl
      · exact State.setPlot_plot_ne _ _ hq
      · simp only [State.myPlot, State.modPlot_cur, State.modPlot_plot_self]
    · exact ⟨rfl, rfl, rfl, fun _ _ => rfl, rfl⟩
  · exact ⟨rfl, rfl, rfl, fun _ _ => rfl, rfl⟩

/-! ## Retirement -/

/-- The context after a retirement at the next address. -/
def Ctx.after (x : Ctx) (now : Nat) (pc : Word) : Ctx := { x.retired with pc := pc, issued := true, lastIssue := now }

/-- Retirement in one write: the context goes on at the next address, and the scheduler notes the issue and the count. -/
theorem State.retireAt_eq (s : State) (p c : Nat) :
    s.retireAt p c = s.setPlot p
      { (s.plot p).setCtx c ((s.ctx p c).after s.now ((s.ctx p c).pc + .ofNat 64 (4 * (s.ctx p c).words))) with
        sched := { (s.plot p).sched with
          last := Sparse.set 4 (s.plot p).sched.last (s.ctx p c).csr.taskpri c
          retired := (s.plot p).sched.retired + (s.ctx p c).words } } := by
  simp only [State.retireAt, State.retireBase, State.issuedNow, State.retireLate, State.modCtx, State.modPlot, State.setCtx, State.ctx,
    State.setPlot_plot_self, State.setPlot_setPlot, Plot.setCtx_ctx_self]
  simp only [Plot.setCtx, Plot.ctx, Sparse.set_set, Sparse.get_set_self]
  rfl

@[simp] theorem State.retireAt_cur (s : State) (p c : Nat) : (s.retireAt p c).cur = s.cur := by rw [State.retireAt_eq]; rfl

theorem State.retireAt_me (s : State) :
    (s.retireAt s.cur.1 s.cur.2).me = s.me.after s.now (s.me.pc + .ofNat 64 (4 * s.me.words)) := by
  rw [State.retireAt_eq]
  simp only [State.me, State.ctx, State.setPlot_cur, State.setPlot_plot_self]
  exact Plot.setCtx_ctx_self _ _ _

/-- What a retirement leaves that follows a change of the plot's contexts and outbound queues. -/
theorem State.retire_only (s : State) (cs : Sparse Ctx) (qs : Sparse (List Slot))
    (hc : ∀ c, c ≠ s.cur.2 → Sparse.get Ctx.empty cs c = s.myPlot.ctx c) (hw : (Sparse.get Ctx.empty cs s.cur.2).words = s.me.words) :
    OnlyMe s (s.setPlot s.cur.1 { s.myPlot with ctxs := cs, outq := qs }).retire := by
  unfold State.retire
  rw [State.retireAt_eq]
  simp only [State.setPlot_cur, State.ctx, State.setPlot_plot_self, State.setPlot_setPlot]
  constructor
  · rfl
  · intro q hq; exact State.setPlot_plot_ne _ _ hq
  · rw [State.setPlot_plot_self]; rfl
  · rw [State.setPlot_plot_self]
    simp only [Plot.ctx, hw]; rfl
  · intro c hne
    rw [State.ctx, State.setPlot_plot_self]
    exact (Plot.setCtx_ctx_ne _ _ hne).trans (hc c hne)

/-- A retirement alone. -/
theorem State.retire_went (s : State) : Went s s.retire (s.me.pc + .ofNat 64 (4 * s.me.words)) := by
  have h := s.retire_only s.myPlot.ctxs s.myPlot.outq (fun _ _ => rfl) rfl
  have e : (s.setPlot s.cur.1 { s.myPlot with ctxs := s.myPlot.ctxs, outq := s.myPlot.outq }).retire = s.retire := by
    unfold State.retire
    rw [State.retireAt_eq, State.retireAt_eq]
    simp [State.ctx, State.myPlot]
  refine ⟨e ▸ h, ?_, State.retireAt_me s⟩
  unfold State.retire State.myPlot
  rw [State.retireAt_cur, State.retireAt_eq, State.setPlot_plot_self]; rfl

/-- A value written to a g register or port, and a retirement. -/
theorem State.setG_retire_wrote (s : State) (r : Nat) (w : Word) (hr : r < 64) : Wrote s (s.setG r w).retire r w := by
  by_cases hp : isPort r = true
  · have h60 : 60 ≤ r := by simp [isPort] at hp; omega
    have e : s.setG r w = s.setPlot s.cur.1 { s.myPlot with
        ctxs := s.myPlot.ctxs, outq := Sparse.set [] s.myPlot.outq (r - 60) (s.myPlot.outbound (r - 60) ++ [⟨s.serial, some w⟩]) } := by
      simp only [State.setG, hp, if_true]; rfl
    have hm : (s.setG r w).retire.me = s.me.after s.now (s.me.pc + .ofNat 64 (4 * s.me.words)) := by
      rw [e]; unfold State.retire
      rw [State.retireAt_me]
      simp only [State.me, State.ctx, State.setPlot_cur, State.setPlot_plot_self, State.setPlot_now]; rfl
    have hr : (s.setG r w).retire.me.regs = s.me.regs := by rw [hm]; rfl
    have hq : (s.setG r w).retire.myPlot.outq = Sparse.set [] s.myPlot.outq (r - 60) (s.myPlot.outbound (r - 60) ++ [⟨s.serial, some w⟩]) := by
      rw [e]; unfold State.retire State.myPlot
      rw [State.retireAt_cur, State.retireAt_eq, State.setPlot_plot_self]
      simp only [State.setPlot_cur, State.setPlot_plot_self]; rfl
    refine ⟨?_, ⟨?_, ?_, ?_, ?_⟩, ?_, ?_, ?_, ?_, ?_⟩
    · rw [e]; exact s.retire_only _ _ (fun _ _ => rfl) rfl
    · intro q _; rw [hr]
    · intro q _; rw [hr]
    · intro q _; rw [hr]
    · intro q _; rw [hr]
    · intro _ h; omega
    · rfl
    · intro _ _; simp [Plot.outbound, hq]
    · intro d hd; simp only [Plot.outbound, hq]; exact Sparse.get_set_ne _ _ (by omega) _
    · rw [hm]; rfl
  · have hp' : isPort r = false := by simpa using hp
    have h60 : r < 60 := by
      simp only [isPort, Bool.and_eq_false_iff, decide_eq_false_iff_not] at hp'; omega
    have e : s.setG r w = s.setPlot s.cur.1 { s.myPlot with
        ctxs := (s.myPlot.setCtx s.cur.2 { s.me with regs := s.me.regs.setGv r w }).ctxs, outq := s.myPlot.outq } := by
      simp only [State.setG, hp']; rfl
    have hg : Sparse.get Ctx.empty (s.myPlot.setCtx s.cur.2 { s.me with regs := s.me.regs.setGv r w }).ctxs s.cur.2 =
        { s.me with regs := s.me.regs.setGv r w } := Sparse.get_set_self _ _ _ _
    have hm : (s.setG r w).retire.me = { s.me.after s.now (s.me.pc + .ofNat 64 (4 * s.me.words)) with regs := s.me.regs.setGv r w } := by
      have hs : s.setG r w = s.modMe fun x => { x with regs := x.regs.setGv r w } := by simp only [State.setG, hp']; rfl
      rw [hs]; unfold State.retire
      rw [State.retireAt_me, State.modMe_me]; rfl
    have hr : (s.setG r w).retire.me.regs = s.me.regs.setGv r w := by rw [hm]
    have hq : (s.setG r w).retire.myPlot.outq = s.myPlot.outq := by
      rw [e]; unfold State.retire State.myPlot
      rw [State.retireAt_cur, State.retireAt_eq, State.setPlot_plot_self]
      simp only [State.setPlot_cur, State.setPlot_plot_self]; rfl
    refine ⟨?_, ⟨?_, ?_, ?_, ?_⟩, ?_, ?_, ?_, ?_, ?_⟩
    · rw [e]
      exact s.retire_only _ _ (fun c hc => Plot.setCtx_ctx_ne s.myPlot _ hc) (by rw [hg]; rfl)
    · intro q hq; rw [hr, Regs.setGv_gv]; simp [hq]
    · intro q _; rw [hr]; simp [Regs.vv]
    · intro q _; rw [hr]; simp [Regs.sv]
    · intro q hq; rw [hr, Regs.setGv_isEmpty]; simp [hq]
    · intro h0 _; rw [hr, Regs.setGv_gv, Regs.setGv_isEmpty]; simp [h0]
    · rfl
    · intro h; omega
    · intro d _; simp [Plot.outbound, hq]
    · rw [hm]; rfl

end Sys2Proof.Machine
end

