-- ==== Sys2Proof/Tests/Slice0.lean ====
section
/-!
SUPPORT. The author's own tests: ill-formed terms that WellFormed refuses, words of the spec's listings, single steps with results from
the spec's worked examples, and for every obligation with hypotheses states that meet them.
-/

namespace Sys2Proof.Tests

set_option Elab.async false

open Sys2Proof Sys2Proof.Machine

/-! ## Small states -/

/-- A task in task mode, TASKID 1. -/
def task : Ctx := { Ctx.empty with live := true, csr := { Csrs.reset with taskid := 1 } }

/-- The package after start-up with one plot of tenant 1 that holds a context. -/
def onPlot (pl : Plot) (x : Ctx) : State := { State.reset with stage := 5, plots := [(0, { pl with tenant := 1, ctxs := [(0, x)] })] }

/-- The plain state. -/
def s0 : State := onPlot Plot.reset task

/-- A context with g registers. -/
def withG (g : List (Nat × Word)) : Ctx := { task with regs := { Regs.reset with g := g } }

/-- The plain state with g registers. -/
def sg (g : List (Nat × Word)) : State := onPlot Plot.reset (withG g)

/-- A g register after a step. -/
def gAfter (r : Res) (k : Nat) : Option Word := match r with
  | .next t => some (t.me.regs.gv k)
  | _ => none

/-- A result that waits to be written after a step. -/
def lateAfter (r : Res) (k : Nat) : Option V256 := match r with
  | .next t => (t.me.multi.find? fun m => m.reg == k).map (·.val)
  | _ => none

/-- The flags of FPCSR after a step. -/
def flagsAfter (r : Res) : Option Nat := match r with
  | .next t => some (t.me.csr.fpcsr.toNat % 64)
  | _ => none

/-- The cause, TVAL and EPC of a trap entered by a step. -/
def trapAfter (r : Res) : Option (Nat × Word × Word) := match r with
  | .next t => if bitw t.me.csr.tstat 1 then some (t.me.csr.tcause.toNat, t.me.csr.tval, t.me.csr.epc) else none
  | _ => none

/-! ## Decoding: every instruction, by a word made from its row of the spec's encoding tables (the fixed bits, and the operands in their
fields) -/

theorem test_words_scalar : ([
  (0x04524E80, .add 5 9 14 true false), (0x04524E81, .sub 5 9 14 true false), (0x04524E82, .and 5 9 14 true false),
  (0x04524E83, .or 5 9 14 true false), (0x04524E84, .xor 5 9 14 true false), (0x04524E85, .andn 5 9 14 true false),
  (0x04524E86, .orn 5 9 14 true false), (0x04524E87, .xnor 5 9 14 true false), (0x04524E88, .sll 5 9 14 true false),
  (0x04524E89, .srl 5 9 14 true false), (0x04524E8A, .sra 5 9 14 true false), (0x04524E8B, .rol 5 9 14 true false),
  (0x04524E8C, .ror 5 9 14 true false), (0x04524E90, .slt 5 9 14 true false), (0x04524E91, .sltn 5 9 14 true false),
  (0x04524E92, .seq 5 9 14 true false), (0x04524E93, .sne 5 9 14 true false), (0x04524E94, .min 5 9 14 true false),
  (0x04524E95, .max 5 9 14 true false), (0x04524E96, .minn 5 9 14 true false), (0x04524E97, .maxn 5 9 14 true false),
  (0x04524E98, .mul 5 9 14 true false), (0x04524E99, .mulh 5 9 14 true false), (0x04524E9A, .mulhn 5 9 14 true false),
  (0x04524E9B, .mulhsn 5 9 14 true false), (0x04524E9C, .div 5 9 14 true false), (0x04524E9D, .divn 5 9 14 true false),
  (0x04524E9E, .rem 5 9 14 true false), (0x04524E9F, .remn 5 9 14 true false), (0x045240A2, .clz 5 9 true 2), (0x045240A6, .ctz 5 9 true 2),
  (0x045240AA, .ffs 5 9 true 2), (0x045240AE, .popc 5 9 true 2), (0x04524EB0, .csel 5 9 14 true false), (0x045240B1, .brev 5 9 true),
  (0x045240B2, .bswap 5 9 true), (0x04524EB6, .padd 5 9 14 true false 2), (0x04524EBA, .psub 5 9 14 true false 2)] : List (W32 × Instr)).all (fun p => decide (decode p.1 = .ok p.2)) = true := by decide +kernel

theorem test_words_immediate : ([
  (0x08527005, .addi 5 9 true 4101), (0x0C527005, .andi 5 9 true 4101), (0x10527005, .ori 5 9 true 4101), (0x14527005, .xori 5 9 true 4101),
  (0x18526805, .slti 5 9 true 2053), (0x18527805, .sltni 5 9 true 2053), (0x1C526015, .slli 5 9 true 21), (0x1C526415, .srli 5 9 true 21),
  (0x1C526815, .srai 5 9 true 21), (0x1C526C15, .rori 5 9 true 21), (0x2052651E, .exti 5 9 true 20 30), (0x2052751E, .insi 5 9 true 20 30),
  (0x24524E83, .lea 5 9 14 true false 3), (0x24524E88, .leaA 5 9 14 true false), (0x24524E89, .leaW 5 9 14 true false),
  (0x24524E8A, .leaC 5 9 14 true false)] : List (W32 × Instr)).all (fun p => decide (decode p.1 = .ok p.2)) = true := by decide +kernel

theorem test_words_flow : ([
  (0x2893A805, .beq 9 14 true false 2053), (0x2C93A805, .bne 9 14 true false 2053), (0x3093A805, .blt 9 14 true false 2053),
  (0x3493A805, .bge 9 14 true false 2053), (0x3893A805, .bltn 9 14 true false 2053), (0x3C93A805, .bgen 9 14 true false 2053),
  (0x41E80005, .jal 30 524293), (0x44527005, .jalr 5 9 true 4101), (0x48024080, .follow 9 true), (0x48000001, .lead), (0x48000002, .split),
  (0x48000003, .tend), (0x48000004, .yield), (0x48024085, .sleep 9 true), (0x48024086, .sleepuntil 9 true), (0x48500008, .tself 5),
  (0x48500009, .tselfF 5), (0x48024E8A, .chblk 9 14 true false), (0x48024E8B, .chunb 9 14 true false)] : List (W32 × Instr)).all (fun p => decide (decode p.1 = .ok p.2)) = true := by decide +kernel

theorem test_words_memory : ([
  (0x4C53AA85, .ldl 5 14 true 1 2 133), (0x5153AA85, .stl 21 14 true 1 2 133), (0x5453A285, .ldg 5 14 true 2 133),
  (0x5953A285, .stg 21 14 true 2 133), (0x5C524E82, .ldx 5 9 14 true false 2), (0x5D524E8A, .stx 21 9 14 true false 2),
  (0x6053A885, .ldsync 5 14 true 1 133), (0x6053A985, .ldfe 5 14 true 1 133), (0x6153AA85, .stfull 21 14 true 1 133),
  (0x6003AB85, .clrfe 14 true 1 133)] : List (W32 × Instr)).all (fun p => decide (decode p.1 = .ok p.2)) = true := by decide +kernel

theorem test_words_atomic : ([
  (0x64524E81, .amoAdd 5 9 14 true false 1), (0x64524E85, .amoSwap 5 9 14 true false 1), (0x64524E89, .amoCas 5 9 14 true false 1),
  (0x64524E8D, .amoMin 5 9 14 true false 1), (0x64524E91, .amoMax 5 9 14 true false 1), (0x64524E95, .amoMinn 5 9 14 true false 1),
  (0x64524E99, .amoMaxn 5 9 14 true false 1), (0x64524E9D, .amoAnd 5 9 14 true false 1), (0x64524EA1, .amoOr 5 9 14 true false 1),
  (0x64524EA5, .amoXor 5 9 14 true false 1), (0x64524EA9, .amoFaddF 5 9 14 true false 1), (0x64524EAD, .amoFaddD 5 9 14 true false 1),
  (0x64524EB1, .amoAmerge 5 9 14 true false 1)] : List (W32 × Instr)).all (fun p => decide (decode p.1 = .ok p.2)) = true := by decide +kernel

theorem test_words_gate : ([
  (0x68024080, .acqS 9 true), (0x68024081, .acqX 9 true), (0x68024082, .rel 9 true), (0x68024E83, .handover 9 14 true false),
  (0x68024E84, .hgbind 9 14 true false), (0x68000008, .fenceCtx), (0x68000009, .fencePlot), (0x6800000A, .fenceField), (0x6800000B, .fencePkg),
  (0x6800000C, .fenceSys), (0x68524090, .bar 5 9 true)] : List (W32 × Instr)).all (fun p => decide (decode p.1 = .ok p.2)) = true := by decide +kernel

theorem test_words_pool : ([
  (0x6C524E80, .pput 5 9 14 true false), (0x6C524081, .ptake 5 9 true), (0x6C524082, .ptaken 5 9 true), (0x6C524083, .ppeek 5 9 true),
  (0x6C524084, .pstat 5 9 true), (0x6C024E88, .pcfg 9 14 true false)] : List (W32 × Instr)).all (fun p => decide (decode p.1 = .ok p.2)) = true := by decide +kernel

theorem test_words_control : ([
  (0x705245A5, .invoke 5 9 5 true 37), (0x74524080, .await 5 9 true), (0x74524E81, .awaitb 5 9 14 true), (0x74024082, .resolve 9 true),
  (0x74024083, .resolveref 9 true), (0x74024084, .breakP 9 true), (0x74524085, .hstat 5 9 true), (0x74024586, .send 9 5 true),
  (0x74524087, .recv 5 9 true)] : List (W32 × Instr)).all (fun p => decide (decode p.1 = .ok p.2)) = true := by decide +kernel

theorem test_words_copy : ([
  (0x78524000, .cpy 5 9), (0x78524E01, .cpyE 5 9 14 false), (0x7C524000, .coll 5 9), (0x7C524081, .collw 5 9 true), (0x7C524002, .puts 5 9),
  (0x7C524003, .get 5 9)] : List (W32 × Instr)).all (fun p => decide (decode p.1 = .ok p.2)) = true := by decide +kernel

theorem test_words_vecmem : ([
  (0x82CE5405, .vldRow 11 14 1 true 1029), (0x82CE7505, .vldCol 11 14 1 true 2 261), (0x82CE5C05, .vstRow 11 14 1 true 1029),
  (0x82CE7D05, .vstCol 11 14 1 true 2 261)] : List (W32 × Instr)).all (fun p => decide (decode p.1 = .ok p.2)) = true := by decide +kernel

theorem test_words_vecint : ([
  (0x84D59600, .vaddInt 3 5 6 5 true false), (0x84D59601, .vsubInt 3 5 6 5 true false), (0x84D59602, .vmulInt 3 5 6 5 true false),
  (0x84D59603, .vmulh 3 5 6 5 true false), (0x84D59604, .vminInt 3 5 6 5 true false), (0x84D59605, .vmaxInt 3 5 6 5 true false),
  (0x84D41606, .vabsInt 3 5 5 true), (0x84D41607, .vnegInt 3 5 5 true), (0x84D59608, .vavg 3 5 6 5 true false),
  (0x84D59609, .vabsd 3 5 6 5 true false), (0x84D5960A, .vmacc 3 5 6 5 true false), (0x84D5960B, .vdivInt 3 5 6 5 true false),
  (0x84D5960C, .vrem 3 5 6 5 true false), (0x84D4160D, .vclz 3 5 5 true), (0x84D4160E, .vpopc 3 5 5 true)] : List (W32 × Instr)).all (fun p => decide (decode p.1 = .ok p.2)) = true := by decide +kernel

theorem test_words_vecfloat : ([
  (0x88D5A600, .vaddFloat 3 5 6 9 true false), (0x88D5A601, .vsubFloat 3 5 6 9 true false), (0x88D5A602, .vmulFloat 3 5 6 9 true false),
  (0x88D5A603, .vmulz 3 5 6 9 true false), (0x88D5A604, .vdivFloat 3 5 6 9 true false), (0x88D5A605, .vminFloat 3 5 6 9 true false),
  (0x88D5A606, .vmaxFloat 3 5 6 9 true false), (0x88D42607, .vabsFloat 3 5 9 true), (0x88D42608, .vnegFloat 3 5 9 true),
  (0x88D5A609, .vfma 3 5 6 9 true false), (0x88D5A60A, .vfms 3 5 6 9 true false), (0x88D5A60B, .vfnma 3 5 6 9 true false),
  (0x88D4260C, .vsqrt 3 5 9 true), (0x88D5A60D, .vfmaz 3 5 6 9 true false)] : List (W32 × Instr)).all (fun p => decide (decode p.1 = .ok p.2)) = true := by decide +kernel

theorem test_words_vecmove : ([
  (0x8CD5A600, .vceq 3 5 6 9 true false), (0x8CD5A601, .vcne 3 5 6 9 true false), (0x8CD5A602, .vclt 3 5 6 9 true false),
  (0x8CD5A603, .vcle 3 5 6 9 true false), (0x8CD5A604, .vcun 3 5 6 9 true false), (0x8CD59608, .vand 3 5 6 5 true false),
  (0x8CD59609, .vor 3 5 6 5 true false), (0x8CD5960A, .vxor 3 5 6 5 true false), (0x8CD5960B, .vandn 3 5 6 5 true false),
  (0x8CD4160C, .vnot 3 5 5 true), (0x8CD59610, .vsll 3 5 6 5 true false), (0x8CD59611, .vsrl 3 5 6 5 true false),
  (0x8CD59612, .vsra 3 5 6 5 true false), (0x90D42618, .vcvt 3 5 0 9 true 1 8), (0x94D5A600, .vperm 3 5 6 9 true false),
  (0x94D42601, .vrev 3 5 9 true), (0x94D5A602, .vzipl 3 5 6 9 true false), (0x94D5A603, .vziph 3 5 6 9 true false),
  (0x94D5A604, .vuzpe 3 5 6 9 true false), (0x94D5A605, .vuzpo 3 5 6 9 true false), (0x94D42606, .vmov 3 5 9 true), (0x94C01408, .vidx 3 5),
  (0x952B2610, .vbcast 18 11 9 true), (0x952B2611, .vextr 18 11 9 true), (0x952B2612, .vmskb 18 11 9 true)] : List (W32 × Instr)).all (fun p => decide (decode p.1 = .ok p.2)) = true := by decide +kernel

theorem test_words_vecother : ([
  (0x98D42600, .vrcp 3 5 1 true), (0x98D42601, .vrsqrt 3 5 1 true), (0x98D42602, .vexp2 3 5 1 true), (0x98D42603, .vlog2 3 5 1 true),
  (0x98D42604, .vexp 3 5 1 true), (0x98D42605, .vtanh 3 5 1 true), (0x98D42606, .vsigm 3 5 1 true), (0x98C00820, .vrand 3 2)] : List (W32 × Instr)).all (fun p => decide (decode p.1 = .ok p.2)) = true := by decide +kernel

theorem test_words_stat : ([
  (0x9CD42600, .supd 3 5 9 true), (0x9CD5A601, .supdw 3 5 6 9 true false), (0x9CD58202, .smrg 3 5 6 true false), (0x9CC00003, .sclr 3),
  (0x9CD40204, .sputLo 3 5 true), (0x9CD40205, .sputHi 3 5 true), (0x9CD40206, .sgetLo 3 5 true), (0x9CD40207, .sgetHi 3 5 true),
  (0x9CD42615, .sdrain 3 5 true 5), (0x9CD5A618, .snorm 3 5 6 9 true false), (0x9CD5A619, .snormZ 3 5 6 9 true false),
  (0x9CCE6620, .supdRow 3 14 1 9 true), (0x9CCE6720, .supdCol 3 14 1 9 true)] : List (W32 × Instr)).all (fun p => decide (decode p.1 = .ok p.2)) = true := by decide +kernel

theorem test_words_matrix : ([
  (0xA09391A4, .mma 9 14 17 41), (0xA09391A5, .mmaG 9 14 17 41), (0xA09391A6, .mmas 9 14 17 41), (0xA0024003, .mcfg 9), (0xA0024007, .mcfgD 9),
  (0xA002400B, .mzero 9), (0xA0024E13, .mdrain 9 14), (0xA0024E17, .mdrainZ 9 14), (0xA032401B, .mdrainV 3 9), (0xA0524E23, .mscale 5 9 14),
  (0xA0524E27, .mscaleZ 5 9 14), (0xA0524E33, .mcomp 5 9 14)] : List (W32 × Instr)).all (fun p => decide (decode p.1 = .ok p.2)) = true := by decide +kernel

theorem test_words_system : ([
  (0xF450000D, .csrr 5 13), (0xF452610D, .csrw 5 9 true 13), (0xF452620D, .csrs 5 9 true 13), (0xF452630D, .csrc 5 9 true 13),
  (0xF4000400, .tret), (0xF4026500, .trap 9 true), (0xF40006A5, .brk 165), (0xF4000700, .tfault), (0xF4026800, .iswr 9 true),
  (0xF4026900, .tlbinv 9 true), (0xF4000A00, .tlbinvAll), (0xF4026B00, .objhome 9 true), (0xF8ABCDE1, .modImm 11259361),
  (0xF9000080, .modVf 128), (0xFA030100, .modInv 196864), (0xFBABCDE1, .modHint 11259361)] : List (W32 × Instr)).all (fun p => decide (decode p.1 = .ok p.2)) = true := by decide +kernel

/-! ## Ill-formed terms, one for each check of WellFormed -/

theorem test_wf_refuses_scalar : ([
  .csel 60 1 2 false false, .exti 1 2 false 40 24, .insi 1 2 false 63 1, .insi 61 2 false 0 1, .lea 1 2 3 false false 5,
  .ldl 1 2 false 3 0 0, .ldl 1 2 false 0 7 0, .stl 1 2 false 2 0 0, .stl 1 2 false 0 4 0, .ldg 1 2 false 7 0, .ldg 62 2 false 0 0,
  .stg 1 2 false 4 0, .ldx 1 2 3 false false 7, .ldx 60 2 3 false false 0, .ldsync 60 2 false 3 0, .ldfe 63 2 false 3 0,
  .stfull 1 2 false 2 0, .clrfe 2 false 2 0] : List Instr).all (fun i => !i.wf) = true := by decide +kernel

theorem test_wf_refuses_requests : ([
  .amoAdd 60 1 2 false false 0, .amoSwap 61 1 2 false false 0, .amoCas 60 1 2 false false 0, .amoCas 1 1 59 false false 0,
  .amoMin 60 1 2 false false 0, .amoMax 60 1 2 false false 0, .amoMinn 60 1 2 false false 0, .amoMaxn 60 1 2 false false 0,
  .amoAnd 60 1 2 false false 0, .amoOr 60 1 2 false false 0, .amoXor 60 1 2 false false 0, .amoFaddF 60 1 2 false false 0,
  .amoFaddD 60 1 2 false false 0, .amoAmerge 0 1 2 false false 0, .amoAmerge 59 1 2 false false 0, .amoAmerge 2 1 59 false false 0,
  .bar 60 1 false, .pput 60 1 2 false false, .ptake 0 1 false, .ptake 59 1 false, .ptaken 0 1 false, .ptaken 59 1 false, .ppeek 60 1 false,
  .pstat 60 1 false, .invoke 1 2 9 false 0, .await 60 1 false, .awaitb 60 1 2 false, .awaitb 1 1 60 false, .hstat 60 1 false,
  .send 1 9 false, .recv 60 1 false, .cpy 1 0, .cpy 1 57, .cpyE 1 0 2 false, .cpyE 1 57 2 false, .coll 1 0, .coll 1 57, .puts 1 0,
  .puts 1 56, .get 1 0, .get 1 58] : List Instr).all (fun i => !i.wf) = true := by decide +kernel

theorem test_wf_refuses_vector : ([
  .vldCol 1 2 2 false 0 0, .vstRow 1 2 2 false 0, .vstCol 1 2 2 false 0 0, .vaddFloat 1 2 3 7 false false, .vsubFloat 1 2 3 13 false false,
  .vmulFloat 1 2 3 0 false false, .vmulz 1 2 3 0 false false, .vdivFloat 1 2 3 0 false false, .vminFloat 1 2 3 0 false false,
  .vmaxFloat 1 2 3 0 false false, .vabsFloat 1 2 0 false, .vnegFloat 1 2 0 false, .vfma 1 2 3 0 false false, .vfms 1 2 3 0 false false,
  .vfnma 1 2 3 0 false false, .vsqrt 1 2 0 false, .vfmaz 1 2 3 0 false false, .vceq 1 2 3 13 false false, .vcne 1 2 3 14 false false,
  .vclt 1 2 3 15 false false, .vcle 1 2 3 13 false false, .vcun 1 2 3 7 false false, .vcvt 1 2 0 9 false 0 9, .vcvt 1 2 0 13 false 0 9,
  .vcvt 1 2 0 9 false 0 13, .vcvt 1 2 0 9 false 2 8, .vperm 1 2 3 13 false false, .vrev 1 2 13 false, .vzipl 1 2 3 13 false false,
  .vziph 1 2 3 13 false false, .vuzpe 1 2 3 13 false false, .vuzpo 1 2 3 13 false false, .vmov 1 2 13 false, .vbcast 1 2 13 false,
  .vextr 1 2 13 false, .vmskb 1 2 13 false] : List Instr).all (fun i => !i.wf) = true := by decide +kernel

theorem test_wf_refuses_rest : ([
  .supd 8 1 9 false, .supd 1 1 10 false, .supdw 8 1 2 9 false false, .supdw 1 1 2 7 false false, .smrg 8 1 2 false false,
  .smrg 1 8 2 false false, .smrg 1 2 8 false false, .sclr 8, .sputLo 8 1 false, .sputHi 9 1 false, .sgetLo 1 8 false, .sgetHi 1 8 false,
  .sdrain 1 8 false 0, .snorm 1 2 8 9 false false, .snorm 1 2 3 10 false false, .snormZ 1 2 8 9 false false, .snormZ 1 2 3 0 false false,
  .supdRow 8 1 0 9 false, .supdRow 1 1 3 9 false, .supdRow 1 1 0 10 false, .supdCol 8 1 0 9 false, .supdCol 1 1 2 9 false,
  .supdCol 1 1 0 10 false, .mma 59 1 2 0, .mma 1 59 2 0, .mmaG 59 1 2 0, .mmaG 1 59 2 0, .mmas 59 1 2 0, .mmas 1 59 2 0, .mdrain 1 59,
  .mdrainZ 1 59, .mscale 59 1 2, .mscale 1 2 59, .mscaleZ 59 1 2, .mscaleZ 1 2 59, .mcomp 1 59 2, .mcomp 1 2 59, .csrr 1 0x05,
  .csrw 1 2 false 0x4A, .csrw 1 2 false 0x00, .csrs 1 2 false 0x05, .csrs 1 2 false 0x30, .csrc 1 2 false 0x05, .csrc 1 2 false 0x48,
  .iswr 59 false, .objhome 59 false, .modVf 0xF00080, .modVf 0x14000, .modVf 0x18000, .modVf 0x1, .modVf 0x4, .modInv 1,
  .modInv 0x010200] : List Instr).all (fun i => !i.wf) = true := by decide +kernel

/-! ## Words of the spec's own listings -/

theorem test_listing_scalar : ([
  (0x08701357, .addi 7 0 false 0x1357), (0x2C500FFF, .bne 5 0 false false 0xFFF), (0x40100002, .jal 1 2), (0x0450C02F, .popc 5 3 false 3),
  (0x04B0C401, .sub 11 3 4 false false), (0x04D0C410, .slt 13 3 4 false false), (0x04D30B30, .csel 13 12 11 false false),
  (0x44004000, .jalr 0 1 false 0), (0x10000000, .ori 0 0 false 0), (0x48000003, .tend), (0x48050006, .sleepuntil 20 false)]
  : List (W32 × Instr)).all (fun p => decide (decode p.1 = .ok p.2)) = true := by decide +kernel

theorem test_listing_memory : ([
  (0x50718300, .stl 7 6 false 0 3 0), (0x60818101, .ldfe 8 6 false 0 1), (0x58628300, .stg 6 10 false 3 0), (0x54728300, .ldg 7 10 false 3 0),
  (0x64038802, .amoAdd 0 14 8 false false 2), (0x68014001, .acqX 5 false), (0x68014A04, .hgbind 5 10 false false), (0x6A798010, .bar 39 38 false),
  (0x6C714600, .pput 7 5 6 false false), (0x6CA20002, .ptaken 10 8 false), (0x79420000, .cpy 20 8), (0x7D420002, .puts 20 8),
  (0x7D420003, .get 20 8), (0x7D460000, .coll 20 24), (0x7D654001, .collw 22 21 false)]
  : List (W32 × Instr)).all (fun p => decide (decode p.1 = .ok p.2)) = true := by decide +kernel

theorem test_listing_rest : ([
  (0x71454104, .invoke 20 21 1 false 4), (0x75960000, .await 25 24 false), (0x75F6E001, .awaitb 31 27 32 false), (0x7400C002, .resolve 3 false),
  (0x94400808, .vidx 1 2), (0x8D48E402, .vclt 5 2 3 9 false false), (0xA0A30E00, .mma 10 12 14 0), (0xA030001B, .mdrainV 3 0),
  (0xA003C003, .mcfg 15), (0x9C804002, .smrg 2 0 1 false false), (0xF4B2C10D, .csrw 11 11 false 0x0D), (0xF4000400, .tret), (0xF4000500, .trap 0 false),
  (0xF4000700, .tfault), (0xF8123400, .modImm 0x123400), (0xF917C000, .modVf 0x17C000), (0xF9000080, .modVf 0x80), (0x90842402, .vcvt 2 1 0 9 false 0 2),
  (0x81000800, .vstRow 4 0 0 false 0), (0x81552200, .vldCol 5 21 0 false 1 0), (0x8888A400, .vaddFloat 2 2 2 9 false false),
  (0x9D082414, .sdrain 4 2 false 4), (0x9DD52019, .snormZ 7 5 4 8 false false), (0x4C918008, .ldl 9 6 false 0 0 8)]
  : List (W32 × Instr)).all (fun p => decide (decode p.1 = .ok p.2)) = true := by decide +kernel

/-- R70: words that are no instruction. -/
theorem test_words_refused : ([0x00000000, 0xFFFFFFFF, 0x0400003F] : List W32).all (fun w => match decode w with
  | .ok _ => false
  | .error _ => true) = true := by decide +kernel

/-! Number formats: the tables of R38, R40 and R43. -/

/-- A binary32 code in a format of the f8 family: signed or not, precision, infinities, mode, sat. -/
def f8 (ty p : Nat) (inf : Bool) (rm : Nat) (sat : Bool) (c : Nat) : Nat × Nat := convert fmtF (fmtOf ty p inf) rm sat false c

/-- R38. -/
theorem test_codes : (f8 11 4 false 0 false 0x3F800000).1 = 0x40 ∧ (f8 11 4 false 0 false 0x41800000).1 = 0x60 ∧ (f8 11 4 false 0 false 0xBF800000).1 = 0xC0 ∧
    (f8 11 4 true 0 false 0x43600000).1 = 0x7E ∧ (f8 11 4 false 0 false 0xBA800000).1 = 0x81 ∧ (f8 11 1 false 0 false 0x3F800000).1 = 0x40 ∧
    (f8 12 4 false 0 false 0x3F000000).1 = 0x78 ∧ (f8 12 1 false 0 false 0x00400000).1 = 0x01 ∧ (convert fmtF (fmtOf 8 0 false) 0 false false 0x3F800000).1 = 0x3C00 := by
  decide +kernel

/-- R40's table: NV 1, OF 4, UF 8, NX 16, SAT 32. -/
theorem test_round : f8 11 4 false 0 false 0x3E99999A = (0x32, 16) ∧ f8 11 4 false 1 false 0x3E99999A = (0x31, 16) ∧ f8 11 4 false 0 false 0x437A0000 = (0x80, 20) ∧
    f8 11 4 false 0 true 0x437A0000 = (0x7F, 48) ∧ f8 11 4 false 1 false 0x437A0000 = (0x7F, 16) ∧ f8 11 4 false 0 false 0x43800000 = (0x80, 20) ∧
    f8 11 4 true 0 false 0x437A0000 = (0x7F, 20) ∧ f8 11 4 true 0 true 0x437A0000 = (0x7E, 48) ∧ f8 11 4 false 0 true 0xC3960000 = (0xFF, 48) := by decide +kernel
theorem test_round_small : f8 11 4 false 0 false 0x39800000 = (0, 24) ∧ f8 11 4 false 2 false 0x39800000 = (1, 24) ∧ f8 11 4 false 3 false 0xB9800000 = (0x81, 24) ∧
    f8 11 4 false 0 false 0x80000000 = (0, 0) ∧ f8 12 4 false 0 false 0xC0000000 = (0xFF, 1) ∧ f8 12 4 false 0 true 0xC0000000 = (0, 32) ∧
    f8 12 4 false 0 false 0xC0066666 = (0xFF, 1) ∧ f8 12 4 false 0 true 0xC0066666 = (0, 48) := by decide +kernel

/-- R43's worked example: 4096 · 4096 + 1 · 1 − 4096 · 4096. -/
theorem test_accumulate : Claims.accumulate false (fmtOf 8 0 false) (fmtOf 8 0 false) 0 [(0x6C00, 0x6C00), (0x3C00, 0x3C00), (0xEC00, 0x6C00)] = (0, 16) := by
  decide +kernel

/-! ## Single steps, with results of the spec's worked examples and tables -/

theorem test_clz16 : gAfter (exec (.clz 5 3 false 1) (sg [(3, 0x0000000180000_0F0)])) 5 = some 0x0010000F00000008 := by decide +kernel
theorem test_ffs8 : gAfter (exec (.ffs 5 3 false 0) (sg [(3, 0x8001)])) 5 = some 0x0801 := by decide +kernel
theorem test_popc8 : gAfter (exec (.popc 5 3 false 0) (sg [(3, 0xFF01)])) 5 = some 0x0801 := by decide +kernel
theorem test_padd8 : gAfter (exec (.padd 5 3 4 false false 0) (sg [(3, 0x7F80), (4, 0x01FF)])) 5 = some 0x807F := by decide +kernel

/-- A pair with a kind-01 modifier. -/
def paired (p : BitVec 24) (g : List (Nat × Word)) : State := onPlot Plot.reset { withG g with pair := some (.vf p) }

/-- R78: 127 + 1 and −128 − 1 clamp; unsigned, 127 + 1 is exact and 128 + 255 clamps. -/
theorem test_padd8_sat : (let r := exec (.padd 5 3 4 false false 0) (paired 0x80 [(3, 0x7F80), (4, 0x01FF)])
    (gAfter r 5, flagsAfter r)) = (some 0x7F80, some 32) := by decide +kernel
theorem test_padd8_satn : (let r := exec (.padd 5 3 4 false false 0) (paired 0x88 [(3, 0x7F80), (4, 0x01FF)])
    (gAfter r 5, flagsAfter r)) = (some 0x80FF, some 32) := by decide +kernel

/-- R28: the most negative number by −1, and a division by 0. -/
theorem test_div_overflow : lateAfter (exec (.div 5 3 4 false false) (sg [(3, 0x8000000000000000), (4, 0xFFFFFFFFFFFFFFFF)])) 5
    = some 0x8000000000000000 := by decide +kernel
theorem test_remn_zero : lateAfter (exec (.remn 5 3 4 false false) (sg [(3, 17)])) 5 = some 17 := by decide +kernel
theorem test_divn_zero : lateAfter (exec (.divn 5 3 4 false false) (sg [(3, 17)])) 5 = some 0xFFFFFFFFFFFFFFFF := by decide +kernel

/-- R85's example of LEA.W. -/
theorem test_lea_w : gAfter (exec (.leaW 5 3 4 false false) (sg [(3, 0x25112A), (4, 0x100)])) 5 = some 0xC0009444A9000100 := by decide +kernel

/-- A plot whose traps go to 0x1000. -/
def vectored : Plot := { Plot.reset with csr := { Plot.reset.csr with tvec := 0x8000000000001000 } }

/-- R54: a jump to 0x000E from 0x0024. -/
theorem test_jalr_misaligned : trapAfter (exec (.jalr 1 3 false 0) (onPlot vectored { withG [(3, 0xE)] with pc := 0x24 }))
    = some (3, 0x24, 0xE) := by decide +kernel
theorem test_jalr_link : gAfter (exec (.jalr 1 3 false 0) (onPlot vectored { withG [(3, 0xE)] with pc := 0x24 })) 1 = some 0x28 := by
  decide +kernel
/-- R54: a jump past 0x1FFC. -/
theorem test_jal_outside : trapAfter (exec (.jal 0 1) (onPlot vectored { task with pc := 0x1FFC })) = some (4, 0x1FFC, 0x2000) := by
  decide +kernel
theorem test_tret_task : trapAfter (exec .tret (onPlot vectored { task with pc := 0x40 })) = some (2, 0, 0x40) := by decide +kernel

/-! The vector unit and the statistics records. -/

/-- The plain state with v registers, and a modifier. -/
def sv (p : Option (BitVec 24)) (v : List (Nat × V256)) : State :=
  onPlot Plot.reset { task with regs := { Regs.reset with v := v }, pair := p.map .vf }

/-- R122: vabs.i8 of −128, and vneg.n16 of 5 with sat. -/
theorem test_vabs_i8 : lateAfter (exec (.vabsInt 2 1 0 false) (sv none [(1, 0x80)])) 66 = some 0x80 := by decide +kernel
theorem test_vabs_i8_sat : lateAfter (exec (.vabsInt 2 1 0 false) (sv (some 0x80) [(1, 0x80)])) 66 = some 0x7F := by decide +kernel
theorem test_vneg_n16_sat : lateAfter (exec (.vnegInt 2 1 5 false) (sv (some 0x80) [(1, 5)])) 66 = some 0 := by decide +kernel

/-- R42: +0 ×z −∞ and −0 ×z NaN are −0, without a flag. -/
theorem test_vmulz : (let r := exec (.vmulz 2 1 3 9 false false) (sv none [(1, 0x80000000_00000000), (3, 0x7F800001_FF800000)])
    (lateAfter r 66, flagsAfter r)) = (some 0x80000000_80000000, some 0) := by decide +kernel

/-- R131's test vector. -/
theorem test_vrand : lateAfter (exec (.vrand 2 3) (sv none [])) 66
    = some 0x570B818E8016E903A7BBD11502C5520727BA6866225414A0743AD4C48482F305 := by decide +kernel

/-- R61: one empty port as both sources, with the EMPTY trap asked for by b alone: the earlier source counts, and the instruction blocks. -/
theorem test_port_twice : (match exec (.add 5 62 62 false true) (sg []) with
    | .next t => t.me.block.isSome && !bitw t.me.csr.tstat 1
    | _ => false) = true := by decide +kernel

/-- R384: the digest of "abc", from FIPS 180-4's own example. -/
theorem test_sha384 : sha384 [0x61, 0x62, 0x63] =
    0xcb00753f45a35e8bb5a03d699ac65007272c32ab0eded1631a8b605a43ff5bed8086072ba1e7cc2358baeca134c825a7 := by decide +kernel
/-! ## States that meet the hypotheses of the obligations

A theorem `meets_<name>` gives a state and operands for each clause of the statement of that name. -/

/-- A result is a next state with a property. -/
theorem answers {r : Res} {f : State → Bool} (h : (match r with | .next t => f t | _ => false) = true) : ∃ t, r = .next t ∧ f t = true := by
  cases r with
  | next t => exact ⟨t, rfl, h⟩
  | fault _ => cases h
  | refused _ => cases h

/-- The plain state in supervisor mode. -/
def sSup (g : List (Nat × Word)) : State := onPlot Plot.reset { withG g with sup := true }

theorem meets_DecodeEncode : (Instr.add 1 2 1 false false).wf = true ∧ encode (.add 1 2 1 false false) = some 0x04108100 := by decide +kernel
theorem meets_EncodeDecode : decode 0xF4000400 = .ok .tret := by decide +kernel
theorem meets_StepKeepsInv : let s := { State.reset with agenda := [.wait 1] };
    s.Inv ∧ ∃ t, step s = .next t ∧ (t.cycle == 1) = true :=
  ⟨⟨by decide, by unfold State.stageLegal; decide⟩, answers (by decide +kernel)⟩

theorem meets_SourceIsRead : (onPlot { Plot.reset with inq := [(2, [5, 6])] } task).myPlot.inbound (62 - 60) = [5, 6] := by decide +kernel
theorem meets_TwoSourceResult : Ready (sg [(3, 7), (4, 9)]) [gs 3 false, gs 4 true] [regG 5] ∧
    (.min, fun x y : Word => if x.toInt ≤ y.toInt then x else y) ∈ Claims.twoSource 3 := ⟨by decide +kernel, by simp [Claims.twoSource]⟩
theorem meets_OneSourceResult : Ready (sg [(3, 7)]) [gs 3 false] [regG 5] ∧ Ready (sg [(3, 7)]) [gs 3 true] [regG 0] := by decide +kernel
theorem meets_ThirdSourceResult : Ready (sg [(3, 7), (4, 9), (5, 1)]) [gs 3 false, gs 4 false, gs 5 false] [regG 5] ∧
    Ready (sg [(3, 7), (5, 1)]) [gs 3 false, gs 5 false] [regG 5] ∧ (63#6).toNat + (0#6).toNat < 64 := by decide +kernel
theorem meets_SumResult : Ready (paired 0x80 [(3, 0x7F80), (4, 0x01FF)]) [gs 3 false, gs 4 false] [regG 5] ∧
    (modVf (paired 0x80 []).me.pair).sat = true ∧ (modVf s0.me.pair).sat = false ∧
    Claims.greatest 8 false < Claims.exactSum 8 false false 0x7F 1 ∧ Claims.exactSum 8 false false 0x80 0xFF < Claims.least 8 false := by
  decide +kernel
theorem meets_LateResult : Ready (sg [(3, 7), (4, 9)]) [gs 3 false, gs 4 false] [regG 0] ∧
    Ready (sg [(3, 7)]) [gs 3 false, gs 4 false] [regG 5] ∧ (sg []).myPlot.divBusy = none := by decide +kernel
/-- For g5, g0, a port, v1 and s2. -/
theorem meets_LateResultIsWritten : ∀ m ∈ ([⟨5, 0, 9, true⟩, ⟨0, 0, 9, false⟩, ⟨61, 3, 9, false⟩, ⟨65, 0, 9, false⟩, ⟨82, 0, 9, false⟩] : List Multi),
    ((onPlot Plot.reset { task with multi := [m] }).ctx 0 0).multi[0]? = some m := by decide +kernel
theorem meets_DivisionTable : (8 : Nat) ≠ 0 ∧ (128 = 2 ^ (8 - 1)) ∧ (255 = 2 ^ 8 - 1) ∧ (255 < 2 ^ 8) := by decide

/-- Taken to a good and to a bad target, and not taken. -/
theorem meets_BranchGoes : Ready (sg [(3, 7), (4, 7)]) [gs 3 false, gs 4 false] [] ∧
    Claims.goodTarget ((sg []).ipc + ((0x7FF#12).signExtend 64) * 4) ∧ ¬ Claims.goodTarget ((sg []).ipc + ((0xFFF#12).signExtend 64) * 4) := by
  refine ⟨by decide +kernel, ?_⟩
  unfold Claims.goodTarget
  decide +kernel
theorem meets_JumpGoes : Ready (sg [(3, 8)]) [] [regG 1] ∧ Ready (sg [(3, 8)]) [gs 3 false] [regG 3] ∧
    Claims.goodTarget (8 + (0x0FF8#13).signExtend 64) ∧ ¬ Claims.goodTarget (8 + (1#13).signExtend 64) := by
  unfold Claims.goodTarget
  decide +kernel

/-- A package whose plot 0 holds an add at its PC, as its cycle begins, and that context as it executes. -/
def adds : State := State.reset.withFetchWord 32 0x04108100
def addsNow : State := ((({ adds with agenda := [] } : State).noteFollow 0).modPlot 0 (·.refresh adds.now)).findLate 0
def addsHere : State := ({ addsNow with cur := (0, 0) } : State).setCtx 0 0 (addsNow.ctx 0 0)

/-- A context without a due trap takes none. -/
theorem noneDue {y : Ctx} {late : CopyRec → Bool} (h : y.due.step = none ∧ y.due.numeric = [] ∧ y.due.spillFull = none ∧ y.lateDue late = none)
    (est : CopyRec → Nat) : y.boundary late est = none := by
  simp [Ctx.boundary, h.1, h.2.1, h.2.2.1, h.2.2.2]

/-- The add issues; a context outside a pair fetches, and one in a pair has its second word. -/
theorem meets_StepRunsDecoded :
    adds.agenda = [.plot 0] ∧ Claims.Selected addsNow 0 0 [] ∧ Claims.Fetches addsNow 0 0 0x04108100 ∧
    ∃ r, exec (Claims.instrOf 0x04108100) addsHere = .next r ∧
      ((addsHere.notePops (tryPair 0 0 addsHere r) 0 0).stuck 0 0 == false) = true :=
  ⟨by decide +kernel, ⟨by decide +kernel, by decide +kernel, by decide +kernel,
      ⟨by decide +kernel, by decide +kernel, .inr (noneDue (by decide +kernel))⟩, by decide +kernel⟩,
    ⟨by decide +kernel, by decide +kernel, by decide +kernel, by decide +kernel, by decide +kernel⟩, answers (by decide +kernel)⟩
theorem meets_Second : Claims.Second (onPlot { Plot.reset with istore := [(0, 0xF9000080), (1, 0x04108100)] } { task with pair := some (.vf 0x80), second := 0x04108100 })
    0 0 0x04108100 := by
  unfold Claims.Second
  decide +kernel

/-! Traps and CSRs. -/

/-- A context in a handler. -/
def inTrap (tstat : Word) : Ctx := { task with sup := true, csr := { Csrs.reset with taskid := 1, tstat := tstat, epc := 0x40 } }

/-- A trap of a task, with a vector and without, of a handler, and of a context with HOT. -/
theorem meets_TrapEntry :
    (∀ x ∈ [task, inTrap 2, { task with csr := { Csrs.reset with dbgctl := 0x400 } }],
      ((onPlot vectored x).ctx 0 0).furrow.leader = none ∧ ((onPlot vectored x).ctx 0 0).mul.flags = 0) ∧
    Claims.HotHalts { task with csr := { Csrs.reset with dbgctl := 0x400 } } .illegal ∧
    Claims.HotHalts { task with csr := { Csrs.reset with dbgctl := 0x200 } } .step ∧
    ¬ Claims.HotHalts task .illegal ∧ ¬ Claims.HotHalts (inTrap 2) .illegal ∧
    tsIntrap (inTrap 2).csr.tstat = true ∧ tsIntrap task.csr.tstat = false ∧
    bitw vectored.csr.tvec 63 = true ∧ bitw Plot.reset.csr.tvec 63 = false := by
  unfold Claims.HotHalts
  decide +kernel

/-- A tret to a good and to a bad address. -/
theorem meets_TrapReturn :
    ((onPlot vectored (inTrap 2)).me.sup = true ∧ tsIntrap (onPlot vectored (inTrap 2)).me.csr.tstat = true ∧
      Ready (onPlot vectored (inTrap 2)) [] []) ∧
    (onPlot vectored { inTrap 2 with csr := { (inTrap 2).csr with epc := 0x2000 } }).me.csr.epc = 0x2000 ∧
    Claims.goodTarget 0x40 ∧ ¬ Claims.goodTarget 0x2000 := by
  unfold Claims.goodTarget
  decide +kernel

theorem meets_ContainmentLevel : ([(true, 1), (false, 3), (true, 0)] = [(true, 1), (false, 3)] ++ (true, 0) :: []) ∧
    (∀ k ∈ [(true, 1), (false, 3)], ¬ Claims.decides 3 k) ∧ Claims.decides 3 (true, 0) ∧ Claims.decides 2 (true, 1) ∧
    ∀ l ∈ [(false, 0)], ¬ Claims.decides 0 l := by
  unfold Claims.decides
  decide

/-- A plot whose PCONT names an action. -/
def contains (n : Word) : Plot := { Plot.reset with csr := { Plot.reset.csr with pcont := n } }

/-- Containment that ignores, synchronous and asynchronous, retries, and kills. -/
theorem meets_Containment :
    containAct (tsRcnt 2) ((contains 4).levels 0) = 0 ∧ containAct (tsRcnt 10) ((contains 4).levels 0) = 0 ∧
    containAct (tsRcnt 0x2002) ((contains 5).levels 0) = 1 ∧ tsRcnt 0x2002 < 15 ∧
    containAct 0 ((contains 6).levels 0) = 2 ∧ containAct 0 ((contains 7).levels 0) = 3 ∧
    tsAsync 2 = false ∧ tsAsync 10 = true := by decide +kernel

theorem meets_Killed : let s := onPlot Plot.reset { task with task := ⟨0, 0xABC, 0xDEF, 0⟩ };
    (s.ctx 0 0).gates = [] ∧ (s.ctx 0 0).furrow = Furrow.none ∧ (s.ctx 0 0).task.promise ≠ 0 ∧ (s.ctx 0 0).before 4 = [] ∧
    ∀ h ∈ (s.plot 0).outbox, h.task ≠ (s.ctx 0 0).csr.taskid := by decide +kernel
theorem meets_SoftwareTraps : Ready (sg [(3, 7)]) [gs 3 false] [] ∧ Ready s0 [] [] := by decide +kernel
theorem meets_TrapFault : (sSup []).me.sup = true ∧ Ready (sSup []) [] [] := by decide +kernel
theorem meets_PrivilegeTraps : s0.me.sup = false ∧ csrTask (0x0C#8).toNat = false ∧ csrTask (0x10#8).toNat = true := by decide +kernel
theorem meets_CsrAccess : (sSup []).me.sup = true ∧ csrTask (0x10#8).toNat = true ∧ Ready (sSup []) [] [regG 5] ∧
    Ready (sg [(3, 7)]) [gs 3 false] [regG 3] := by decide +kernel
theorem meets_FpcsrLayout : 5 ≤ (0x700 : Word).toNat / 256 % 8 ∧ ¬ 5 ≤ (0x400 : Word).toNat / 256 % 8 := by decide
theorem meets_StoreWordWritten : (sSup []).me.sup = true ∧ Ready (sSup [(3, 0x1FFC), (4, 5)]) [gs 3 false, ⟨regG 3 + 1, false⟩] [] ∧
    Ready (sSup [(3, 0x2000)]) [gs 3 false, ⟨regG 3 + 1, false⟩] [] := by decide +kernel

/-! Tasks and furrows. -/

theorem meets_YieldAndSleep : Ready (sg [(3, 7)]) [gs 3 false] [] ∧ s0.now < s0.now + ((sg [(3, 7)]).takeG (regG 3)).1.toNat ∧
    (s0.now + (s0.takeG (regG 0)).1.toNat ≤ s0.now) ∧ (s0.takeG (regG 0)).1.toNat ≤ s0.now ∧ (({ s0 with cycle := 7 } : State).now = 7) := by
  decide +kernel
theorem meets_TaskSelf : Ready s0 [] [regG 5] ∧ s0.me.furrow.lead = false ∧
    (let f := { Furrow.none with lead := true, followers := [(1, 0)] }; f.lead = true ∧ f.followers.length < 64) := by decide +kernel

/-- A channel of the own plot, one of another plot, a channel word that is none, and a plot word that is none. -/
theorem meets_ChannelBlock : Ready (sg [(3, 0), (4, 63)]) [gs 3 false, gs 4 false] [] ∧ Ready (sg [(3, 1), (4, 63)]) [gs 3 false, gs 4 false] [] ∧
    Ready (sg [(3, 1), (4, 64)]) [gs 3 false, gs 4 false] [] ∧ Ready (sg [(3, 0xD8)]) [gs 3 false, gs 4 false] [] ∧
    (0xD7 % 256 ≤ 215 ∧ ¬ 0xD8 % 256 ≤ 215) ∧ s0.pkg = 0 ∧ s0.cur.1 = 0 := by decide +kernel

/-- Two contexts on plot 0. -/
def pairOf (x y : Ctx) : State := { State.reset with stage := 5, plots := [(0, { Plot.reset with tenant := 1, ctxs := [(0, x), (1, y)] })] }

/-- The plain state with a spilled task beside it. -/
def withImage (x : Ctx) : State := onPlot { Plot.reset with sched := { Plot.reset.sched with images := [(x, none)] } } task

/-- No context and no spilled task leads, another context leads, or did and has ended, and a spilled task leads. -/
theorem meets_LeadTakes : Ready s0 [] [] ∧ (∀ c, c < 4 → c ≠ s0.cur.2 → (s0.ctx s0.cur.1 c).furrow.lead = false) ∧
    s0.myPlot.sched.images = [] ∧
    (let s := withImage { task with furrow := { Furrow.none with lead := true } };
      Ready s [] [] ∧ (∀ c, c < 4 → c ≠ s.cur.2 → (s.ctx s.cur.1 c).furrow.lead = false) ∧ ∃ i ∈ s.myPlot.sched.images, i.1.furrow.lead = true) ∧
    (let s := pairOf task { task with ended := true, furrow := { Furrow.none with lead := true } };
      Ready s [] [] ∧ (∀ c, c < 4 → c ≠ s.cur.2 → ¬ ((s.ctx s.cur.1 c).furrow.lead = true ∧ (s.ctx s.cur.1 c).ended = false)) ∧ s.myPlot.sched.images = []) ∧
    (let s := pairOf task { task with furrow := { Furrow.none with lead := true } };
      Ready s [] [] ∧ 1 ≠ s.cur.2 ∧ (s.ctx s.cur.1 1).furrow.lead = true ∧ (s.ctx s.cur.1 1).ended = false ∧ ∀ k, k < 1 → k ≠ s.cur.2 → (s.ctx s.cur.1 k).furrow.lead = false) := by
  decide +kernel

theorem meets_FollowAsks : Ready (sg [(3, 1)]) [gs 3 false] [] ∧ (sg [(3, 1)]).me.furrow.lead = false ∧ Claims.Leader (sg [(3, 1)]) 1 1 ∧
    (∀ p, ¬ Claims.Leader s0 0 p) ∧
    (onPlot Plot.reset { task with furrow := { Furrow.none with lead := true } }).me.furrow.lead = true := by
  refine ⟨by decide +kernel, by decide +kernel, by unfold Claims.Leader; decide +kernel, fun p h => h.2.1 rfl, by decide +kernel⟩

/-- A leader on plot 0 with a follower on plot 1 that stands as given. -/
def furrowOf (x : Ctx) : State := { State.reset with
  stage := 5
  plots := [(0, { Plot.reset with tenant := 1, ctxs := [(0, { task with furrow := { Furrow.none with lead := true, followers := [(1, 0)] } })] }),
    (1, { Plot.reset with tenant := 1, ctxs := [(0, { x with furrow := { Furrow.none with leader := some (0, 1), ofs := -1 } })] })] }

/-- With a follower that only follows. -/
def furrow : State := furrowOf task

/-- A follower that only follows, one that waits for an entry, one that is held, one within a pair, and one that has the engine. -/
theorem meets_SplitDissolves : (∀ x ∈ [task, { task with hold := some ⟨.follow, 9, 0, [], 0, 0, []⟩ }, { task with hold := some ⟨.await, 9, 0, [], 0, 0, []⟩ },
      { task with pair := some (.vf 0x80) }, { task with mul := { MulWork.none with point := some ⟨0, 1, 1, 0, 0, 0, true, false⟩ } }],
    let s := furrowOf x
    Ready s [] [] ∧ s.myPlot.find s.me.csr.taskid = some (.ctx s.cur.2) ∧ s.me.furrow.followers = [(1, 0)] ∧
    ∀ f ∈ s.me.furrow.followers, f ≠ s.cur ∧ (s.ctx f.1 f.2).furrow.leader = some (s.cur.1, s.me.csr.taskid)) := by
  decide +kernel

/-- A task whose own promise is the handle of record 5 of its own plot. -/
def promised (st : PState) (g : List (Nat × Word)) : State :=
  onPlot { Plot.reset with records := [(5, { Record.reset with gen := 1, st := st })] } { withG g with task := ⟨0, mkHandle 0 5 1, 0, 0⟩ }

/-- The promise is settled; or not, and the value is the own promise, no reference, an OREF, or another handle. -/
theorem meets_TaskEnds :
    Ready (promised (.value 1) [(3, 7)]) [gs 3 false] [] ∧ ((promised (.value 1) [(3, 7)]).takeG (regG 3)).2.ownSettled = true ∧
    ((promised .unresolved [(3, 7)]).takeG (regG 3)).2.ownSettled = false ∧
    (promised .unresolved [(3, mkHandle 0 5 1)]).me.task.promise = mkHandle 0 5 1 ∧
    orefOk 7 = false ∧ hrefOk 7 = false ∧ (7 : Word) ≠ mkHandle 0 5 1 ∧ orefOk 0x1001000 = true ∧
    hrefOk (mkHandle 1 2 3) = true ∧ mkHandle 1 2 3 ≠ mkHandle 0 5 1 := by decide +kernel

/-- The plain state with an access outstanding. -/
def busy (sp : Space) (store : Bool) : State := onPlot Plot.reset { task with outst := [⟨9, sp, store, .ack, 0⟩] }

theorem meets_SettlementLeaves :
    ((promised .unresolved []).ctx 0 0).task.promise ≠ 0 ∧ (∀ o ∈ ((promised .unresolved []).ctx 0 0).outst, ¬ Claims.Waits 4 o) ∧
    (∀ k ∈ ((promised .unresolved []).plot 0).outbox, k.task ≠ ((promised .unresolved []).ctx 0 0).csr.taskid) ∧
    (∃ o ∈ ((busy .hbm true).ctx 0 0).outst, Claims.Waits 4 o) ∧ ¬ ∃ o ∈ ((busy .other true).ctx 0 0).outst, Claims.Waits 4 o := by
  unfold Claims.Waits
  decide +kernel

theorem meets_FenceWaits : Ready (busy .scratch true) [] [] ∧ (∀ o ∈ (busy .scratch true).me.outst, ¬ Claims.Waits 1 o) ∧
    (∃ o ∈ (busy .scratch true).me.outst, Claims.Waits 2 o) ∧ (∃ o ∈ (busy .hbm false).me.outst, Claims.Waits 0 o) := by
  unfold Claims.Waits
  decide +kernel

/-! Accesses. -/

/-- A context whose watchpoint 1 watches stores to bytes 0x10 to 0x1F of buffer 0, and not elsewhere. -/
def watched (bsup : Bool) : State := onPlot Plot.reset { task with bsup := bsup, csr := { Csrs.reset with
  wpa := [(1, 0x10)], wpm := [(1, 0x10FFFFFFFFFFFFF0)], dbgctl := 0x40 } }

theorem hits {s : State} {sp : Nat} {ld st : Bool} {as : List Nat} {h : Nat}
    (k : s.me.suppressed = false ∧ (h ∈ as ∧ ∃ n, n < 4 ∧ s.me.watches n sp ld st h = true) ∧
      ∀ a ∈ as, a < h → ∀ n, n < 4 → s.me.watches n sp ld st a = false) : Claims.Hit s sp ld st as h := ⟨k.1, k.2.1, k.2.2⟩

theorem meets_WatchpointTraps :
    (watched false).me.watches 1 0 false true 0x1F = true ∧ (watched false).me.watches 1 0 true false 0x1F = false ∧
    Claims.Hit (watched false) 0 false true [0xF, 0x10, 0x11] 0x10 ∧ Claims.Quiet (watched false) 0 true false [0x10] ∧
    Claims.Quiet (watched false) 0 false true [0xF, 0x20] ∧ Claims.Quiet (watched true) 0 false true [0x10] := by
  unfold Claims.Quiet
  exact ⟨by decide +kernel, by decide +kernel, hits (by decide +kernel), by decide +kernel⟩

/-- A plot whose A buffer reads two wrong symbols at the position of byte 8. -/
def wrongBytes : Plot := { Plot.reset with bufs := { Bufs.reset with
  errs := [(posOf 0 8 * 64 + squareOf 0 8, 1), (posOf 0 8 * 64 + (squareOf 0 8 + 1), 1)] } }

/-- A context whose store to its own plot has been accepted. -/
def storing (g : List (Nat × Word)) : State := onPlot Plot.reset { withG g with outst := [⟨9, .scratchOwn, true, .ack, 0⟩] }

theorem meets_OwnLoad :
    Ready (sg [(3, 8)]) [gs 3 false] [regG 5] ∧ (8 < Claims.lengthOf 0 ∧ 8 % Claims.size 7 = 0) ∧ ¬ (0x4000 < Claims.lengthOf 0) ∧
    Claims.Quiet (sg [(3, 8)]) 0 true false (span 8 8) ∧ (sg [(3, 8)]).me.ownStore = false ∧
    (∀ k ∈ span 8 8, (sg [(3, 8)]).myPlot.uncorrectable 0 k = false) ∧
    Ready (onPlot wrongBytes (withG [(3, 8)])) [gs 3 false] [regG 5] ∧
    Claims.Quiet (onPlot wrongBytes (withG [(3, 8)])) 0 true false (span 8 8) ∧ wrongBytes.uncorrectable 0 8 = true ∧
    (let s := storing [(3, 8)]; Ready s [gs 3 false] [regG 5] ∧ Claims.Quiet s 0 true false (span 8 8) ∧ s.me.ownStore = true) := by
  unfold Claims.Quiet
  decide +kernel

theorem meets_OwnStore : (∀ s ∈ [sg [(3, 8), (4, 9)], storing [(3, 8), (4, 9)]],
      Ready s [gs 3 false, gs 4 false] [] ∧ Claims.Quiet s 1 false true (span 8 8)) ∧ (1#2).toNat < 3 ∧
    (8 < Claims.lengthOf 1 ∧ 8 % Claims.size 3 = 0) ∧ ¬ (9 % Claims.size 1 = 0) ∧
    (sg [(3, 8), (4, 9)]).me.ownStore = false ∧ (storing [(3, 8), (4, 9)]).me.ownStore = true := by
  unfold Claims.Quiet
  decide +kernel

/-- A full and an empty word of W at 0x10, with a store accepted and without; and a word of A whose bytes cannot be corrected. -/
theorem meets_OwnSync :
    (∀ e ∈ [false, true], ∀ os ∈ [[], [⟨9, .scratchOwn, true, .ack, 0⟩]],
      let s := onPlot { Plot.reset with bufs := { Bufs.reset with ew := if e then [(2, true)] else [] } } { withG [(3, 8), (4, 9)] with outst := os };
      Ready s [gs 3 false] [regG 4] ∧ Ready s [gs 3 false, gs 4 false] [] ∧ Ready s [gs 3 false] [] ∧ s.myPlot.bufs.wordEmpty 1 2 = e ∧
      (s.me.ownStore = !os.isEmpty) ∧
      (∀ k ∈ span 16 8, s.myPlot.uncorrectable 1 k = false) ∧ Claims.Quiet s 1 true false (span 16 8) ∧ Claims.Quiet s 1 false true (span 16 8)) ∧
    16 < Claims.lengthOf 1 ∧ 16 % 8 = 0 ∧ ¬ (12 % 8 = 0) ∧
    (let s := onPlot wrongBytes (withG [(3, 8)]); Ready s [gs 3 false] [regG 4] ∧ s.myPlot.bufs.wordEmpty 0 1 = false ∧ s.me.ownStore = false ∧
      s.myPlot.uncorrectable 0 8 = true ∧ Claims.Quiet s 0 true false (span 8 8)) := by
  unfold Claims.Quiet
  decide +kernel

/-- The conditions of an access of a translated address outside a bound region, in a form that can be evaluated. -/
theorem allowed {s : State} {va : Word} {n : Nat} {ld st : Bool} {e : Tlb}
    (h : (va.toNat % n = 0 ∧ va.toNat < 2 ^ 56) ∧ s.me.xfault = none ∧ s.myPlot.lookup va.toNat = some e ∧
      ((ld = true → e.rd = true) ∧ (st = true → e.wr = true)) ∧ e.region = none) : Claims.Allowed s va n ld st e := by
  obtain ⟨h1, h2, h3, h4, h5⟩ := h
  exact ⟨h1, h2, h3, h4, fun _ r h => by simp [h5] at h, fun _ r h => by simp [h5] at h⟩
theorem mayUse {s : State} {va : Word} {n : Nat} {ld st : Bool} {e : Tlb} {bytes : List Nat}
    (h : (va.toNat % n = 0 ∧ va.toNat < 2 ^ 56) ∧ s.me.xfault = none ∧ s.myPlot.lookup va.toNat = some e ∧
      ((ld = true → e.rd = true) ∧ (st = true → e.wr = true)) ∧ e.region = none)
    (k : ∀ a ∈ bytes, ∀ n, n < 4 → s.me.watches n 3 ld st a = false) : Claims.MayUse s va n ld st e bytes := ⟨allowed h, .inr k⟩

/-- The conditions of an access of a BADDR. -/
theorem reaches {s : State} {x : Word} {n : Nat} {st : Bool}
    (h : (x.toNat / 2 ^ 62 = 3 ∧ x.toNat / 2 ^ 16 % 256 = 0) ∧ (bBuf x ≠ 3 ∧ (st = true → bBuf x ≠ 2)) ∧
      (bPlot x / 2 ^ 20 = s.pkg ∧ plotOk (bPlot x) = true) ∧
      x.toNat % 2 ^ 16 + n ≤ Claims.lengthOf (bBuf x) ∧ x.toNat % 2 ^ 16 % n = 0) : Claims.Reaches s x n st := by
  obtain ⟨h1, h2, h3, h4⟩ := h
  exact ⟨h1, h2, h3, h4⟩
theorem mayReach {s : State} {x : Word} {n : Nat} {ld st : Bool} {bytes : List Nat}
    (h : (x.toNat / 2 ^ 62 = 3 ∧ x.toNat / 2 ^ 16 % 256 = 0) ∧ (bBuf x ≠ 3 ∧ (st = true → bBuf x ≠ 2)) ∧
      (bPlot x / 2 ^ 20 = s.pkg ∧ plotOk (bPlot x) = true) ∧
      x.toNat % 2 ^ 16 + n ≤ Claims.lengthOf (bBuf x) ∧ x.toNat % 2 ^ 16 % n = 0)
    (k : ∀ a ∈ bytes, ∀ n, n < 4 → s.me.watches n 3 ld st a = false) : Claims.MayReach s x n ld st bytes := ⟨reaches h, .inr k⟩

/-- A page of HBM (type 0), of a peer (1) or of the host (2) at 0x10000. -/
def page (ty : Nat) : Tlb := ⟨0x10000, 0x10000, 0x50000, ty, 3, true, true, none, 1, 0x10000⟩

/-- The plain state with such a translation. -/
def mapped (ty : Nat) (g : List (Nat × Word)) : State := onPlot { Plot.reset with utlb := [page ty] } (withG g)

/-- A page within a bound region of a record at 0x70000. -/
def boundPage : Tlb := { page 0 with region := some 0x70000 }

/-- A context that holds the record's capability, or does not. -/
def bound (gates : List Gate) (detctl : Word) : State :=
  onPlot { Plot.reset with utlb := [boundPage], csr := { Plot.reset.csr with detctl := detctl } } { withG [(3, 0x10008), (4, 9)] with gates := gates }

theorem meets_GlobalAccess :
    (∀ ty ∈ [0, 1, 2], let s := mapped ty [(3, 0x10008), (4, 9)];
      Ready s [gs 3 false] [regG 5] ∧ Ready s [gs 3 false, gs 4 false] [] ∧ (page ty).ty ≤ 2) ∧
    Claims.MayUse (mapped 0 [(3, 0x10008)]) 0x10008 8 true false (page 0) (span 0x10008 8) ∧
    Claims.MayUse (mapped 1 [(3, 0x10008)]) 0x10008 8 false true (page 1) (span 0x10008 8) ∧
    Claims.MayUse (mapped 2 [(3, 0x10008)]) 0x10008 8 false true (page 2) (span 0x10008 8) ∧
    (let g := ⟨0x20000, 0x70000, true, none⟩;
      Claims.MayUse (bound [g] 2) 0x10008 8 false true boundPage (span 0x10008 8) ∧
      Claims.MayUse (bound [g] 2) 0x10008 8 true false boundPage (span 0x10008 8)) ∧
    Ready (sg [(3, 0xC000001000000008), (4, 8), (5, 1)]) [gs 3 false, gs 4 false, gs 5 false] [] ∧
    Claims.MayReach s0 0xC000001000000010 8 true false (span 0xC000001000000010 8) ∧
    Claims.MayReach s0 0xC000001000000010 8 false true (span 0xC000001000000010 8) := by
  refine ⟨by decide +kernel, mayUse (by decide +kernel) (by decide +kernel), mayUse (by decide +kernel) (by decide +kernel), mayUse (by decide +kernel) (by decide +kernel), ⟨?_, ?_⟩, by decide +kernel,
    mayReach (by decide +kernel) (by decide +kernel), mayReach (by decide +kernel) (by decide +kernel)⟩
  · exact ⟨⟨by decide +kernel, by decide +kernel, by decide +kernel, by decide +kernel, fun _ r h => by cases h; decide +kernel,
      fun h => by simp at h⟩, .inr (by decide +kernel)⟩
  · exact ⟨⟨by decide +kernel, by decide +kernel, by decide +kernel, by decide +kernel, fun h => by simp at h,
      fun _ r h _ => by cases h; decide +kernel⟩, .inr (by decide +kernel)⟩

theorem meets_GlobalSync :
    (∀ ty ∈ [0, 1], let s := mapped ty [(3, 0x10008), (4, 9)];
      Ready s [gs 3 false] [regG 5] ∧ Ready s [gs 3 false, gs 4 false] [] ∧ Ready s [gs 3 false] [] ∧ (page ty).ty ≤ 1) ∧
    Claims.MayUse (mapped 0 [(3, 0x10008)]) 0x10008 8 true false (page 0) (span 0x10008 8) ∧
    Claims.MayUse (mapped 1 [(3, 0x10008)]) 0x10008 8 false true (page 1) (span 0x10008 8) ∧
    Ready (sg [(3, 0xC000001000000010)]) [gs 3 false] [regG 5] ∧ (0xC000001000000010 : Word).toNat % 8 = 0 ∧
    Claims.MayReach s0 0xC000001000000010 8 true false (span 0xC000001000000010 8) ∧
    Claims.MayReach s0 0xC000001000000010 8 false true (span 0xC000001000000010 8) :=
  ⟨by decide +kernel, mayUse (by decide +kernel) (by decide +kernel), mayUse (by decide +kernel) (by decide +kernel), by decide +kernel, by decide +kernel,
    mayReach (by decide +kernel) (by decide +kernel), mayReach (by decide +kernel) (by decide +kernel)⟩

theorem meets_AtomicAccess :
    (let s := mapped 0 [(3, 0x10010), (4, 9)];
      Ready s ([gs 3 false, gs 4 false] ++ []) [regG 5] ∧ Ready s ([gs 3 false, gs 4 false] ++ [⟨regG 4 + 1, false⟩]) [regG 6, regG 6 + 1] ∧
      ∀ x ∈ s.me.outst, ¬ Claims.Waits 3 x) ∧
    Claims.MayUse (mapped 0 [(3, 0x10010)]) 0x10010 16 true true (page 0) (span 0x10010 16) ∧ (0x10010 : Word).toNat / 2 ^ 62 ≠ 3 ∧
    Ready (sg [(3, 0xC000001000000010), (4, 9)]) ([gs 3 false, gs 4 false] ++ []) [regG 5] ∧
    Claims.MayReach s0 0xC000001000000010 8 true true (span 0xC000001000000010 8) ∧ Claims.relOf .scratch true = 2 := by
  refine ⟨?_, mayUse (by decide +kernel) (by decide +kernel), by decide +kernel, by decide +kernel, mayReach (by decide +kernel) (by decide +kernel), by decide +kernel⟩
  unfold Claims.Waits
  decide +kernel

/-- Each stop of an access, in its order. -/
theorem meets_GlobalFaults :
    (∀ s ∈ [mapped 0 [(3, 0x10004), (4, 9)], mapped 0 [(3, 0x30000), (4, 9)], bound [] 0, bound [] 2,
        onPlot { Plot.reset with utlb := [{ page 0 with rd := false, wr := false }] } (withG [(3, 0x10008), (4, 9)])],
      Ready s [gs 3 false, gs 4 false] [] ∧ Ready s [gs 3 false] [regG 5]) ∧
    (0x10004 : Word).toNat % 8 ≠ 0 ∧ 2 ^ 56 ≤ (0x100000000000000 : Word).toNat ∧ (0x10008 : Word).toNat % 8 = 0 ∧
    (onPlot Plot.reset { task with xfault := some 1 }).me.xfault = some ((0x10008 : Word).toNat / 2 ^ 16) ∧
    (mapped 0 []).myPlot.lookup 0x30000 = none ∧ (bound [] 0).myPlot.lookup 0x10008 = some boundPage ∧
    (boundPage.wr = true ∧ boundPage.rd = true) ∧ (bound [] 0).me.holdsExcl 0x70000 = false ∧ bitw (bound [] 2).myPlot.csr.detctl 1 = true ∧
    ∀ g ∈ (bound [] 2).me.gates, g.target ≠ 0x70000 := by decide +kernel

/-! Invocations and handles. -/

/-- A plot without a free record. -/
def noRecord : Plot := { Plot.reset with records := (List.range 128).map fun k => (k, { Record.reset with st := .unresolved }) }
theorem meets_InvokeSends :
    Ready (sg [(2, 0x1001000), (3, 7), (4, 8)]) (gs 2 false :: Claims.argSrcs 2) [regG 5] ∧
    (∀ p ∈ [none, some (.inv 0x10), some (.inv 8)], let s := onPlot Plot.reset { withG [(2, 0x1001000)] with pair := p };
      Ready s (gs 2 false :: Claims.argSrcs 0) [regG 5] ∧ ¬ ((modInvFields s.me.pair).cap = true ∧ (modInvFields s.me.pair).mc = true)) ∧
    (modInvFields (some (.inv 0x18))).cap = true ∧ (modInvFields (some (.inv 0x18))).mc = true ∧
    (∀ k, k < 128 → (noRecord.rec_ k).st ≠ .free) ∧ Ready (onPlot noRecord task) (gs 0 false :: Claims.argSrcs 0) [regG 5] ∧
    Claims.FreeRec Plot.reset 0 ∧ Claims.FreeRec { Plot.reset with records := [(0, { Record.reset with st := .value 0 })] } 1 ∧
    (onPlot Plot.reset { task with gates := [⟨0x20000, 0x70000, true, none⟩] }).relWait [] = .ok () ∧
    targetOk 0x1001000 false = true ∧ targetOk 7 false = false ∧ targetOk 0x101000 true = true := by
  unfold Claims.FreeRec
  decide +kernel

/-- An invocation with arguments. -/
def invocation (target : Word) (args : List Word) (smask : Nat) : Inv :=
  { target := target, mc := false, member := false, method := 0, args := args, hmask := smask, smask := smask, pri := none, caps := [],
    promise := mkHandle 0 5 1, parent := 0, sender := 0, hops := 0, path := [], tenant := 1, order := 0 }

/-- A list's members, by place. -/
theorem getEach {a : List Word} {P : Nat → Word → Bool} (h : (List.range a.length).all (fun k => P k (a[k]?.getD 0)) = true)
    (k : Nat) (w : Word) (hk : a[k]? = some w) : P k w = true := by
  have := List.all_eq_true.mp h k (List.mem_range.mpr (List.getElem?_eq_some_iff.mp hk).1)
  simpa [hk] using this

theorem meets_InvocationRoutes :
    (let i := invocation 0x1001000 [mkHandle 0 1 1, mkHandle 1 2 3] 2;
      i.args[1]? = some (mkHandle 1 2 3) ∧ i.smask.testBit 1 = true ∧ bitw (mkHandle 1 2 3) 0 = true ∧
      ∀ j w, j < 1 → i.args[j]? = some w → i.smask.testBit j = true → bitw w 0 = false) ∧
    (let i := invocation 0x1001000 [mkHandle 0 1 1, 6] 2;
      (i.mc = false ∨ i.member = true) ∧ ∀ k h, i.args[k]? = some h → i.smask.testBit k = true → bitw h 0 = false) := by
  refine ⟨⟨by decide +kernel, by decide +kernel, by decide +kernel, fun j w hj hw ht => ?_⟩, .inl rfl, fun k h hk ht => ?_⟩
  · obtain rfl : j = 0 := by omega
    exact absurd ht (by decide +kernel)
  · have := getEach (P := fun k w => !(Nat.testBit 2 k && bitw w 0)) (by decide +kernel) k h hk
    have ht : Nat.testBit 2 k = true := ht
    simpa [ht] using this

/-- No handle, the own promise, a handle of a plot that does not exist, and a handle. -/
theorem meets_AwaitAsks :
    (∀ w ∈ [8, mkHandle 0 5 1, mkHandle 0xD8 5 1, mkHandle 1 2 3].map BitVec.toNat, let s := promised .unresolved [(3, .ofNat 64 w)];
      Ready s [gs 3 false] [regG 5] ∧ Ready s [gs 3 false] [regG 5, regG 6]) ∧
    bitw 8 0 = false ∧ bitw (mkHandle 0 5 1) 0 = true ∧ (promised .unresolved []).me.task.promise = mkHandle 0 5 1 ∧
    bitw (mkHandle 0xD8 5 1) 0 = true ∧ plotOk (hPlot (mkHandle 0xD8 5 1)) = false ∧ mkHandle 0xD8 5 1 ≠ mkHandle 0 5 1 ∧
    bitw (mkHandle 1 2 3) 0 = true ∧ plotOk (hPlot (mkHandle 1 2 3)) = true ∧ mkHandle 1 2 3 ≠ mkHandle 0 5 1 ∧
    (promised .unresolved [(3, mkHandle 1 2 3)]).myPlot.outbox = [] := by decide +kernel

theorem meets_MessagesLeave :
    Ready (sg [(3, mkHandle 1 2 3)]) [gs 3 false] [regG 5] ∧ Ready (sg [(2, 0x1000000001), (3, 4)]) (gs 2 false :: Claims.argSrcs 1) [] ∧
    ((0x1000000001 : Word).toNat < 2 ^ 42 ∧ plotOk ((0x1000000001 : Word).toNat % 2 ^ 36) = true) ∧
    2 ^ 42 ≤ (0x40000000000 : Word).toNat ∧ plotOk (0xD8 % 2 ^ 36) = false ∧
    Ready (sg [(3, 63)]) [gs 3 false] [regG 5] ∧ Ready (sg [(3, 64)]) [gs 3 false] [regG 5] := by decide +kernel

/-! Headgates, barriers, pools and services. -/

/-- A context with entries in its held-gate table, over a mapped page. -/
def gated (gates : List Gate) (g : List (Nat × Word)) : State := onPlot { Plot.reset with utlb := [page 0] } { withG g with gates := gates }

/-- Records of the page that a table holds. -/
def manyGates : List Gate := [⟨0x10100, 0x50100, true, none⟩, ⟨0x10140, 0x50140, true, none⟩, ⟨0x10180, 0x50180, false, none⟩, ⟨0x101C0, 0x501C0, true, none⟩]

theorem recordAt {s : State} {x : Word} {e : Tlb} (h : (x.toNat % 64 = 0 ∧ x.toNat < 2 ^ 56) ∧ s.me.xfault = none ∧
    s.myPlot.lookup x.toNat = some e ∧ e.wr = true ∧ e.ty = 0) : Claims.RecordAt s x e := ⟨h.1, h.2.1, h.2.2.1, h.2.2.2⟩

theorem meets_AcquireAsks :
    Claims.RecordAt (gated [] [(3, 0x10040)]) 0x10040 (page 0) ∧
    (∀ gs' ∈ [[], [⟨0x10040, 0x50040, true, none⟩], [⟨0x10040, 0x50040, false, none⟩], manyGates], Ready (gated gs' [(3, 0x10040)]) [gs 3 false] []) ∧
    (page 0).target + (0x10040 - (page 0).va) = 0x50040 ∧
    (gated [⟨0x10040, 0x50040, true, none⟩] []).me.gate 0x50040 = some ⟨0x10040, 0x50040, true, none⟩ ∧
    (gated [⟨0x10040, 0x50040, false, none⟩] []).me.gate 0x50040 = some ⟨0x10040, 0x50040, false, none⟩ ∧
    ((gated manyGates []).me.gate 0x50040 = none ∧ 4 ≤ manyGates.length) ∧ (gated [] []).me.gate 0x50040 = none :=
  ⟨recordAt (by decide +kernel), by decide +kernel⟩

theorem meets_ReleaseAsks :
    (∀ gs' ∈ [[], [⟨0x10040, 0x50040, true, none⟩], [⟨0x10040, 0x50040, false, none⟩]],
      Ready (gated gs' [(3, 0x10040), (4, 0x300)]) [gs 3 false] [] ∧ Ready (gated gs' [(3, 0x10040), (4, 0x300)]) [gs 3 false, gs 4 false] []) ∧
    Claims.RecordAt (gated [] [(3, 0x10040)]) 0x10040 (page 0) ∧ (gated [] []).me.gate 0x50040 = none ∧
    ((gated [⟨0x10040, 0x50040, true, none⟩] []).me.gate 0x50040 ≠ none ∧ (gated [⟨0x10040, 0x50040, true, none⟩] []).me.holdsExcl 0x50040 = true) ∧
    (gated [⟨0x10040, 0x50040, false, none⟩] []).me.holdsExcl 0x50040 = false ∧ Claims.Released (gated [⟨0x10040, 0x50040, true, none⟩] []) 0x50040 ∧
    ¬ Claims.Released (busy .hbm true) 0x50040 ∧ 2 ^ 56 ≤ (0x100000000000000 : Word).toNat ∧ (0x300 : Word).toNat < 2 ^ 56 := by
  refine ⟨by decide +kernel, recordAt (by decide +kernel), ?_⟩
  unfold Claims.Released Claims.Waits
  decide +kernel

/-- The barrier of the plots (0, 0) and (0, 1) of field 0. -/
theorem meets_BarrierArrives :
    Ready (sg [(3, 0x1000)]) [gs 3 false] [regG 5] ∧ Claims.BarrierWord s0 0x1000 ∧ ¬ Claims.BarrierWord s0 0x10000000 ∧
    (∀ c, c < 4 → (s0.ctx s0.cur.1 c).hold = none) ∧ s0.myPlot.sched.images = [] ∧ (∃ o ∈ (busy .hbm true).me.outst, Claims.Waits 3 o) ∧
    (∀ o ∈ s0.me.outst, ¬ Claims.Waits 3 o) ∧
    ((pairOf task { task with hold := some ⟨.barrier, 9, 0, [], 0, 0, []⟩ }).ctx 0 1).hold = some ⟨.barrier, 9, 0, [], 0, 0, []⟩ ∧
    (withImage { task with hold := some ⟨.barrier, 9, 0, [], 0, 0, []⟩ }).myPlot.sched.images[0]?.bind (·.1.hold) =
      some ⟨.barrier, 9, 0, [], 0, 0, []⟩ := by
  unfold Claims.BarrierWord Claims.Waits
  decide +kernel

theorem meets_PoolRequests :
    Ready (sSup [(3, 0x300000000), (4, 9)]) [gs 3 false, gs 4 false] [regG 5] ∧ Ready (sSup [(3, 0x300000000)]) [gs 3 false] [regG 6, regG 6 + 1] ∧
    (sSup []).me.sup = true ∧ Ready (sSup [(3, 0x300000000), (4, 0x10000)]) [gs 3 false, gs 4 false] [] ∧
    ((0x300000000 : Word).toNat % 2 ^ 32 = 0 ∧ (0x300000000 : Word).toNat < 2 ^ 38) ∧ 2 ^ 38 ≤ (0x4000000000 : Word).toNat ∧
    (let w := 0x10000; w / 2 ^ 54 % 2 ^ 9 = 0 ∧ w / 2 ^ 24 % 256 = 0 ∧ w / 2 ^ 14 % 4 = 0 ∧ w / 2 ^ 16 % 256 ≠ 0) := by decide +kernel

theorem meets_ServiceRequests :
    (sSup []).me.sup = true ∧ Ready (sSup [(3, 0x10000)]) [gs 3 false] [] ∧ (0x10000 : Word).toNat < 2 ^ 56 ∧ Ready (sSup []) [] [] ∧
    (let s := onPlot { Plot.reset with objs := [(1, ⟨true, false, false, 0, 1⟩)] } { withG [(4, 0x10001000), (5, 0x1001000)] with sup := true };
      Ready s [⟨regG 4, false⟩, ⟨regG 4 + 1, false⟩] [] ∧ orefOk (s.me.regs.gv 4) = true ∧ orefOk (s.me.regs.gv 5) = true ∧
      hPlot (s.me.regs.gv 5) = s.plotId s.cur.1 ∧ (s.myPlot.obj (oSlot (s.me.regs.gv 5))).v = true ∧
      (s.myPlot.obj (oSlot (s.me.regs.gv 5))).gen = oGen (s.me.regs.gv 5)) ∧ orefOk 7 = false := by decide +kernel

/-! Copies and collectives. -/

/-- A state whose service block holds translations of two pages. -/
def served (ty : Nat) (g : List (Nat × Word)) : State :=
  { sg g with fields := [(0, { Field.reset with tlb := [page ty, { page 0 with va := 0x20000 }] })] }

theorem mayCopy {s : State} {x y : Word} {n : Nat} {src dst : Loc} {srcTy dstTy : Nat → Bool} {srcBuf dstBuf : Bool}
    (h1 : s.me.copies.length < 8 ∧ s.me.outst = []) (h2 : s.locTry x n false srcTy srcBuf = .ok src) (h3 : s.locTry y n true dstTy dstBuf = .ok dst)
    (h4 : rangeEnd x n .loadFault = .ok ()) (h5 : rangeEnd y n .storeFault = .ok ()) (h6 : s.capRange dst = .ok ()) :
    Claims.MayCopy s x y n src dst srcTy dstTy srcBuf dstBuf :=
  ⟨h1.1, h2, h3, ⟨h4, h5⟩, h6, fun o h => by simp [h1.2] at h⟩

/-- A copy from HBM to a buffer, without a guard and with each kind of guard. -/
theorem meets_CopyStarts :
    (let s := served 0 [(4, 0x10000), (5, 0xC000001000000010), (6, 0x800000200000010)];
      (0x200000010 : Word).toNat / 2 ^ 56 % 64 = 0 ∧
      Ready s ((List.range 4).map fun k => (⟨regG 4 + k, false⟩ : Src)) [regG 9] ∧
      Ready s (gs 0 false :: (List.range 4).map fun k => (⟨regG 4 + k, false⟩ : Src)) [regG 9]) ∧
    (let z : Word := 0x80000300_00000010; z.toNat / 2 ^ 56 % 64 = 0 ∧ z.toNat / 2 ^ 32 % 256 = 0 ∧ z.toNat / 2 ^ 40 % 2 ^ 16 ≠ 0) ∧
    Claims.MayCopy (served 0 []) 0x10000 0xC000001000000010 16 (.pages 0x10000 [page 0]) (.scratch 0x400 0 16) Claims.hbmHost Claims.hbmHost true true ∧
    Claims.GuardAt (served 0 []) 0 none ∧ Claims.GuardAt (served 0 []) 0xC000001000000010 (some (.scratch 0x400 0 16)) ∧
    Claims.GuardAt (served 0 []) 0x10008 (some (.pages 0x10008 [page 0])) :=
  ⟨by decide +kernel, by decide +kernel, mayCopy (by decide +kernel) rfl rfl rfl rfl rfl, .inl ⟨rfl, rfl⟩,
    .inr (.inl ⟨by decide +kernel, by decide +kernel, by decide +kernel, rfl⟩),
    .inr (.inr ⟨by decide +kernel, by decide +kernel, by decide +kernel, page 0, rfl, rfl, rfl, rfl⟩)⟩

/-- A puts to a peer with a signal and without, and a get. -/
theorem meets_RemoteCopyStarts :
    Ready (sg []) ((List.range 5).map fun j => (⟨regG 4 + j, false⟩ : Src)) [regG 9] ∧
    Ready (sg []) ((List.range 3).map fun j => (⟨regG 4 + j, false⟩ : Src)) [regG 9] ∧
    Claims.MayCopy (served 1 []) 0xC000001000000010 0x10000 16 (.scratch 0x400 0 16) (.pages 0x10000 [page 1]) Claims.hbmHost Claims.hbmPeer true false ∧
    Claims.SignalAt (served 1 []) 0x8000000010 0 0 (.pages 0x10000 [page 1]) none ∧
    Claims.SignalAt (served 1 []) 0x10 0x10008 7 (.pages 0x10000 [page 1]) (some (0, .pages 0x10008 [page 1], 7)) ∧
    Claims.MayCopy (served 1 []) 0x10000 0x20000 16 (.pages 0x10000 [page 1]) (.pages 0x20000 [{ page 0 with va := 0x20000 }])
      Claims.hbmPeer Claims.hbmOnly false true ∧ (0x10 : Word).toNat / 2 ^ 36 % 4 = 0 :=
  ⟨by decide +kernel, by decide +kernel, mayCopy (by decide +kernel) rfl rfl rfl rfl rfl, .inl ⟨by decide +kernel, rfl⟩,
    .inr ⟨by decide +kernel, by decide +kernel, by decide +kernel, by decide +kernel, by decide +kernel, page 1, rfl, rfl, rfl, by decide +kernel, rfl, rfl⟩,
    mayCopy (by decide +kernel) rfl rfl rfl rfl rfl, by decide +kernel⟩

theorem meets_FlumeChosen : (s0.flume 0).queued ≤ (s0.flume 1).queued ∧
    (let s : State := { s0 with flumes := [(0, ⟨[⟨⟨0, 0, 0⟩, 0, .scratch 0 0 0, .scratch 0 0 0, 8, false, false, none, 0, none, 1, none⟩], [], none⟩)] };
      (s.flume 1).queued < (s.flume 0).queued) := by decide +kernel

/-- A barrier, and an operation of 16 bytes over a communicator of one package. -/
theorem meets_CollectiveAsks :
    Ready (sg [(4, 0)]) ((List.range 4).map fun k => (⟨regG 4 + k, false⟩ : Src)) [regG 9] ∧ collFields 0 0 = true ∧
    (collSizes 0 1 0 0 0 true).1 = 0 ∧ collFields 0x200 16 = true ∧ collSizes 2 1 16 0 0 false = (16, 16) ∧
    ((served 0 []).locTry 0x10000 16 false Claims.hbmOnly true = .ok (.pages 0x10000 [page 0]) ∧ rangeEnd 0x10000 16 .loadFault = .ok ()) ∧
    ((served 0 []).locTry 0x10000 16 true Claims.hbmOnly true = .ok (.pages 0x10000 [page 0]) ∧ rangeEnd 0x10000 16 .storeFault = .ok ()) ∧
    (served 0 []).capRange (.pages 0x10000 [page 0]) = .ok () ∧ (served 0 []).me.outst = [] ∧
    Ready (sg [(3, 0x100)]) [gs 3 false] [regG 9] :=
  ⟨by decide +kernel, by decide +kernel, by decide +kernel, by decide +kernel, by decide +kernel, ⟨rfl, rfl⟩, ⟨rfl, rfl⟩, rfl, rfl, by decide +kernel⟩
/-! Vectors and statistics. -/

/-- A context without an enabled watchpoint is quiet. -/
theorem quiet {s : State} {sp : Nat} {ld st : Bool} {as : List Nat} (h : s.me.csr.dbgctl = 0) : Claims.Quiet s sp ld st as :=
  .inr fun a _ n _ => by simp [Ctx.watches, h, bitw, fldw, fld]

/-- Plain; under a mask that merges; and under a mask that zeroes, with op4 = 7 and sat. -/
def modified : List State := [sv none [(1, 0x80), (2, 3)],
  onPlot Plot.reset { withG [(3, 5)] with regs := { (withG [(3, 5)]).regs with v := [(1, 0x80)] }, pair := some (.vf 0x0C0000) },
  onPlot Plot.reset { withG [(3, 5)] with regs := { (withG [(3, 5)]).regs with v := [(1, 0x80)] }, pair := some (.vf 0x0E0780) }]

theorem meets_VectorInteger : ∀ s ∈ modified,
    Ready s ([Claims.vs 1 false, Claims.vs 2 false] ++ Claims.beside s [] 4) [regV 4] ∧
    Ready s ([Claims.vs 1 false, Claims.vs 2 true] ++ Claims.beside s [regV 4] 4) [regV 4] ∧
    Ready s ([Claims.vs 1 false] ++ Claims.beside s [] 4) [regV 4] := by decide +kernel

theorem meets_FloatLanes : ∀ s ∈ modified,
    Ready s ([Claims.vs 1 false, Claims.vs 2 false] ++ Claims.beside s [] 1) [regV 1] ∧
    Ready s ([Claims.vs 1 false, Claims.vs 2 true] ++
      Claims.beside s [regV (if (modVf s.me.pair).op4 = 0 then 4 else .ofNat 4 (modVf s.me.pair).op4)] 4) [regV 4] ∧
    Ready s ([Claims.vs 1 false] ++ Claims.beside s [] 4) [regV 4] := by decide +kernel

/-- 1 is exact in binary32; 2049 lies halfway between binary16's 2048 and 2050. -/
theorem meets_RoundsRight :
    (∀ m ∈ [0, 1, 2, 3, 4], (round fmtF m false false (.fin false 1 0)).2 = 0 ∧ (round fmtH m false false (.fin false 2049 0)).2 = 16) ∧
    (round fmtH 0 false false (.fin false 2049 0)).1 = 0x6800 ∧ fmtH.value 0x6800 = .fin false 1024 1 ∧ fmtH.value 0x6801 = .fin false 1025 1 ∧
    |Claims.rat (.fin false 1024 1) - Claims.rat (.fin false 2049 0)| = |Claims.rat (.fin false 1025 1) - Claims.rat (.fin false 2049 0)| ∧
    Claims.rat (.fin false 1025 1) ≠ Claims.rat (.fin false 1024 1) ∧ Claims.finite (.fin false 1025 1) := by
  refine ⟨by decide +kernel, by decide +kernel, by decide +kernel, by decide +kernel, ?_, ?_, rfl, by simp⟩ <;> (simp only [Claims.rat]; norm_num)

/-- The operand 1.5 for every function. -/
theorem meets_SpecialsBounded :
    (∀ fn, fn < 7 → let y := (specialNum fn (fmtF.valueFtz true 0x3FC00000)).1; y.isNan = false ∧ y ≠ .inf false ∧ y ≠ .inf true ∧
      (special fn true true 0x3FC00000).2.testBit 2 = false ∧ (special fn true true 0x3FC00000).2.testBit 3 = false) ∧
    fmtF.valueFtz true 0x3FC00000 = .fin false 0xC00000 (-23) ∧ Claims.rat (.fin false 0xC00000 (-23)) = 3 / 2 := by
  refine ⟨by decide +kernel, by decide +kernel, ?_⟩
  simp only [Claims.rat]
  norm_num

theorem meets_VectorMoves : (∀ s ∈ modified,
    Ready s ([Claims.vs 1 false, Claims.vs 2 false] ++ Claims.beside s [] 4) [regV 4] ∧ Ready s ([Claims.vs 1 false] ++ Claims.beside s [] 4) [regV 4] ∧
    Ready s (Claims.beside s [] 4) [regV 4] ∧ Ready s ([Claims.vs 1 false] ++ Claims.beside s [regV 4] 4) [regV 4] ∧
    Ready s ([gs 3 false] ++ Claims.beside s [] 4) [regV 4] ∧ Ready s [Claims.vs 1 false] [regG 5] ∧ bitw s.me.csr.rngctr 48 = false) ∧
    bitw (0x1000000000000 : Word) 48 = true := by decide +kernel

theorem meets_VectorMemory :
    (∀ s ∈ modified, Ready s ([gs 0 false] ++ Claims.beside s [] 4) [regV 4] ∧
      Ready s ([gs 0 false] ++ (if (modVf s.me.pair).mask ≠ 0 then [⟨(modVf s.me.pair).mask, false⟩] else []) ++ [⟨regV 4, false⟩]) []) ∧
    Claims.RowOrColumn 0 false 1 0x3FE0 ∧ Claims.RowOrColumn 1 true 2 0x1004 ∧ ¬ Claims.RowOrColumn 0 false 1 0x4000 ∧
    (∀ i, i < 32 → s0.myPlot.uncorrectable 0 (Claims.byteOff false 1 0x3FE0 i) = false) ∧
    (∀ i, i < 32 → s0.myPlot.uncorrectable 1 (Claims.byteOff true 2 0x1004 i) = false) ∧ (∀ as : List Nat, Claims.Quiet s0 0 true true as) ∧ s0.me.ownStore = false ∧ (storing []).me.ownStore = true ∧
    Claims.MayReach s0 0xC000001000000020 32 true false (span 0xC000001000000020 32) ∧
    Claims.MayReach s0 0xC000001000000020 32 false true (span 0xC000001000000020 32) ∧
    Claims.MayUse (mapped 0 [(3, 0x10020)]) 0x10020 32 true false (page 0) (span 0x10020 32) ∧
    Claims.MayUse (mapped 1 [(3, 0x10020)]) 0x10020 32 false true (page 1) (span 0x10020 32) := by
  refine ⟨by decide +kernel, ?_, ?_, ?_, by decide +kernel, by decide +kernel, fun as => quiet rfl, by decide +kernel, by decide +kernel, mayReach (by decide +kernel) (by decide +kernel),
    mayReach (by decide +kernel) (by decide +kernel), mayUse (by decide +kernel) (by decide +kernel), mayUse (by decide +kernel) (by decide +kernel)⟩ <;> (unfold Claims.RowOrColumn; decide +kernel)

/-- A record with count 2, mean 1.0 and M2 0.5. -/
def twoSeen : Stat := { statOf 0 with n := 0x40000000, mean := 0x3F800000, m2 := 0x3F000000 }

theorem meets_StatisticNumbers : twoSeen.e = false ∧ (statOf emptyRecord).e = true ∧
    (let w := fmtF.value 0x3F000000; w.isZero = false ∧ w.neg = false ∧ w.isNan = false ∧ w.isInf = false) ∧ (fmtF.value 0).isZero = true ∧
    (let w := fmtF.value 0xBF000000; w.isZero = false ∧ w.neg = true) := by decide +kernel

theorem meets_Statistics :
    (∀ s ∈ modified, Ready s ([Claims.vs 1 false] ++ Claims.maskSrc s ++ [⟨regS 1, false⟩]) [regS 1] ∧
      Ready s ([Claims.vs 1 false, Claims.vs 2 false] ++ Claims.maskSrc s ++ [⟨regS 1, false⟩]) [regS 1] ∧
      Ready s ([gs 3 false] ++ Claims.maskSrc s ++ [⟨regS 1, false⟩]) [regS 1] ∧ Ready s [⟨regS 1, false⟩, ⟨regS 2, false⟩] [regS 3] ∧
      Ready s [] [regS 1] ∧ Ready s [Claims.vs 1 false] [regS 1] ∧ Ready s [⟨regS 1, false⟩, ⟨regV 1, false⟩] [regV 1] ∧
      Ready s ([⟨regS 1, false⟩] ++ Claims.maskSrc s ++ [⟨7, false⟩] ++ [⟨regV 1, false⟩]) [regV 1] ∧
      Ready s ([Claims.vs 1 false, ⟨regS 1, false⟩] ++ Claims.maskSrc s ++ [⟨7, false⟩] ++ []) [regV 1]) ∧
    Claims.RowOrColumn 0 false 4 0x20 ∧ Claims.RowOrColumn 0 true 4 0 ∧ (∀ as : List Nat, Claims.Quiet s0 0 true false as) ∧ s0.me.ownStore = false ∧ (storing []).me.ownStore = true ∧
    ∀ j ∈ span 0x20 32, s0.myPlot.uncorrectable 0 j = false := by
  refine ⟨by decide +kernel, ?_, ?_, fun as => quiet rfl, by decide +kernel, by decide +kernel, by decide +kernel⟩ <;> (unfold Claims.RowOrColumn; decide +kernel)

/-- A task of which watchpoints watch every access in a space, over a mapped page of HBM. -/
def watching (sp : Word) (p : Option Modifier) : State := onPlot { Plot.reset with utlb := [page 0] }
  { withG [(3, 0x10040), (4, 0), (5, 0xC000001000000020), (6, 0x20), (7, 0xFFFFFFFC)] with
    pair := p, csr := { Csrs.reset with
    wpa := [(1, 0xC000000000000000)], wpm := [0, 1].map fun n => (n, sp <<< (62 : Nat) ||| (0x3000000000000000 : Word)), dbgctl := 0x60 } }

/-- A watched own buffer, HBM and a BADDR; a vector whose first four bytes are inactive. -/
theorem meets_WatchpointStops :
    (∀ s ∈ [watching 0 none, watching 3 none, watching 0 (some (.vf 0x1C0000)), watching 3 (some (.vf 0x1C0000))],
      ∀ r ∈ [(3 : BitVec 6), 5, 6], Ready s [gs r false] [regG 9] ∧ Ready s [gs r false] [] ∧ Ready s [gs r false, gs 9 false] [] ∧
        Ready s [gs r false, gs 4 false] [regG 9] ∧ Ready s [gs r false, gs 4 false, gs 9 false] [] ∧
        Ready s ([gs r false, gs 4 false] ++ [⟨regG 4 + 1, false⟩]) [regG 9, regG 9 + 1] ∧
        Ready s ([gs r false] ++ Claims.beside s [] 4) [regV 4] ∧ Ready s ([gs r false] ++ Claims.maskSrc s ++ [⟨regV 4, false⟩]) [] ∧
        Ready s ([gs r false] ++ Claims.maskSrc s ++ [⟨regS 4, false⟩]) [regS 4]) ∧
    (0x20 < Claims.lengthOf 0 ∧ 0x20 % 8 = 0) ∧ Claims.RowOrColumn 0 false 1 0x20 ∧ Claims.RowOrColumn 0 true 4 0x20 ∧
    Claims.Hit (watching 0 none) 0 true false (span 0x20 8) 0x20 ∧ Claims.Hit (watching 0 none) 0 false true (span 0x20 8) 0x20 ∧
    Claims.Hit (watching 0 (some (.vf 0x1C0000))) 0 true false (((List.range 32).drop 2).map (Claims.byteOff false 1 0x20)) 0x22 ∧
    Claims.Hit (watching 0 (some (.vf 0x1C0000))) 0 false true (((List.range 32).drop 8).map (Claims.byteOff true 4 0x20)) 0x220 ∧
    Claims.Allowed (watching 3 none) 0x10040 8 true false (page 0) ∧ Claims.Allowed (watching 3 none) 0x10040 8 false true (page 0) ∧
    Claims.Allowed (watching 3 none) 0x10040 8 true true (page 0) ∧ Claims.Allowed (watching 3 none) 0x10040 32 true false (page 0) ∧
    Claims.Allowed (watching 3 none) 0x10040 32 false true (page 0) ∧
    Claims.Reaches (watching 3 none) 0xC000001000000020 8 false ∧ Claims.Reaches (watching 3 none) 0xC000001000000020 8 true ∧
    Claims.Reaches (watching 3 none) 0xC000001000000020 32 false ∧ Claims.Reaches (watching 3 none) 0xC000001000000020 32 true ∧
    (∀ p ∈ [0x10040, 0xC000001000000020], Claims.Hit (watching 3 none) 3 true false (span p 8) p ∧
      Claims.Hit (watching 3 none) 3 false true (span p 8) p ∧ Claims.Hit (watching 3 none) 3 true true (span p 8) p) ∧
    Claims.Hit (watching 3 (some (.vf 0x1C0000))) 3 true false (((List.range 32).drop 2).map (0x10040 + ·)) 0x10042 ∧
    Claims.Hit (watching 3 (some (.vf 0x1C0000))) 3 false true (((List.range 32).drop 2).map (0x10040 + ·)) 0x10042 := by
  refine ⟨by decide +kernel, by decide +kernel, by unfold Claims.RowOrColumn; decide +kernel, by unfold Claims.RowOrColumn; decide +kernel,
    hits (by decide +kernel), hits (by decide +kernel), hits (by decide +kernel), hits (by decide +kernel),
    allowed (by decide +kernel), allowed (by decide +kernel), allowed (by decide +kernel), allowed (by decide +kernel), allowed (by decide +kernel),
    reaches (by decide +kernel), reaches (by decide +kernel), reaches (by decide +kernel), reaches (by decide +kernel),
    fun p h => ?_, hits (by decide +kernel), hits (by decide +kernel)⟩
  simp only [List.mem_cons, List.not_mem_nil, or_false] at h
  rcases h with rfl | rfl <;> exact ⟨hits (by decide +kernel), hits (by decide +kernel), hits (by decide +kernel)⟩
/-! The matrix engine. -/

/-- A descriptor's format word: type, space, stride. -/
def fmtWord (ty space stride : Nat) : Word := .ofNat 64 (ty + space * 2 ^ 8 + stride * 2 ^ 16)

/-- A state with descriptors of A in g3, of B in g5, a control word in g7, over a plot. -/
def multiplies (pl : Plot) (ta tb : Nat) (ctl : Word) : State :=
  onPlot pl (withG [(4, fmtWord ta 0 64), (6, fmtWord tb 1 64), (7, ctl)])

theorem turn {s : State} {gs' : List Nat} (h : (∀ b ∈ gs', (s.myPlot.group b).held = none ∨ (s.myPlot.group b).held = some s.cur.2) ∧
    (s.myPlot.engine.running = none ∨ s.myPlot.engine.running = some s.cur.2) ∧ s.myPlot.engine.waiting = [] ∧
    (s.cur.2 < 4 ∧ s.me.live = true ∧ s.me.halted = false ∧ s.me.haltReq = false ∧ s.myPlot.sched.spilling ≠ some s.cur.2) ∧ s.myPlot.bufs.errs = [] ∧ s.me.ownStore = false) :
    Claims.Turn s gs' :=
  ⟨h.1, h.2.1, h.2.2.1, h.2.2.2.1, h.2.2.2.2.1, h.2.2.2.2.2⟩

/-- A task of which the operand B, or A for mmas, is streamed from a mapped page; the control word is K. -/
def streams (x : Ctx) (k : Nat) (sparse : Bool) : State := onPlot { Plot.reset with utlb := [page 0] }
  { x with regs := (withG (if sparse then [(3, 0x10000), (4, fmtWord 9 3 64), (6, fmtWord 9 1 64), (7, .ofNat 64 k)]
      else [(4, fmtWord 9 0 64), (5, 0x10000), (6, fmtWord 9 3 64), (7, .ofNat 64 k)])).regs }

/-- A multiply of one step, a guarded and a sparse one, an empty list, a K of 0, and a wrong type; budgets above, at and below its steps; and a
streamed operand, whose first line is mapped. -/
theorem meets_MultiplyRuns :
    (∀ s ∈ [multiplies Plot.reset 9 9 1, multiplies Plot.reset 9 9 8, multiplies Plot.reset 9 9 0, multiplies Plot.reset 9 9 0x40001, multiplies Plot.reset 5 9 1],
      Ready s (pairSrc (regG 3) ++ pairSrc (regG 5) ++ [⟨regG 7, false⟩]) [] ∧ s.budget = [] ∧ bitw s.me.csr.mrp 63 = false) ∧
    Claims.Turn (multiplies Plot.reset 9 9 1) [0] ∧ (multiplies Plot.reset 9 9 1).me.mul.point = none ∧ (multiplies Plot.reset 9 9 1).me.mul.ctl = none ∧
    (∀ v ∈ [0, 1], let m := Claims.mulOf (multiplies Plot.reset 9 9 1) v 3 5 1 0;
      m.shapes 7 true = .ok () ∧ m.inBounds 4 = .ok () ∧ m.k ≠ 0 ∧ m.list 4 ≠ [] ∧ m.a.space ≠ 3 ∧ m.b.space ≠ 3 ∧
      m.goff % 8 = 0 ∧ m.goff < Claims.lengthOf m.gbuf) ∧
    (let m := Claims.mulOf (multiplies Plot.reset 9 9 8) 2 3 5 8 0;
      m.shapes 7 true = .ok () ∧ m.inBounds 4 = .ok () ∧ m.k ≠ 0 ∧ m.list 4 ≠ [] ∧ m.a.space ≠ 3 ∧ m.b.space ≠ 3 ∧
      (m.list 4).length * Claims.stepsOf m m.k = 2 ∧ (2 < 3 ∧ (2 ≤ 2 ∧ 0 ≤ 2))) ∧
    (∀ n ∈ [0, 2, 3], ({ multiplies Plot.reset 9 9 8 with budget := [n] } : State).budget.head? = some n) ∧
    (∀ v ∈ [0, 2], let c := if v = 2 then 8 else 1; let s := streams task c (v == 2); let m := Claims.mulOf s v 3 5 (.ofNat 64 c) 0;
      Ready s (pairSrc (regG 3) ++ pairSrc (regG 5) ++ [⟨regG 7, false⟩]) [] ∧ m.shapes 7 true = .ok () ∧ m.inBounds 4 = .ok () ∧ m.k ≠ 0 ∧ m.list 4 ≠ [] ∧
      (m.a.space = 3 ∨ m.b.space = 3) ∧ (∀ x ∈ m.line 4 0, ∀ y ∈ pieces x.1 x.2, y.1 < 2 ^ 56 ∧ s.me.xfault ≠ some (y.1 / 2 ^ 16) ∧ s.myPlot.lookup y.1 = some (page 0)) ∧
      (page 0).rd = true ∧ s.me.mul.bytes = [] ∧ s.me.mul.failed = []) ∧
    Claims.Turn (streams task 1 false) [0] ∧
    (let m := Claims.mulOf (multiplies Plot.reset 9 9 0) 0 3 5 0 0; m.shapes 7 true = .ok () ∧ m.inBounds 4 = .ok () ∧ m.k = 0) ∧
    (let m := Claims.mulOf (multiplies Plot.reset 9 9 0x40001) 0 3 5 0x40001 0; m.shapes 7 true = .ok () ∧ m.inBounds 4 = .ok () ∧ m.list 4 = []) ∧
    (Claims.mulOf (multiplies Plot.reset 5 9 1) 0 3 5 1 0).shapes 7 true = .error (.trap .tileShape 0x301) :=
  ⟨by decide +kernel, turn (by decide +kernel), by decide +kernel, by decide +kernel, by decide +kernel, by decide +kernel, by decide +kernel, by decide +kernel,
    turn (by decide +kernel), by decide +kernel, by decide +kernel, by decide +kernel⟩

/-- A multiply with the engine, before its only block, whose lines have come. -/
def streaming (k : Nat) : State :=
  let s := streams { task with mul := { MulWork.none with
    ctl := some (.ofNat 64 k), point := some ⟨0, 0, 4, 0, 0, 0, true, false⟩, bytes := (List.range 256).map fun k => (0x10000 + k, 0) } } 0 (k == 8)
  s.modPlot 0 fun x => { x with engine := ⟨some 0, []⟩ }

theorem meets_MultiplyStreams :
    (∀ v ∈ [0, 2], let k := if v = 2 then 8 else 1; let w : Word := .ofNat 64 k; let s := streaming k; let m := Claims.mulOf s v 3 5 w 0;
      Ready s (pairSrc (regG 3) ++ pairSrc (regG 5)) [] ∧ s.myPlot.engine.running = some s.cur.2 ∧ s.budget = [] ∧ s.me.mul.ctl = some w ∧
      s.me.mul.point = some ⟨0, 0, 4, 0, 0, 0, true, false⟩ ∧ s.me.mul.failed = [] ∧
      m.shapes 7 true = .ok () ∧ m.inBounds 4 = .ok () ∧ m.list 4 ≠ [] ∧ 0 < m.k ∧ m.k ≤ 32 ∧ 0 % m.per = 0 ∧
      ∀ n, n < m.k → n % m.per = 0 → ∀ x ∈ m.line 4 n, ∀ o ∈ span x.1 x.2, ∃ y ∈ s.me.mul.bytes, y.1 = o) ∧
    Claims.Turn (streaming 1) [0] := ⟨by decide +kernel, turn (by decide +kernel)⟩

/-- A task that waits for the engine. -/
def waitsEngine (pri : Nat) : Ctx := { task with block := some ⟨.engine, 0⟩, csr := { Csrs.reset with taskid := 2, taskpri := pri } }

/-- A group that context 1 holds, an engine that runs its multiply, an engine that it is to have next, and an empty register. -/
theorem meets_MatrixWaits :
    (let s := multiplies { Plot.reset with groups := [(0, { Group.reset with held := some 1 })] } 9 9 1;
      Ready s (pairSrc (regG 3) ++ pairSrc (regG 5) ++ [⟨regG 7, false⟩]) [] ∧ (s.myPlot.group (s.myPlot.base 0)).held = some 1 ∧ 1 ≠ s.cur.2) ∧
    (let s := multiplies { Plot.reset with engine := ⟨some 1, []⟩ } 9 9 1;
      Ready s [⟨regG 3, false⟩] [] ∧ Ready s (⟨regG 3, false⟩ :: pairSrc (regG 5)) [] ∧ Ready s [⟨regG 3, false⟩] [regV 2] ∧
      (s.myPlot.group (s.myPlot.base 0)).held = none ∧ s.myPlot.engine.running = some 1 ∧ 1 ≠ s.cur.2) ∧
    (let x := { Plot.reset with engine := ⟨none, [1]⟩, tenant := 1, ctxs := [(0, withG [(4, fmtWord 9 0 64), (6, fmtWord 9 1 64), (7, 1)]), (1, waitsEngine 0)] };
      let s : State := { State.reset with stage := 5, plots := [(0, x)] };
      Ready s (pairSrc (regG 3) ++ pairSrc (regG 5) ++ [⟨regG 7, false⟩]) [] ∧ Ready s [⟨regG 3, false⟩] [] ∧
      (s.myPlot.group (s.myPlot.base 0)).held = none ∧ s.myPlot.engine.running = none ∧ (s.joinMul [0]).myPlot.nextMul (some s.cur.2) = some 1 ∧ s.me.ownStore = false) ∧
    (Ready (storing []) [⟨regG 3, false⟩] [] ∧ (storing []).me.ownStore = true ∧ ((storing []).myPlot.group 0).held = none) ∧
    (multiplies Plot.reset 9 9 1).me.mul.ctl.isSome = false ∧ (streaming 1).me.mul.ctl.isSome = true ∧
    checkRegs (onPlot Plot.reset { task with regs := { Regs.reset with empt := [(3, true)] } }) [⟨regG 3, false⟩] [] = .error (.block (.source 3)) := by
  decide +kernel

theorem meets_MatrixControl :
    Ready (sg [(3, 0x100)]) [⟨regG 3, false⟩] [] ∧ Claims.Turn (sg [(3, 0x100)]) ((sg []).myPlot.touched 0 (cfgGroup 0x100).tiles) ∧
    (∀ w ∈ [0, 0x100], 0 + (cfgGroup (.ofNat 64 w)).tiles ≤ 64 ∧ w / 2 ^ 13 = 0 ∧ w / 64 % 4 = 0) ∧
    (s0.myPlot.sameGroup 0 (cfgGroup 0) = true ∧ s0.myPlot.sameGroup 0 (cfgGroup 0x100) = false) ∧
    (∀ k ∈ s0.myPlot.touched 0 (cfgGroup 0x100).tiles, (s0.myPlot.group k).live = false) ∧
    Claims.Turn s0 [s0.myPlot.base 0] ∧ Claims.Turn s0 [] ∧ Claims.Turn s0 [s0.myPlot.base 1, s0.myPlot.base 0] ∧
    (s0.myPlot.isBase 0 = true ∧ s0.myPlot.isBase 1 = true) ∧ Ready s0 [⟨regG 3, false⟩] [regV 2] ∧
    (let s := onPlot Plot.reset (withG [(6, fmtWord 9 1 64)]); let p := s.desc (regG 5);
      Ready s (⟨regG 3, false⟩ :: pairSrc (regG 5)) [] ∧ p.check [0, 1] [8, 9, 11, 12] false = .ok () ∧ p.aligned = .ok () ∧ p.bounds 3 7 = .ok ()) ∧
    (let s := onPlot Plot.reset (withG [(3, 0x100), (6, fmtWord 9 1 64), (8, fmtWord 9 0 64)]); let p := s.desc (regG 5); let r := s.desc (regG 7);
      Ready s (pairSrc (regG 5) ++ [⟨regG 3, false⟩] ++ pairSrc (regG 7)) [] ∧
      p.check [0, 1] [9, 11, 12] false = .ok () ∧ r.check [0, 1] [9, 11, 12] false = .ok () ∧ p.aligned = .ok () ∧ r.aligned = .ok () ∧
      p.scaleBounds 4 = .ok () ∧ r.scaleBounds 8 = .ok () ∧ (s.myPlot.group 1).rows = (s.myPlot.group 0).rows) ∧
    (let s := onPlot Plot.reset (withG [(3, 0x10008), (6, fmtWord 9 1 64), (8, fmtWord 9 0 64)]); let p := s.desc (regG 5); let r := s.desc (regG 7);
      Ready s (⟨regG 3, false⟩ :: (pairSrc (regG 5) ++ pairSrc (regG 7))) [] ∧
      p.check [0, 1] [0, 4, 8, 9, 11, 12] false = .ok () ∧ r.check [0, 1] [0, 4, 8, 9, 11, 12] true = .ok () ∧
      p.ty = r.ty ∧ p.p = r.p ∧ p.x = r.x ∧ p.aligned = .ok () ∧ r.aligned = .ok () ∧ 0x10008 % 2 ^ 16 = 8 ∧ 0x10008 / 2 ^ 16 = 1 ∧
      p.bounds 7 0 = .ok () ∧ r.bounds 3 0 = .ok () ∧ r.metaOff + 1 * (8 / 8) - 1 < Claims.lengthOf r.space) :=
  ⟨by decide +kernel, turn (by decide +kernel), by decide +kernel, by decide +kernel, by decide +kernel, turn (by decide +kernel),
    turn (by decide +kernel), turn (by decide +kernel), by decide +kernel, by decide +kernel, by decide +kernel, by decide +kernel, by decide +kernel⟩

theorem meets_MatrixElements : s0.myPlot.bufs.errs = [] ∧ [fmtF.value 0, fmtF.value 1, fmtF.value 0x7FC00000, fmtF.value 0xFF800000].length = 4 ∧
    (∀ g ∈ [0, 1], let s := onPlot Plot.reset (withG [(6, fmtWord 9 1 64), (7, 0x2000), (8, fmtWord 9 0 64)]); let p := s.desc (regG 5); let r := s.desc (regG 7);
      p.e = r.e ∧ r.at_ (2 * g) 3 + r.e ≤ r.at_ (2 * g + 1) 3 ∧
      (r.at_ (2 * g + 1) 3 + r.e ≤ r.metaOff + 3 * (8 / 8) + g / 2 ∨ r.metaOff + 3 * (8 / 8) + g / 2 + 1 ≤ r.at_ (2 * g) 3)) := by
  decide +kernel

/-! Modifiers. -/

/-- A state at address 0 with a word behind. -/
def followedBy (w : W32) : State := onPlot { Plot.reset with istore := [(1, w)] } task

/-- For each modifier a successor that it may precede; and successors that are a modifier, no instruction, and one that none but a hint may. -/
theorem meets_ModifierPairs :
    (onPlot Plot.reset { task with pc := 0x1FFC }).me.pc.toNat = 0x1FFC ∧ s0.me.pc.toNat ≠ 0x1FFC ∧ Sparse.get false s0.myPlot.istoreBad 1 = false ∧
    isModWord ((followedBy 0xF9000080).myPlot.wordFor s0.me 4) = true ∧ (isModWord 0 = false ∧ ∀ i, decode 0 ≠ .ok i) ∧
    (isModWord 0x08701357 = false ∧ decode 0x08701357 = .ok (.addi 7 0 false 0x1357)) ∧
    (isModWord 0x04108100 = false ∧ decode 0x04108100 = .ok (.add 1 2 1 false false)) ∧
    (∃ u, vfUse 0x04108100 = some u ∧ vfLegal (vfOf 0x80) u = true) ∧ (¬ ∃ u, vfUse 0x08701357 = some u ∧ vfLegal (vfOf 0x80) u = true) ∧
    ((invModOf 0x10100).hmask < 2 ^ (1#6).toNat ∧ (invModOf 0x10100).smask < 2 ^ (1#6).toNat) ∧
    ¬ (isModWord 0 = true ∧ s0.ipc = 0x1FFC) := by
  refine ⟨by decide +kernel, by decide +kernel, by decide +kernel, by decide +kernel, ⟨by decide +kernel, fun i h => ?_⟩, by decide +kernel,
    by decide +kernel, ⟨_, rfl, by decide +kernel⟩, ?_, by decide +kernel, by decide +kernel⟩
  · have : (decode 0).isOk = false := by decide +kernel
    rw [h] at this
    cases this
  · rintro ⟨u, h, g⟩
    have : vfUse 0x08701357 = none := by decide +kernel
    rw [this] at h
    cases h

/-! Events: answers, words of the ports, translations. -/

/-- A packet under way. -/
def sent (s : State) (m : Packet) : State := { s with net := [m] }

/-- The only packet under way is the first of its stream. -/
theorem arrives (s : State) (m : Packet) (h : s.net = []) : Claims.Arrives (sent s m) 0 m s :=
  ⟨by simp [State.first, sent], by cases s; cases h; rfl⟩

/-- A packet for plot 0 from plot 1, of tenant 1. -/
def toPlot (cls : Cls) (b : Msg) : Packet := ⟨cls, .plot 1, .plot 0, 1, b⟩

theorem atPlot (cls : Cls) (b : Msg) : Claims.AtPlot s0 (toPlot cls b) 0 := ⟨by decide, rfl⟩

/-- The task waits for access 9 without being held, or held. -/
def asked (held : Bool) (ds : List Nat) : State := onPlot Plot.reset { task with
  outst := [⟨9, .hbm, false, .words ds, 0⟩], hold := if held then some ⟨.await, 9, 0, [], 0, 0, []⟩ else none }

theorem meets_AnswersArrive :
    (∀ m : Packet, Claims.Arrives (sent s0 m) 0 m s0) ∧ (∀ cls b, Claims.AtPlot s0 (toPlot cls b) 0 ∧ Claims.Same s0 (toPlot cls b) 0) ∧
    ¬ Claims.Same s0 { toPlot .rsp (.sysAck ⟨0, 1, 9⟩) with tenant := 2 } 0 ∧
    (asked false [5]).heldFor ⟨0, 1, 9⟩ = false ∧ (asked true [5]).heldFor ⟨0, 1, 9⟩ = true ∧
    (s0.plot 0).find 1 ≠ none ∧ (s0.plot 0).find 2 = none :=
  ⟨fun m => arrives s0 m rfl, fun cls b => ⟨atPlot cls b, .inr rfl⟩, by unfold Claims.Same; decide +kernel, by decide +kernel, by decide +kernel,
    by decide +kernel, by decide +kernel⟩

theorem meets_AnswerFills :
    (∀ b ∈ [false, true], let s := asked b [5, 6];
      (s.plot 0).find 1 = some (.ctx 0) ∧ (s.plot 0).outbox = [] ∧
      (s.ctx 0 0).outst.find? (fun o => o.id == 9) = some ⟨9, .hbm, false, .words [5, 6], 0⟩ ∧ [5, 6].Nodup ∧ (∀ d ∈ [5, 6], 0 < d ∧ d < 60) ∧
      (s.ctx 0 0).hold = (if b then some ⟨.await, 9, 0, [], 0, 0, []⟩ else none)) ∧
    (∀ h, ((asked true [5]).ctx 0 0).hold = some h → h.id = 9 ∧ h.kind = .await ∧ ∀ a b n, h.kind ≠ .flume a b n) := by
  refine ⟨by decide +kernel, fun h k => ?_⟩
  obtain rfl : (⟨.await, 9, 0, [], 0, 0, []⟩ : Hold) = h := Option.some.inj k
  exact ⟨rfl, rfl, fun _ _ _ h => by cases h⟩

/-- To a neighbour of the same partition, and of another. -/
theorem meets_PortWordMoves : neighbour 0 1 = some 1 ∧ (1 + 2) % 4 = 3 ∧
    (∀ n ∈ [1, 2], let s : State := { State.reset with plots := [(0, { Plot.reset with tenant := 1, outq := [(1, [⟨4, some 7⟩])] }), (1, { Plot.reset with tenant := n })] };
      (s.plot 0).outbound 1 = [⟨4, some 7⟩] ∧ ((s.plot 1).inbound 3).length < 8 ∧ (s.plot 1).tenant = n ∧ (s.plot 0).tenant = 1) := by decide +kernel

theorem meets_TranslationArrives :
    (let s := served 0 []; let u := s.modPlot 0 fun x => { x with xreq := [(1, 1), (1, 3)] };
      (u.plot 0).xreq[0]? = some (1, 1) ∧ (u.plot 0).xreq[1]? = some (1, 3) ∧ (u.plot 0).find 1 = some (.ctx 0) ∧ u.service 0 (1 * 2 ^ 16) = some (page 0) ∧ u.service 0 (3 * 2 ^ 16) = none) := by
  decide +kernel

theorem meets_EngineGoes :
    let x := { Plot.reset with engine := ⟨none, [0, 1]⟩, ctxs := [(0, waitsEngine 0), (1, waitsEngine 3)] };
    x.engine.running = none ∧ x.engine.waiting = [0] ++ 1 :: [] ∧ ((x.ctx 1).live = true ∧ (x.ctx 1).halted = false ∧ x.sched.spilling ≠ some 1) ∧
    (∀ t ∈ (x.ctx 1).mul.names, (x.group (x.base t)).held = none ∨ (x.group (x.base t)).held = some 1) ∧
    (∃ b, (x.ctx 1).block = some b ∧ b.why = .engine) ∧ ∀ j ∈ [0], (x.ctx j).csr.taskpri < (x.ctx 1).csr.taskpri :=
  ⟨by decide +kernel, by decide +kernel, by decide +kernel, by decide +kernel, ⟨_, rfl, rfl⟩, by decide +kernel⟩

/-! Events: the places that serve accesses. -/

/-- An access of task 1 of plot 0. -/
def access (buf addr : Nat) (op : MemOp) : Acc := ⟨⟨0, 1, 9⟩, buf, addr, op⟩

/-- A place at which an access has been accepted. -/
def accepted (s : State) (w : Who) (d : Endpoint) : State := { s with checked := [(w, d)] }

/-- A write at its check, for the own and for another partition; an accepted one; other accesses behind it and alone; a full and an empty word. -/
theorem meets_RemotePortServes :
    (∀ op ∈ [MemOp.load 8, .lanes [0, 1], .store [(0, 5)], .sync 2 7, .sync 3 0, .sync 0 0, .sync 1 0, .amo 0 1 0],
      let m := toPlot .req (.acc (access 1 16 op));
      Claims.Arrives (sent s0 m) 0 m s0 ∧ Claims.AtPlot s0 m 0 ∧ Claims.Same s0 m 0) ∧
    (∀ op ∈ [MemOp.store [(0, 5)], .sync 2 7, .sync 3 0], let a := access 1 16 op;
      Claims.AtCheck (sent s0 (toPlot .req (.acc a))) 0 (toPlot .req (.acc a)) a ∧
      Claims.InTurn (accepted s0 a.who (.plot 0)) (toPlot .req (.acc a)) a) ∧
    ¬ Claims.Same s0 { toPlot .req (.acc (access 1 16 (.load 8))) with tenant := 2 } 0 ∧ Claims.Idle s0 (.plot 0) ∧
    ((access 1 16 (.load 8)).told = false ∧ ∃ e ∈ (accepted s0 ⟨0, 1, 8⟩ (.plot 0)).checked, e.2 = .plot 0 ∧ e.1 ≠ (access 1 16 (.load 8)).who) ∧
    (s0.plot 0).bufs.errs = [] ∧ (access 1 16 (.load 8)).isAmo = false ∧ s0.parkedPort = [] ∧ (s0.plot 0).bufs.wordEmpty 1 2 = false ∧
    ((onPlot { Plot.reset with bufs := { Bufs.reset with ew := [(2, true)] } } task).plot 0).bufs.wordEmpty 1 2 = true ∧ 0 < Config.portParks := by
  refine ⟨fun _ _ => ⟨arrives s0 _ rfl, atPlot _ _, .inr rfl⟩, fun op h => ⟨⟨rfl, rfl, ?_, ?_, ?_⟩, [], [], rfl, by simp⟩, ?_, ?_, by decide +kernel⟩
  · simp only [List.mem_cons, List.not_mem_nil, or_false] at h
    rcases h with rfl | rfl | rfl
    · exact .inl ⟨_, rfl⟩
    · exact .inr ⟨_, _, rfl, by decide⟩
    · exact .inr ⟨_, _, rfl, by decide⟩
  · exact fun e h => absurd h (List.not_mem_nil)
  · exact fun e h => absurd h (List.not_mem_nil)
  · unfold Claims.Same; decide +kernel
  · exact fun e h => absurd h (List.not_mem_nil)

/-- A packet for a base die. -/
def toBase (op : MemOp) : Packet := ⟨.req, .plot 0, .base 0, 1, .acc (access 3 128 op)⟩

/-- A package of which partition 1 owns all HBM. -/
def owned : State := { s0 with host := { s0.host with granules := [(0, 1)] } }

/-- Nothing of its task goes before an access, or an earlier write to its bytes does; memory of the own and of another partition. -/
theorem meets_BaseDieServes :
    (∀ op ∈ [MemOp.load 8, .lanes [0, 1], .store [(0, 5)], .sync 2 7, .sync 3 0, .sync 0 0, .sync 1 0, .amo 0 1 0],
      Claims.Arrives (sent owned (toBase op)) 0 (toBase op) owned ∧ Claims.DieTurn owned 0 (toBase op) (access 3 128 op)) ∧
    ¬ Claims.DieTurn { owned with parked := [(⟨⟨0, 1, 8⟩, 3, 128, .sync 0 0⟩, 1)] } 0 (toBase (.store [(0, 5)])) (access 3 128 (.store [(0, 5)])) ∧
    owned.owns 1 128 = true ∧ s0.owns 1 128 = false ∧
    (∀ e ∈ s0.parked, e.1.addr / 64 ≠ 128 / 64) ∧ Sparse.get false s0.mem.fe 2 = false ∧
    Sparse.get false ({ s0 with mem := { Memory.reset with fe := [(2, true)] } } : State).mem.fe 2 = true ∧ 0 < Config.baseParks ∧
    ∀ x ∈ span 128 8, s0.hbmBad x = false := by
  refine ⟨fun op _ => ⟨arrives owned _ rfl, ?_, ?_, ?_, ?_⟩, fun h => ?_, by decide +kernel⟩
  · exact fun e h => absurd h (List.not_mem_nil)
  · exact fun e h => absurd h (List.not_mem_nil)
  · exact fun e h => absurd h (List.not_mem_nil)
  · exact fun _ e h => absurd h (List.not_mem_nil)
  · exact absurd (h.parked _ (List.mem_singleton.mpr rfl)) (by decide +kernel)

/-- A peer's store at its check, of the owner and of another partition; and an accepted one whose turn it is. -/
theorem meets_PeerWriteServes :
    let a := access 5 128 (.store [(0, 5)]);
    let m : Packet := ⟨.req, .plot (2 ^ 20), .peer 0, 1, .acc a⟩;
    m.dst = .peer owned.pkg ∧ Claims.AtCheck (sent owned m) 0 m a ∧ owned.owns m.tenant a.addr = true ∧ s0.owns m.tenant a.addr = false ∧
    (let s := sent (accepted owned a.who (.peer 0)) m;
      Claims.Arrives s 0 m (accepted owned a.who (.peer 0)) ∧ s.wasAccepted a = true ∧
      Claims.DieTurn (accepted owned a.who (.peer 0)) 0 m a ∧ (accepted owned a.who (.peer 0)).peerTurn 0 m = true) := by
  refine ⟨rfl, ⟨rfl, rfl, .inl ⟨_, rfl⟩, ?_, ?_⟩, by decide +kernel, by decide +kernel, arrives _ _ rfl, by decide +kernel, ⟨?_, ?_, ?_, ?_⟩, by decide +kernel⟩
  · exact fun e h => absurd h (List.not_mem_nil)
  · exact fun e h => absurd h (List.not_mem_nil)
  · exact fun e h => absurd h (List.not_mem_nil)
  · exact fun e h => absurd h (List.not_mem_nil)
  · exact fun e h => absurd h (List.not_mem_nil)
  · exact fun _ e h => absurd h (List.not_mem_nil)

theorem meets_ParkedServed :
    (let s : State := { s0 with parked := [(access 3 128 (.sync 1 0), 1), (access 3 128 (.sync 0 0), 1)], parkedPort := [(access 1 16 (.sync 1 0), 0, 1)], resend := [(5, toBase (.load 8))] };
      s.parked[0]? = some (access 3 128 (.sync 1 0), 1) ∧ Sparse.get false s.mem.fe (128 / 64) = false ∧ s.parked.take 0 = [] ∧
      (∃ e ∈ s.parked.take 1, e.1.addr / 64 = 128 / 64) ∧
      s.parkedPort[0]? = some (access 1 16 (.sync 1 0), 0, 1) ∧ (s.plot 0).bufs.errs = [] ∧ (s.plot 0).bufs.wordEmpty 1 (16 / 8) = false ∧
      s.parkedPort.take 0 = [] ∧ s.resend[0]? = some (5, toBase (.load 8))) := by decide +kernel

theorem meets_HostServes :
    Claims.Arrives (sent s0 ⟨.req, .plot 0, .head 0, 1, .acc (access 4 64 (.load 8))⟩) 0 ⟨.req, .plot 0, .head 0, 1, .acc (access 4 64 (.load 8))⟩ s0 ∧
    (let s : State := { s0 with host := { s0.host with cxl := [(access 4 64 (.load 8), .plot 0, 1), (access 4 68 (.store [(0, 1)]), .plot 0, 1), (access 4 0 (.amo 2 0 1), .plot 0, 1)] } };
      s.host.cxl[0]? = some (access 4 64 (.load 8), .plot 0, 1) ∧ s.host.cxl.take 0 = [] ∧
      s.host.cxl[1]? = some (access 4 68 (.store [(0, 1)]), .plot 0, 1) ∧ (∃ e ∈ s.host.cxl.take 1, e.1.meets (access 4 68 (.store [(0, 1)])) = true) ∧
      s.host.cxl[2]? = some (access 4 0 (.amo 2 0 1), .plot 0, 1) ∧ ∀ e ∈ s.host.cxl.take 2, e.1.meets (access 4 0 (.amo 2 0 1)) = false) ∧
    ({ s0 with link := { Link.reset with spills := [(0x4000, [1, 2])] } } : State).link.spills[0]? = some (0x4000, [1, 2]) :=
  ⟨arrives s0 _ rfl, by decide +kernel, by decide +kernel⟩
/-! Events: invocations and records. -/

/-- A plot with object slot 0 of generation 1 on channel 0, and what has to be said of it. -/
def serves (o : Obj) (c : Chan) : State := onPlot { Plot.reset with objs := [(0, o)], chans := [(0, c)] } task

/-- An enabled channel of object slot 0. -/
def chan0 : Chan := { Chan.reset with en := true, objv := true }

/-- A strict argument, a handle as target, an object that is invalid, not resident, resident, moved, a multicast, deterministic mode. -/
theorem meets_InvocationArrives :
    (∀ i : Inv, Claims.Arrives (sent s0 (toPlot .inv (.inv i))) 0 (toPlot .inv (.inv i)) s0 ∧ Claims.AtPlot s0 (toPlot .inv (.inv i)) 0 ∧
      Claims.Same s0 (toPlot .inv (.inv i)) 0) ∧
    ¬ Claims.Same s0 { toPlot .inv (.inv (invocation 0x1000 [] 0)) with tenant := 2 } 0 ∧
    (invocation 0x1000 [mkHandle 0 1 1] 1).strict = some (0, mkHandle 0 1 1) ∧
    ((invocation (mkHandle 0 1 1) [] 0).strict = none ∧ bitw (invocation (mkHandle 0 1 1) [] 0).target 0 = true) ∧
    (∀ s ∈ [serves ⟨true, true, false, 0, 1⟩ chan0, serves ⟨true, false, false, 0, 1⟩ chan0, serves ⟨false, false, false, 0, 1⟩ chan0],
      ((Claims.woken s 0).plot 0).det = false ∧ ((Claims.woken s 0).field 0).moved 0x1000 = none ∧ ((s.plot 0).obj (oSlot 0x1000)).gen = oGen 0x1000 ∧
      (Claims.woken s 0).holdsObj 0 0x1000 = false) ∧
    (let s : State := { serves ⟨true, true, false, 0, 1⟩ chan0 with fields := [(0, { Field.reset with dir := [(0x1000, 0x1001000)], agent := [.object 0x2000 (invocation 0x2000 [] 0)] })] };
      ((Claims.woken s 0).field 0).moved 0x1000 = some 0x1001000 ∧ (Claims.woken s 0).holdsObj 0 0x2000 = true) ∧
    ((Claims.woken (onPlot { Plot.reset with csr := { Plot.reset.csr with detctl := 1 } } task) 0).plot 0).det = true :=
  ⟨fun i => ⟨arrives s0 _ rfl, atPlot _ _, .inr rfl⟩, by unfold Claims.Same; decide +kernel, by decide +kernel, by decide +kernel, by decide +kernel,
    by decide +kernel, by decide +kernel⟩

/-- A message taken from nowhere else. -/
def message : Queued := .raw [5] 0

theorem meets_ChannelQueues :
    (let x := { Plot.reset with queues := [(0, List.replicate 8 (0, message))] }; 8 ≤ x.qcnt 0 ∧ x.qcnt 1 < 8 ∧ (x.chan 1).ov = false ∧ (x.chan 1).recvs = []) ∧
    ({ Plot.reset with chans := [(0, { chan0 with ov := true })] }.chan 0).ov = true ∧
    (∀ b ∈ [Msg.raw [5] 0 3, .chanBlock 0 3 true], Claims.Arrives (sent s0 (toPlot .inv b)) 0 (toPlot .inv b) s0 ∧ Claims.AtPlot s0 (toPlot .inv b) 0 ∧
      Claims.Same s0 (toPlot .inv b) 0) :=
  ⟨by decide +kernel, by decide +kernel, fun _ _ => ⟨arrives s0 _ rfl, atPlot _ _, .inr rfl⟩⟩

/-- A plot whose record 5, of generation 1, has more said of it. -/
def recorded (r : Record) : State := onPlot { Plot.reset with records := [(5, { r with gen := 1 })] } task

/-- An unresolved record. -/
def open_ : Record := { Record.reset with st := .unresolved, owner := .task 1 }

/-- A packet for field 0. -/
def toField (b : Msg) : Packet := ⟨.inv, .plot 0, .service 0, 1, b⟩

/-- Lists of the agent, of the own and of another partition, of a moved object; a record with room, and one that is settled. -/
theorem meets_AgentKeeps :
    (∀ b ∈ [Msg.recOverflow (mkHandle 0 5 1) (invocation 0x1000 [] 0) 0, .toAgent (invocation 0x1000 [] 0), .overflow 0 3 message,
        .overflow 0 3 (.inv (invocation 0x1000 [] 0))],
      Claims.Arrives (sent s0 (toField b)) 0 (toField b) s0 ∧ Claims.AtService (toField b) 0 ∧ Claims.Same s0 (toField b) 0 ∧
      ¬ Claims.Same s0 { toField b with tenant := 2 } 0) ∧
    ((s0.field 0).moved 0x1000 = none ∧
      ({ s0 with fields := [(0, { Field.reset with dir := [(0x1000, 0x1001000)] })] }.field 0).moved 0x1000 = some 0x1001000) ∧
    (let list := [AgentEnt.chan 0 3 message, .record (mkHandle 0 5 1) (invocation 0x1000 [] 0) 0, .object 0x1000 (invocation 0x1000 [] 0),
        .chan 0 4 (.inv (invocation 0x1000 [] 0))];
      list[0]? = some (.chan 0 3 message) ∧ list[1]? = some (.record (mkHandle 0 5 1) (invocation 0x1000 [] 0) 0) ∧
      list[2]? = some (.object 0x1000 (invocation 0x1000 [] 0)) ∧ list[3]? = some (.chan 0 4 (.inv (invocation 0x1000 [] 0))) ∧
      (∀ a ∈ list.take 3, ∀ r, a ≠ .chan 0 4 r)) ∧
    ((invocation 0x1000 [] 0).tenant = (s0.plot 0).tenant ∧ (invocation 0x1000 [] 0).tenant ≠ ({ Plot.reset with tenant := 2 } : Plot).tenant) ∧
    ((s0.plot 0).qcnt 3 < 8 ∧ (s0.plot 0).det = false ∧ (onPlot { Plot.reset with csr := { Plot.reset.csr with detctl := 1 } } task |>.plot 0).det = true) ∧
    (s0.plot (hPlot (mkHandle 0 5 1) % 2 ^ 20)).named (mkHandle 0 5 1) = none ∧
    ((recorded open_).plot 0).stored < Config.turnoutStore ∧ { open_ with st := .value 7 }.takesAtOnce (invocation 0x1000 [] 0) = true ∧
    (let o := (serves ⟨true, true, false, 0, 1⟩ chan0).plot (hPlot 0x1000 % 2 ^ 20) |>.obj (oSlot 0x1000); o.v = true ∧ o.res = true ∧ o.gen = oGen 0x1000) ∧
    (s0.plot 0 |>.obj 0).res = false := by
  refine ⟨fun _ _ => ⟨arrives s0 _ rfl, rfl, .inr rfl, ?_⟩, by decide +kernel, ⟨rfl, rfl, rfl, rfl, ?_⟩, by decide +kernel⟩
  · exact fun h => h.elim (fun h => absurd (show (2 : Nat) = 0 from h) (by decide)) fun h => absurd (show (2 : Nat) = 1 from h) (by decide)
  · intro a h r e
    subst e
    revert h
    simp

theorem meets_DirectoryAndTlb :
    (∀ b ∈ [Msg.dirForward (invocation 0x1000 [] 0), .dirMap 0x1000 0x100001000000 ⟨0, 1, 9⟩, .tlbInv (some 0x10000) ⟨0, 1, 9⟩ 0 1, .tlbInv none ⟨0, 1, 9⟩ 0 1],
      Claims.Arrives (sent s0 (toField b)) 0 (toField b) s0 ∧ Claims.AtService (toField b) 0) ∧
    fieldOf (hPlot 0x1000 % 2 ^ 20) = 0 ∧ hPlot 0x100001000000 / 2 ^ 20 = s0.pkg ∧ fieldOf (hPlot 0x100001000000) ≠ 0 ∧
    Claims.Same s0 (toField (.dirMap 0x1000 0x100001000000 ⟨0, 1, 9⟩)) (hPlot 0x1000 % 2 ^ 20) ∧
    (let m := toPlot .sys (.dirMap 0x1000 0x100001000000 ⟨2 ^ 20, 1, 9⟩); Claims.Arrives (sent s0 m) 0 m s0 ∧ (m.dst = .plot 0 ∧ 0 / 2 ^ 20 = s0.pkg) ∧
      Claims.Same s0 m (hPlot 0x1000 % 2 ^ 20) ∧ ¬ Claims.Same s0 { m with tenant := 2 } (hPlot 0x1000 % 2 ^ 20)) ∧
    ¬ Claims.Same s0 { toField (.dirForward (invocation 0x1000 [] 0)) with tenant := 2 } (hPlot 0x1000 % 2 ^ 20) :=
  ⟨fun _ _ => ⟨arrives s0 _ rfl, rfl⟩, by decide +kernel, by decide +kernel, by decide +kernel, by unfold Claims.Same; decide +kernel,
    ⟨arrives s0 _ rfl, ⟨rfl, rfl⟩, by unfold Claims.Same; decide +kernel, by unfold Claims.Same; decide +kernel⟩, by unfold Claims.Same; decide +kernel⟩

/-- A record that is settled, of one promise, of a multicast with more members to come and with one, and none. -/
theorem meets_SettlementArrives :
    (∀ st b, let m := toPlot .clo (.settle (mkHandle 0 5 1) st b);
      Claims.Arrives (sent s0 m) 0 m s0 ∧ Claims.AtPlot s0 m 0 ∧ Claims.Same s0 m 0) ∧
    (s0.plot 0).named (mkHandle 0 5 1) = none ∧ hSlot (mkHandle 0 5 1) = 5 ∧
    ((recorded open_).plot 0).named (mkHandle 0 5 1) = some { open_ with gen := 1 } ∧ open_.settled = false ∧ open_.members = 0 ∧
    { open_ with st := .value 0 }.settled = true ∧
    (let r := { open_ with members := 4, left := 2 }; r.settled = false ∧ r.members ≠ 0 ∧ 1 < r.left) ∧
    (let r := { open_ with members := 4, left := 1 }; r.settled = false ∧ r.members ≠ 0 ∧ r.left ≤ 1) :=
  ⟨fun _ _ => ⟨arrives s0 _ rfl, atPlot _ _, .inr rfl⟩, by decide +kernel⟩

/-- An AWAIT behind an invocation on a handle that waits to leave. -/
theorem meets_AwaitBehind :
    let i := invocation (mkHandle 1 2 3) [] 0
    let s := promised .unresolved [(3, mkHandle 1 2 3)]
    let t := s.modPlot 0 fun x => { x with outbox := [⟨s.me.csr.taskid, [7], .invocation i⟩] }
    Ready t [gs 3 false] [regG 5] ∧ ∃ l ∈ t.myPlot.outbox, l.task = t.me.csr.taskid ∧ l.what = .invocation i ∧ bitw i.target 0 = true := by decide +kernel

theorem meets_RecordForwards :
    (∀ st ∈ [PState.value 7, .oref 0x1000, .chained (mkHandle 1 2 3), .broken 9],
      (((recorded { open_ with st := st }).plot 0).rec_ 5).st = st ∧ (((recorded { open_ with st := st }).plot 0).rec_ 5).via = 0) ∧
    (invocation (mkHandle 0 5 1) [] 0).strict = none ∧ (invocation 0x1000 [mkHandle 0 5 1] 1).strict = some (0, mkHandle 0 5 1) ∧
    (let r := ((recorded { open_ with st := .value 7, queue := [⟨0, invocation 0x1000 [] 0⟩] }).plot 0).rec_ 5;
      (r.queue.find? fun x => !(r.isChained && x.inv.strict.isSome)) = some ⟨0, invocation 0x1000 [] 0⟩ ∧ r.settled = true) ∧
    (let r := ((recorded { open_ with st := .chained (mkHandle 1 2 3), queue := [⟨0, invocation 0x1000 [mkHandle 0 5 1] 1⟩] }).plot 0).rec_ 5;
      ∀ x ∈ r.queue, r.isChained = true ∧ x.inv.strict.isSome = true) ∧
    (∀ n ∈ [0, 1], let r := { open_ with via := mkHandle 1 2 3, viaAt := n }; r.via ≠ 0 ∧ (r.viaAt ≤ 0 ↔ n = 0)) ∧ (((recorded open_).plot 0).rec_ 5).settled = false := by decide +kernel

theorem meets_RecordRequests :
    (∀ b ∈ [Msg.accept [(mkHandle 0 5 1, 0)] 9, .accept [(mkHandle 0 5 1, 0), (mkHandle 1 2 3, 0)] 9, .register (mkHandle 0 5 1) (mkHandle 1 2 3),
        .collapse (mkHandle 0 5 1) (.value 7), .awaitReq (mkHandle 0 5 1) ⟨0, 1, 9⟩, .hstatReq (mkHandle 0 5 1) ⟨0, 1, 9⟩],
      Claims.Arrives (sent s0 (toPlot .clo b)) 0 (toPlot .clo b) s0 ∧ Claims.AtPlot s0 (toPlot .clo b) 0 ∧ Claims.Same s0 (toPlot .clo b) 0) ∧
    (s0.plot 0).named (mkHandle 0 5 1) = none ∧ ((recorded open_).plot 0).named (mkHandle 0 5 1) = some { open_ with gen := 1 } ∧
    ((recorded { open_ with st := .chained (mkHandle 1 2 3) }).plot 0).named (mkHandle 0 5 1) = some { open_ with gen := 1, st := .chained (mkHandle 1 2 3) } ∧
    (∀ o ∈ [[0], [0, 0], []], (0 ∈ o.erase 0 ↔ o = [0, 0])) ∧
    (∀ o ∈ [Owner.task 9, .gone 64, .none], let s := recorded { open_ with st := .value 7, owner := o }; let r := (s.plot 0).rec_ 5;
      r.owner = o ∧ (s.plot 0).alive 9 = false ∧ r.settled = true ∧ r.st = .value 7 ∧ r.queue = [] ∧ r.asks = [] ∧ r.out = [] ∧ r.away = [] ∧
      s.holdsRec 0 (mkHandle 0 5 1) = false) :=
  ⟨fun _ _ => ⟨arrives s0 _ rfl, atPlot _ _, .inr rfl⟩, by decide +kernel⟩

theorem meets_RecordAnswers : ∀ st ∈ [PState.value 7, .oref 0x1000, .broken 9, .unresolved], let r := ((recorded { open_ with st := st, queue := [⟨3, invocation 0x1000 [] 0⟩], out := [4], away := [5] }).plot 0).rec_ 5;
    r.st = st ∧ r.via = 0 ∧ (∀ e ∈ r.queue, 3 ≤ e.seq) ∧ (∀ q ∈ r.out, 3 ≤ q) ∧ ∀ q ∈ r.away, 3 ≤ q := by decide +kernel

/-! Events: the scheduler. -/

/-- A plot whose channel 2 of priority 5 has a message since cycle 0. -/
def waitingMessage (ctxs : Sparse Ctx) : Plot :=
  { Plot.reset with tenant := 1, ctxs := ctxs, chans := [(2, { chan0 with pri := 5 })], queues := [(2, [(0, .inv (invocation 0x1000 [7] 0))])] }

/-- The package with plot 0. -/
def only (x : Plot) : State := { State.reset with stage := 5, plots := [(0, x)] }

theorem meets_TasksStart :
    (let u := (Claims.noticed (only (waitingMessage [])) 0).plot 0;
      u.best = some ⟨5, 0, 0, 2, 0⟩ ∧ u.freeCtx = some 0 ∧ (u.queue 2).drop 0 = [(0, .inv (invocation 0x1000 [7] 0))]) ∧
    (let x := { task with ended := true }; x.live = true ∧ x.ended = true ∧ x.multi = [] ∧ x.hold = none ∧ x.furrow.leader = none) ∧
    Ctx.empty.live = false ∧ task.ended = false := by decide +kernel

/-- Four contexts of priority 1. -/
def full : Sparse Ctx := (List.range 4).map fun c => (c, { task with csr := { Csrs.reset with taskid := c + 1, taskpri := 1 } })

theorem meets_SpillAndRestore :
    (∀ n ∈ [0, 1], let u := (Claims.noticed (only { waitingMessage full with csr := { Plot.reset.csr with cistern := .ofNat 64 (n * 2 ^ 52) } }) 0).plot 0;
      u.freeCtx = none ∧ u.sched.spilling = none ∧ u.best = some ⟨5, 0, 0, 2, 0⟩ ∧ u.floorTask = none ∧ u.victim (some 5) = some 0 ∧
      u.slots = n ∧ u.sched.images = [] ∧ (u.ctx 0).furrow.leader = none ∧ u.sched.lastSpillFull ≠ some 0) ∧
    ((∀ j, j < 4 → (task.due.spillFull = none)) ∧ { Sched.reset with lastSpillFull := some 0 }.lastSpillFull = some 0 ∧
      { task with due := { task.due with spillFull := some 0 } }.due.spillFull ≠ none) ∧
    (∀ y ∈ [task, { task with multi := [⟨5, 0, 9, false⟩] }], let s := only { Plot.reset with ctxs := [(0, y)], sched := { Sched.reset with spilling := some 0 } };
      (s.plot 0).sched.spilling = some 0 ∧ (s.ctx 0 0).live = true ∧ (s.ctx 0 0).ended = false ∧ (s.ctx 0 0).multi = y.multi ∧ (s.ctx 0 0).pair = none ∧
      (s.plot 0).engine.running = none) ∧
    (let u := (Claims.noticed (only { Plot.reset with sched := { Sched.reset with images := [(task, some 0)] } }) 0).plot 0;
      u.best = some ⟨0, 0, 1, 1, 0⟩ ∧ u.freeCtx = some 0 ∧ u.sched.images.find? (fun i => i.1.csr.taskid == 1) = some (task, some 0) ∧ u.sched.spilling = none) ∧
    (let u := (Claims.noticed (only { Plot.reset with ctxs := [(0, task)], sched := { Sched.reset with images := [(task, some 0)], spilling := some 0 } }) 0).plot 0;
      u.best = some ⟨0, 0, 1, 1, 0⟩ ∧ u.freeCtx = some 1 ∧ u.sched.spilling.isSome = true) := by decide +kernel

theorem meets_FloorAndSleep :
    (∀ n ∈ [5, 65536], let s : State := { only { Plot.reset with ctxs := [(0, task)] } with cycle := .ofNat 64 n }; s.now = n ∧ ((Claims.noticed s 0).plot 0).det = false ∧
      ((Claims.noticed s 0).plot 0).floorTask = none ∧ ((Claims.noticed s 0).plot 0).messages = [] ∧ ((Claims.noticed s 0).plot 0).spilled = [] ∧
      ((Claims.noticed s 0).ctx 0 0).issued = false ∧ ((Claims.noticed s 0).plot 0).canIssue ((Claims.noticed s 0).ctx 0 0) = true) ∧
    firstBy Cand.age ([] ++ [] ++ [⟨0, 0, 2, 0, 0⟩]) = some ⟨0, 0, 2, 0, 0⟩ ∧ firstBy Cand.age ([⟨0, 0, 0, 2, 0⟩] ++ [] ++ []) = some ⟨0, 0, 0, 2, 0⟩ ∧
    (∀ n ∈ [0, 1], let s := onPlot Plot.reset { task with hold := some ⟨.sleep 9, 0, 0, [], 9, n, []⟩ };
      (s.ctx 0 0).hold = some ⟨.sleep 9, 0, 0, [], 9, n, []⟩ ∧ s.now < 9 ∧ 9 ≤ ({ s with cycle := 9 } : State).now) := by decide +kernel

/-- A plot that leads, and one on which nothing does. -/
theorem meets_FurrowEvents :
    (let m : Packet := ⟨.sys, .plot 1, .plot 0, 1, .join ⟨1, 1, 9⟩ 0 0 1⟩;
      Claims.Arrives (sent furrow m) 0 m furrow ∧ Claims.AtPlot furrow m 0 ∧ Claims.Same furrow m 0) ∧ (1 : Nat) % 2 ^ 20 ≠ 0 ∧
    (∀ j, j < 4 → ¬ ((s0.ctx 0 j).live = true ∧ (s0.ctx 0 j).ended = false ∧ (s0.ctx 0 j).furrow.lead = true)) ∧
    ((furrow.ctx 0 0).live = true ∧ (furrow.ctx 0 0).ended = false ∧ (furrow.ctx 0 0).furrow.lead = true) ∧ (furrow.plot 1).find 1 = some (.ctx 0) ∧
    (furrow.ctx 1 0).furrow.leader = some (0, 1) ∧
    (let u := Claims.noticed (furrow.modCtx 0 0 fun x => { x with halted := true }) 0; (u.plot 0).find 1 = some (.ctx 0) ∧
      ((u.plot 0).at_ (.ctx 0)).furrow.stall = some 0) :=
  ⟨⟨arrives furrow _ rfl, ⟨by decide, rfl⟩, .inr rfl⟩, by decide +kernel⟩

/-- A partition of tenant 1 that is plot 0 of field 0. -/
def part (detctl : Word) (ended : List Nat) : Part :=
  ⟨0, 1, [0], [(0, 0, 0, 1, 1)], [0], 4, 0, 0, 0, detctl, 4096, none, ended, 0, false, []⟩

/-- The package with that partition, plot 0 in deterministic mode after its quantum, or before its end. -/
def deterministic (retired : Nat) (ended : Bool) (es : List Nat) : State :=
  { only { Plot.reset with tenant := 1, csr := { Plot.reset.csr with detctl := 1 }, sched := { Sched.reset with retired := retired, ended := ended } } with
    host := { HostIf.reset with parts := [part 1 es] } }

theorem meets_QuantumEnds :
    (let x := (deterministic 4096 false []).plot 0; x.det = true ∧ x.sched.ended = false ∧ x.quantumOver = true) ∧
    (s0.plot 0).det = false ∧ ((deterministic 0 true []).plot 0).sched.ended = true ∧
    (let s := deterministic 4096 true [0]; s.host.parts[0]? = some (part 1 [0]) ∧ bitw (part 1 [0]).detctl 0 = true ∧
      (∀ p ∈ (part 1 [0]).plots, p ∈ (part 1 [0]).endedPlots) ∧ s.deferred = [] ∧ s.gateQ = [] ∧ s.net = [] ∧ s.fields = [] ∧
      ∀ p ∈ (part 1 [0]).plots, (s.plot p).outbox = []) ∧
    (let s := sent (deterministic 4096 true [0]) (toPlot .inv (.inv (invocation 0x1000 [] 0)));
      ∃ m ∈ s.net, m.tenant = (part 1 [0]).tenant ∧ m.body = .inv (invocation 0x1000 [] 0)) ∧
    (∃ p ∈ (part 1 []).plots, p ∉ (part 1 []).endedPlots) ∧
    (let q := { part 1 [0] with packages := [0, 1] }; let m : Packet := ⟨.inv, .peer 1, .peer 0, 1, .quantumEnd⟩;
      m.cls = .inv ∧ m.body = .quantumEnd ∧ m.tenant = q.tenant ∧ (∀ g ∈ q.packages, g = s0.pkg ∨ (m.src = .peer g)) ∧ q.told = false ∧ { q with told := true }.told = true ∧
      ∃ g ∈ q.packages, ¬ g = s0.pkg) := by decide +kernel

/-! Events: headgate units and barriers. -/

/-- HBM of partition 1 with a record at 0x50040: the high byte of its first word, its shared holders, and bytes further on. -/
def unit (mode nsh : Nat) (more : List (Nat × Byte)) : State :=
  { owned with mem := { Memory.reset with hbm := (if nsh = 0 then [] else [(0x50044, .ofNat 8 nsh)]) ++ (if mode = 0 then [] else [(0x50047, .ofNat 8 (mode * 64))]) ++ more } }

/-- A request of task 1 of plot 0 at that record. -/
def gateReq (op : GateOp) : GateReq := ⟨⟨0, 1, 9⟩, 0, 0x10040, 0x50040, op, 1⟩

/-- Its packet. -/
def gatePacket (op : GateOp) : Packet := ⟨.req, .plot 0, .base 8, 1, .gate (gateReq op)⟩

/-- Records that are free, shared, held by another and by the task, and pending for it; one that breaks its form; and memory of another partition. -/
theorem meets_AcquireAtUnit :
    (∀ e m n l, Claims.Arrives (sent (unit m n l) (gatePacket (.acq e))) 0 (gatePacket (.acq e)) (unit m n l)) ∧
    (∀ e, Claims.OwnRecord owned (gatePacket (.acq e)) (gateReq (.acq e)) ∧ ¬ Claims.OwnRecord s0 (gatePacket (.acq e)) (gateReq (.acq e))) ∧
    owned.detOf 1 = false ∧ (deterministic 0 false []).detOf 1 = true ∧ ((unit 0 0 [(0x50070, 1)]).gateRec 0x50040).bad = true ∧
    (∀ m ∈ [0, 1, 2], let r := (unit m (m % 2) []).gateRec 0x50040; r.bad = false ∧ r.waitq = 0 ∧ r.mode = m ∧ r.hpend = 0 ∧ r.nsh + 1 < 2 ^ 16 ∧
      r.xholder ≠ holderWord ⟨0, 1, 9⟩) ∧
    (∀ a ∈ [(0x5004C, 2), (0x50064, 2)], let r := (unit 2 0 [(a.1, (0x10 : Byte))]).gateRec 0x50040; r.bad = false ∧ Claims.Names r ⟨0, 1, 9⟩) ∧
    (unit 0 0 []).gateQ = [] ∧ 0 < Config.gateParks := by
  refine ⟨fun _ _ _ _ => arrives _ _ rfl, ?_, ?_⟩
  · unfold Claims.OwnRecord; decide +kernel
  · unfold Claims.Names; decide +kernel

/-- A handover whose target waits for the record. -/
theorem meets_ReleaseAndHandover :
    (∀ op m n l, Claims.Arrives (sent (unit m n l) (gatePacket op)) 0 (gatePacket op) (unit m n l)) ∧
    Claims.OwnRecord owned (gatePacket .rel) (gateReq .rel) ∧ ¬ Claims.OwnRecord s0 (gatePacket .rel) (gateReq .rel) ∧
    (∀ m ∈ [1, 2], let r := (unit m (m % 2) []).gateRec 0x50040; r.bad = false ∧ r.hpend = 0 ∧ r.mode = m ∧ r.bnd = false) ∧ (unit 2 0 []).gateQ = [] ∧
    ((unit 2 0 [(0x50060, 1)]).gateRec 0x50040).hpend ≠ 0 ∧ owned.detOf 1 = false ∧
    (plotOk ((0x1000000001 : Word).toNat % 2 ^ 36) = true ∧ (0x1000000001 : Word).toNat % 2 ^ 36 / 2 ^ 20 = s0.pkg) ∧ owned.bound = [] ∧ 0 < Config.regionTable ∧
    (let g : GateReq := ⟨⟨1, 1, 5⟩, 0, 0x10040, 0x50040, .acq true, 1⟩;
      holderWord g.who = 0x1000000001 ∧ g.target = 0x50040 ∧ 0 < ((unit 2 0 [(0x50058, 1)]).gateRec 0x50040).waitq ∧
      ((unit 2 0 [(0x50058, 1)]).gateRec 0x50040).bad = false) ∧
    (∀ s, s.net = [] → Claims.Arrives (sent s ⟨.sys, .plot 0, .base 8, 1, .handAns 0x50040 true 0 1⟩) 0 ⟨.sys, .plot 0, .base 8, 1, .handAns 0x50040 true 0 1⟩ s) ∧
    owned.owns 1 0x50040 = true ∧ s0.owns 1 0x50040 = false ∧ owned.net = [] ∧
    Claims.Arrives (sent s0 ⟨.sys, .base 8, .service 3, 1, .bindChange ⟨1, 0x50040, 0, 65536⟩ true 3 ⟨0, 1, 9⟩⟩) 0
      ⟨.sys, .base 8, .service 3, 1, .bindChange ⟨1, 0x50040, 0, 65536⟩ true 3 ⟨0, 1, 9⟩⟩ s0 :=
  ⟨fun _ _ _ _ => arrives _ _ rfl, by unfold Claims.OwnRecord; decide +kernel, by unfold Claims.OwnRecord; decide +kernel, by decide +kernel, rfl,
    by decide +kernel, by decide +kernel, by decide +kernel, by decide +kernel, by decide +kernel, by decide +kernel, fun s h => arrives s _ h,
    by decide +kernel, by decide +kernel, rfl, arrives s0 _ rfl⟩

theorem meets_GrantsArrive :
    (let s := onPlot Plot.reset { task with hold := some ⟨.acquire 0x10040 0x50040 true, 9, 0, [], 0, 0, []⟩ }; let m := toPlot .sys (.gateAns ⟨0, 1, 9⟩ (.words [0x50040, 0x10040, 1] 0));
      Claims.Arrives (sent s m) 0 m s ∧ Claims.AtPlot s m 0 ∧ Claims.Same s m 0 ∧ (s.plot 0).find 1 = some (.ctx 0) ∧
      (s.ctx 0 0).hold = some ⟨.acquire 0x10040 0x50040 true, 9, 0, [], 0, 0, []⟩ ∧ (s.ctx 0 0).gates = []) ∧ (s0.plot 0).find 2 = none ∧
    (let m := { toPlot .sys (.handGrant 0x10040 0x50040 0 1) with tenant := 2 }; Claims.Arrives (sent s0 m) 0 m s0 ∧ m.tenant ≠ 0 ∧ m.tenant ≠ (s0.plot 0).tenant) ∧
    (let m := toPlot .sys (.handGrant 0x10040 0x50040 0 1); Claims.Arrives (sent s0 m) 0 m s0 ∧ Claims.Same s0 m 0 ∧
      (∀ j, j < 4 → ((s0.plot 0).ctx j).live = true → ((s0.plot 0).ctx j).ended = false → (((s0.plot 0).ctx j).csr.taskid % 2 ^ 28 = 1 ↔ j = 0)) ∧
      ((s0.plot 0).ctx 0).live = true ∧ ((s0.plot 0).ctx 0).ended = false ∧ ((s0.plot 0).ctx 0).hold = none ∧ ((s0.plot 0).ctx 0).gates.length < 4) :=
  ⟨⟨arrives _ _ rfl, ⟨by decide, rfl⟩, .inr rfl, by decide +kernel, by decide +kernel, rfl⟩, by decide +kernel, ⟨arrives s0 _ rfl, by decide, by decide +kernel⟩,
    arrives s0 _ rfl, .inr rfl, by decide +kernel⟩

theorem meets_BarrierEvents :
    Claims.Arrives (sent s0 (toField (.barArrive ⟨0, 1, 9⟩ 0x1000))) 0 (toField (.barArrive ⟨0, 1, 9⟩ 0x1000)) s0 ∧ (s0.field 0).barriers = [] ∧
    (∀ n ∈ [1, 2], let s : State := { s0 with fields := [(0, { Field.reset with barriers := [⟨0x1000, n, 0, [⟨0, 1, 9⟩]⟩] })] };
      (s.field 0).barriers[0]? = some ⟨0x1000, n, 0, [⟨0, 1, 9⟩]⟩ ∧ ∃ b ∈ (s.field 0).barriers, b.rect = 0x1000) ∧ Claims.area 0x1000 = 2 ∧
    (∀ p ∈ rectPlots 0x1000, (furrow.plot (p % 2 ^ 20)).takes 1 = true) ∧ ¬ ∀ p ∈ rectPlots 0x1000, (s0.plot (p % 2 ^ 20)).takes 1 = true :=
  ⟨arrives s0 _ rfl, by decide +kernel⟩
/-! Events: the weirs. -/

/-- Pool 3 of tenant 1, with a bound of one element. -/
def pool3 : PoolCfg := ⟨true, 1, 1, 2, 4, 0⟩

/-- An element of a key and a time, with sequence number 0. -/
def elem (key time field : Nat) : Elem := ⟨key, 7, time, field, 0, false, false, 0⟩

/-- Field 0 with that pool, its shard, and takes. -/
def pooled (sh : Shard) (ts : List Take) : State :=
  { s0 with fields := [(0, { Field.reset with weir := { Weir.reset with cfgs := [(3, pool3)], shards := [(3, sh)], takes := ts } })] }

/-- A request of tenant 1 at field 0 of an operation on pool 3. -/
def atWeir (op : PoolOp) : Packet := ⟨.req, .plot 0, .service 0, 1, .pool ⟨0, 1, 9⟩ 3 op 0⟩

theorem atPool (op : PoolOp) (sh : Shard) (ts : List Take) : Claims.AtPool (sent (pooled sh ts) (atWeir op)) (pooled sh ts) 0 0 3 (atWeir op) :=
  ⟨arrives _ _ rfl, rfl, ⟨rfl, rfl⟩, rfl⟩

/-- A summary of field g that knows an element. -/
def knows (g : Nat) (e : Elem) : Summary := ⟨g, 1, 1, 1, [(e, 1)], 100, 0, 0, none, 1⟩

/-- A shard with elements of its own, and what a round says. -/
def shard (es : List Elem) (rs : List Summary) : Shard := { Shard.reset with elems := es, round := rs }

/-- A disabled pool, one of another partition, and known elements or none. -/
theorem meets_PoolRequestsChecked :
    (∀ op, Claims.Arrives (sent (pooled (shard [] []) []) (atWeir op)) 0 (atWeir op) (pooled (shard [] []) [])) ∧
    ((pooled (shard [] []) []).weir 0).cfg 3 = pool3 ∧ (s0.weir 0).cfg 3 = PoolCfg.reset ∧ pool3.owner ≠ 2 ∧
    (((pooled (shard [] []) []).weir 0).shard 3).known = [] ∧
    (let x := ((pooled (shard [] [knows 2 (elem 5 0 2)]) []).weir 0).shard 3; (elem 5 0 2, 2) ∈ x.known.map (fun y => (y.1, y.2.2)) ∧
      (elem 5 0 2 ∈ x.known.map (·.1) ∧ ∀ y ∈ x.known.map (·.1), y = elem 5 0 2) ∧ ∀ y ∈ x.known, y.1 = elem 5 0 2 → y.2.2 = 2) :=
  ⟨fun _ => arrives _ _ rfl, by decide +kernel⟩

/-- What another weir tells of the pool is of its partition, or not. -/
theorem ours (sh : Shard) (ts : List Take) (b : Msg) : Claims.Ours (pooled sh ts) 0 3 (toField b) ∧
    ¬ Claims.Ours (pooled sh ts) 0 3 { toField b with tenant := 2 } :=
  ⟨.inr rfl, by
    rintro (h | h)
    · exact absurd (show true = false from h) (by decide)
    · exact absurd (show (1 : Nat) = 2 from h) (by decide)⟩

/-- A put that does not precede Tround, one that does, one while a summary of its weir is under way, and a weir without room. -/
theorem meets_PoolPuts :
    (∀ sh, Claims.AtPool (sent (pooled sh []) (atWeir (.put 9 7))) (pooled sh []) 0 0 3 (atWeir (.put 9 7))) ∧
    (let x := (pooled { shard [] [] with incoming := [{ knows 2 (elem 5 0 2) with field := 0 }] } []).weir 0; 0 < x.free ∧ ∃ r ∈ (x.shard 3).incoming, r.field = 0) ∧
    (let x := (pooled (shard [] [knows 2 (elem 5 0 2)]) []).weir 0; 0 < x.free ∧ (x.shard 3).incoming = [] ∧ x.tround 3 = some (elem 5 0 2) ∧ x.takes = [] ∧
      lexLt [9, 0, 0, x.seq] [5, 0, 2, 0] = false ∧ lexLt [1, 0, 0, x.seq] [5, 0, 2, 0] = true) ∧
    ((pooled { Shard.reset with elems := List.replicate Config.weirEntries (elem 1 0 0) } []).weir 0).free = 0 ∧
    (∀ b ∈ [WeirMsg.redirect 3 9 7 ⟨0, 1, 9⟩ 1 [2], .announce 3 (elem 5 0 2) 2 4, .announceAck 3 4], Claims.Arrives (sent s0 (toField (.weir b))) 0 (toField (.weir b)) s0) ∧
    (∀ n ∈ [1, 2], let p : PendingPut := ⟨4, 3, some ⟨0, 1, 9⟩, elem 1 0 0, 0, n⟩; [p].find? (fun p => p.id == 4 && p.pool == 3) = some p) :=
  ⟨fun sh => atPool _ sh [], by decide +kernel, by decide +kernel, by decide +kernel, fun _ _ => arrives s0 _ rfl, by decide +kernel⟩

/-- A state with a take that has just joined a weir. -/
def joined (t : State) (n : Bool) : State :=
  (t.modWeir 0 fun x => { x with takes := [Take.fresh ⟨0, 1, 9⟩ 3 n 0] }).markOverdue 0 3

/-- An element to serve, an overdue one, one of another weir, and none. -/
theorem meets_PoolTakes :
    (∀ n sh, Claims.AtPool (sent (pooled sh []) (atWeir (.take n))) (pooled sh []) 0 0 3 (atWeir (.take n))) ∧
    (let x := (joined (pooled (shard [elem 4 0 0] []) []) true).weir 0;
      Claims.NoneOverdue x 3 ∧ Claims.Least (x.shard 3).elems (elem 4 0 0) ∧ upTo (elem 4 0 0) (x.tserve 3) = true) ∧
    (let x := (joined { pooled (shard [elem 4 0 0] []) [] with cycle := 5000 } true).weir 0; let e := { elem 4 0 0 with ovd := true };
      (x.shard 3).elems = [e] ∧ e.ovd = true ∧ (x.shard 3).round = []) ∧
    (let x := (joined (pooled (shard [] [knows 2 (elem 5 0 2)]) []) false).weir 0; Claims.NoneOverdue x 3 ∧ (x.shard 3).elems = [] ∧
      (elem 5 0 2, 1, 2) ∈ (x.shard 3).known ∧ (∀ y ∈ (x.shard 3).known, y.1 = elem 5 0 2 → y.2.2 = 2) ∧
      Claims.Least ((x.shard 3).known.map (·.1)) (elem 5 0 2)) ∧
    (let x := (joined (pooled (shard [] []) []) false).weir 0; Claims.NoneOverdue x 3 ∧ (x.shard 3).elems = [] ∧ (x.shard 3).known = []) := by
  refine ⟨fun n sh => atPool _ sh [], ?_, by decide +kernel, ?_, ?_⟩ <;> (unfold Claims.NoneOverdue; try unfold Claims.Least) <;> decide +kernel

theorem meets_PoolUpkeep :
    (∀ b : Msg, Claims.Arrives (sent (pooled (shard [] []) []) (toField b)) 0 (toField b) (pooled (shard [] []) []) ∧
      Claims.Ours (pooled (shard [] []) []) 0 3 (toField b) ∧ ¬ Claims.Ours (pooled (shard [] []) []) 0 3 { toField b with tenant := 2 }) ∧
    ((s0.weir 0).cfg 3).en = false ∧
    (bitw 0x8000000000040000 63 = true ∧ bitw 0x40000 63 = false) ∧ ((pooled (shard [] []) []).weir 0).cfg 3 = pool3 ∧
    (let s : State := { pooled (shard [] []) [] with cycle := 128 }; pool3.per ≠ 0 ∧ s.now % (pool3.per * 16) = 0 ∧ ((s.weir 0).shard 3).incoming = [] ∧
      ((s.weir 0).shard 3).round = [] ∧ ((s.weir 0).shard 3).nextCfg = none ∧ (s.weir 0).takes = []) ∧ ({ s0 with cycle := 5 } : State).now % (4 * 16) ≠ 0 :=
  ⟨fun b => ⟨arrives _ _ rfl, ours _ _ b⟩, by decide +kernel⟩

/-- A take with answers of a collect. -/
def collected (n : Bool) (phase k : Nat) : Take :=
  let l := (List.range 15).map fun g => (g, 1, 1, 0)
  ⟨⟨0, 1, 9⟩, 3, n, false, false, false, false, 0, if phase = 1 then l.take k else l ++ [(15, 0, 0, 0)], if phase = 1 then [] else l.take k, phase⟩

theorem meets_PoolPullsAndCollects :
    (∀ b sh ts, Claims.Arrives (sent (pooled sh ts) (toField b)) 0 (toField b) (pooled sh ts) ∧ Claims.Ours (pooled sh ts) 0 3 (toField b)) ∧
    (let x := ((pooled (shard [elem 4 0 0] []) []).markOverdue 0 3).weir 0;
      Claims.Least (x.shard 3).elems (elem 4 0 0) ∧ upTo (elem 4 0 0) (x.tserve 3) = true) ∧
    ((({ pooled (shard [elem 4 0 0] []) [] with cycle := 5000 } : State).markOverdue 0 3 |>.weir 0).shard 3).elems = [{ elem 4 0 0 with ovd := true }] ∧
    (∀ n phase k, [collected n phase k].find? (fun t => t.who == ⟨0, 1, 9⟩ && t.pool == 3) = some (collected n phase k) ∧
      (∃ y ∈ [collected n phase k], y.who = ⟨0, 1, 9⟩ ∧ y.pool = 3) ∧ ∀ y ∈ [collected n phase k], y.queued = false) ∧
    ((elem 4 0 0).inc = pool3.inc ∧ { elem 4 0 0 with inc := 1 }.inc ≠ pool3.inc) ∧
    ((collected true 1 3).collecting = 1 ∧ (collected true 1 3).first.length < 15) ∧ (collected true 1 15).first.length = 15 ∧
    (∀ n ∈ [false, true], let y := collected n 2 15; y.collecting = 2 ∧ y.second.length = 15 ∧ y.n = n ∧
      ({ y with second := y.second ++ [(15, 0, 0, 0)] } : Take).agreed = true ∧
      ({ y with second := y.second ++ [(15, 1, 0, 0)] } : Take).agreed = false) ∧
    ((collected true 2 3).second.length < 15) ∧
    (∀ n ∈ [0, 5000], let s : State := { pooled (shard [elem 4 0 0] []) [] with cycle := .ofNat 64 n }; ((s.weir 0).shard 3).elems[0]? = some (elem 4 0 0) ∧
      pool3.age ≠ 0 ∧ s.poolTime 1 = n) ∧ (0 + pool3.age * 1024 < 5000) := by
  refine ⟨fun b sh ts => ⟨arrives _ _ rfl, (ours sh ts b).1⟩, ?_, by decide +kernel,
    fun n phase k => ⟨rfl, ⟨_, List.mem_singleton.mpr rfl, rfl, rfl⟩, fun y h => by rw [List.mem_singleton.mp h]; rfl⟩, by decide +kernel, by decide +kernel,
    by decide +kernel, by decide +kernel, by decide +kernel, by decide +kernel⟩
  unfold Claims.Least
  decide +kernel

/-! Events: flumes and sluices. -/

/-- A copy of 100 bytes from A of plot 1 to W of plot 0. -/
def command : CopyCmd := ⟨⟨0, 1, 9⟩, 0, .scratch 1 0 0, .scratch 0 1 0, 100, false, false, none, 0, none, 1, none⟩

/-- Plots 0 and 1 of tenant 1, and flume 3. -/
def flowing (fl : Flume) : State := { furrow with flumes := [(3, fl)] }

/-- Its packet to flume 3. -/
def toFlume (c : CopyCmd) : Packet := ⟨.req, .plot 0, .base 1, 1, .copy c 3⟩

/-- A range of a page of HBM, of a peer or of HOST. -/
def inPage (ty : Nat) : Loc := .pages 0x10000 [page ty]

/-- The package with a word of HBM that cannot be corrected. -/
def broken : State := { flowing ⟨[], [], none⟩ with mem := { Memory.reset with bad := [(0x50000 / 8, true)] } }

/-- With a connection to package 3, or a route to it. -/
def reaching (b : Bool) : State := { flowing ⟨[], [], none⟩ with link := { Link.reset with
  routes := [(3, 1)], conns := if b then [⟨3, 1, 1, 1, 7, 8, [], [], 0, [], 65536, 15000, 0, 0, 0, false, 0, 0, 0⟩] else [] } }

/-- A flume with room, one without; buffers of another partition as source, destination and guard; guards of each kind, one of which cannot be
read; destinations in HOST and elsewhere; a peer with a connection and without; no byte, with a signal and without; and CE. -/
theorem meets_FlumeAccepts :
    (∀ c, Claims.Arrives (sent (flowing ⟨[], [], none⟩) (toFlume c)) 0 (toFlume c) (flowing ⟨[], [], none⟩)) ∧
    (64 ≤ ((flowing ⟨[], List.replicate 64 ⟨command, 100, 0, [], [], [], 0, false⟩, none⟩).flume 3).copies.length) ∧
    (let x := (flowing ⟨[], [], none⟩).flume 3; x.copies.length < 64 ∧ x.waiting = []) ∧
    ((flowing ⟨[], [], none⟩).foreign command.src 1 = false ∧ (flowing ⟨[], [], none⟩).foreign command.dst 1 = false ∧ command.len ≠ 0 ∧ command.ce = false) ∧
    (flowing ⟨[], [], none⟩).foreign (.scratch 5 0 0) 1 = true ∧
    (Claims.GuardIs broken none (some none) ∧ Claims.GuardIs broken (some (.scratch 1 0 8)) (some (some 0)) ∧
      Claims.GuardIs broken (some (.pages 0x10008 [page 0])) (some (some 0)) ∧ Claims.GuardIs broken (some (.pages 0x10000 [page 0])) none) ∧
    (min 100 (0 * 16) = 0 ∧ ({ command with signal := some (0, inPage 1, 7) } : CopyCmd).signal ≠ none) ∧
    (Claims.CopyTime { command with dst := inPage 2 } 3000 ∧ Claims.CopyTime { command with dst := inPage 1 } 300 ∧ Claims.CopyTime command 300) ∧
    (Claims.CopyTrip (reaching true) command 0 ∧ Claims.CopyTrip (reaching true) { command with kind := 1, peer := some 3 } 30000 ∧
      Claims.CopyTrip (reaching false) { command with kind := 2, peer := some 3 } 30000) ∧
    (1 < 3 ∧ 0x1000 + 100 ≤ 2 ^ 16) ∧ Claims.InPage (inPage 0) 0 100 0x10000 (page 0) ∧ s0.checked = [] ∧
    (let a := access 1 16 (.store [(0, 5)]); let s := sent (accepted s0 a.who (.plot 0)) (toPlot .req (.acc a));
      s.checked.filter (fun e => e.2 == .plot 0) = [(a.who, .plot 0)] ∧ s.net[0]? = some (toPlot .req (.acc a))) := by
  refine ⟨fun c => arrives _ _ rfl, by decide +kernel, by decide +kernel, by decide +kernel, by decide +kernel, ⟨rfl, ?_, ?_, ?_⟩, by decide +kernel, ⟨?_, ?_, ?_⟩,
    ⟨.inl ⟨.inl rfl, rfl⟩, .inr ⟨by decide, 3, rfl, .inl ⟨_, rfl, rfl⟩⟩, .inr ⟨by decide, 3, rfl, .inr ⟨1, rfl, rfl, rfl⟩⟩⟩, by decide, ?_, rfl, by decide +kernel⟩
  · exact ⟨rfl, by decide +kernel⟩
  · exact ⟨page 0, rfl, rfl, by decide, by decide, by decide +kernel⟩
  · exact ⟨page 0, rfl, rfl, by decide, by decide, by decide +kernel⟩
  · exact .inl ⟨⟨_, _, _, rfl, rfl⟩, rfl⟩
  · refine .inr ⟨fun va e es h => ?_, rfl⟩
    cases h
    decide
  · exact .inr ⟨fun va e es h => (nomatch h), rfl⟩
  · unfold Claims.InPage
    decide +kernel

/-- A copy of so many bytes that has written some and read others. -/
def moving (c : CopyCmd) (len pos read : Nat) : CopyRun := ⟨c, len, pos, List.replicate (read - pos) 5, [], [], 0, false⟩

/-- A copy of 100 bytes that has written some bytes and read others, of which packets are unacknowledged. -/
def running (pos read : Nat) (n : Nat) : CopyRun := { moving command 100 pos read with acks := n, signalled := n ≠ 0 }

/-- A copy behind another whose turn it is; copies that meet no other's bytes; and the last sector at a peer. -/
theorem meets_CopyTurns :
    (let q := { running 0 0 0 with cmd := { command with who := ⟨0, 1, 10⟩, dst := .scratch 0 1 0x1000 } }; let s := flowing ⟨[], [running 0 0 0, q], some (⟨0, 1, 10⟩, 64)⟩;
      ((s.flume 3).copies.take 4)[1]? = some q ∧ (∀ x ∈ (s.flume 3).copies.take 1, x.cmd.who ≠ q.cmd.who) ∧
      (s.flume 3).turn = some (q.cmd.who, 64) ∧ s.canMove 3 (((s.flume 3).copies.take 4).take 1) q = true ∧ s.mover 3 ≠ some 0 ∧ s.net = [] ∧ q.pos < q.len) ∧
    ((∃ sp sb so dp db o, (running 0 0 0).cmd.src = .scratch sp sb so ∧ (running 0 0 0).cmd.dst = .scratch dp db o) ∧ (running 0 0 0).cmd.kind = 0 ∧
      0 < (running 0 0 0).len) ∧
    (let r := { moving { command with kind := 1, dst := inPage 1 } 100 64 100 with acks := 1 }; r.writeTo = some 100 ∧ r.lastFrom < 100 ∧ r.acks ≠ 0 ∧
      Claims.InPage r.cmd.dst (page 1).ty r.len 0x10000 (page 1) ∧ r.lastFrom ≤ 64 ∧ ¬ r.lastFrom ≤ 63) := by
  unfold Claims.InPage
  exact ⟨by decide +kernel, ⟨⟨_, _, _, _, _, _, rfl, rfl⟩, rfl, by decide⟩, by decide +kernel⟩

/-- A read from a buffer, from HBM, sound or not, and from a peer; a write to a buffer, to HBM and to a peer; a peer's answer; and the end, with a
signal, with it sent, and without. -/
theorem meets_CopyMoves :
    (∀ x ∈ [(command, 0, 0, (none : Option Nat)), ({ command with src := inPage 0 }, 0, 0, none), ({ command with kind := 2, src := inPage 1, dst := inPage 0 }, 0, 0, none),
        (command, 0, 64, some 64), (command, 64, 100, some 100), ({ command with dst := inPage 0 }, 0, 64, some 64),
        ({ command with kind := 1, dst := inPage 1 }, 0, 64, some 64)],
      let r := moving x.1 100 x.2.1 x.2.2.1; r.writeTo = x.2.2.2 ∧ Claims.Turn1 (flowing ⟨[], [r], none⟩) 3 0 r) ∧
    (∀ ty ∈ [0, 1], Claims.InPage (inPage ty) ty 100 0x10000 (page ty)) ∧
    ((broken.plot (1 % 2 ^ 20)).bufs.errs = [] ∧ (1, 0) ≠ (0, 1) ∧ 1 < 3 ∧ broken.hbmBad ((page 0).target_ 0x10000) = true ∧ s0.hbmBad ((page 0).target_ 0x10000) = false) ∧
    (let r := { moving { command with kind := 2, src := inPage 1, dst := inPage 0 } 100 0 0 with asked := [3] };
      ∀ a ∈ [none, some (List.replicate 64 (7 : Byte))], let s := sent (flowing ⟨[], [r], none⟩) ⟨.chi, .peer 3, .peer s0.pkg, 1, .copyIn 3 r.cmd.who 0 a⟩;
      ((s.flume 3).copies.take 4)[0]? = some r ∧ s.mover 3 = some 0 ∧ (page 1).pkg = 3 ∧ r.readTo - r.read = 64) ∧
    (let r := running 100 100 0; ((flowing ⟨[], [r], none⟩).flume 3).copies.find? (fun y => y.cmd.who == r.cmd.who) = some r ∧ r.len ≤ r.pos ∧ r.acks = 0 ∧
      r.cmd.signal = none ∧ ((flowing ⟨[], [r], none⟩).flume 3).waiting = []) ∧
    (∀ b ∈ [false, true], let r := { moving { command with kind := 1, dst := inPage 1, signal := some (0, inPage 1, 7) } 100 100 100 with signalled := b };
      ((flowing ⟨[], [r], none⟩).flume 3).copies.find? (fun y => y.cmd.who == r.cmd.who) = some r ∧ r.signalled = b ∧ r.len ≤ r.pos) ∧
    Claims.InPage (inPage 1) 1 8 0x10000 (page 1) ∧ (moving command 100 64 100).read ≤ 100 := by
  unfold Claims.InPage Claims.Turn1
  decide +kernel

/-- A peer's packet at this package. -/
def fromPeer (b : Msg) : Packet := ⟨.req, .peer 3, .peer 0, 1, b⟩

theorem meets_PeerPieces :
    (∀ b, Claims.Arrives (sent owned (fromPeer b)) 0 (fromPeer b) owned) ∧ (∀ a ∈ [128, 191], owned.owns 1 a = true) ∧ s0.owns 1 128 = false ∧
    (sent owned (fromPeer (.copyAsk 3 ⟨0, 1, 9⟩ 0 [128]))).peerTurn 0 (fromPeer (.copyAsk 3 ⟨0, 1, 9⟩ 0 [128])) = true ∧
    (let s : State := { owned with net := [fromPeer (.acc (access 5 128 (.load 8))), fromPeer (.copyAsk 3 ⟨0, 1, 9⟩ 0 [128])] };
      s.peerTurn 1 (fromPeer (.copyAsk 3 ⟨0, 1, 9⟩ 0 [128])) = false) ∧
    broken.hbmBad 0x50000 = true ∧ owned.hbmBad 128 = false :=
  ⟨fun b => arrives _ _ rfl, by decide +kernel, by decide +kernel, by decide +kernel, by decide +kernel, by decide +kernel, by decide +kernel⟩

theorem meets_CopyEnds :
    (∀ b, Claims.Arrives (sent s0 (toPlot .rsp (.copyDone ⟨0, 1, 9⟩ b))) 0 (toPlot .rsp (.copyDone ⟨0, 1, 9⟩ b)) s0 ∧ Claims.AtPlot s0 (toPlot .rsp (.copyDone ⟨0, 1, 9⟩ b)) 0 ∧
      Claims.Same s0 (toPlot .rsp (.copyDone ⟨0, 1, 9⟩ b)) 0) ∧ (s0.plot 0).outbox = [] ∧ (s0.plot 0).find 1 = some (.ctx 0) ∧
    (∀ a ∈ [0, 2], let r : CopyRun := { running 100 100 a with signalled := true }; ((flowing ⟨[], [r], none⟩).flume 3).copies.find? (fun r => r.cmd.who == ⟨0, 1, 9⟩) = some r ∧
      r.signalled = true ∧ r.acks = a) ∧
    (∀ b, Claims.Arrives (sent s0 (fromPeer b)) 0 (fromPeer b) s0) ∧ (s0.flume 3).copies = [] ∧
    (let s : State := onPlot Plot.reset { task with copies := [⟨9, 0, false, 0, false, false, 0, 0⟩, ⟨10, 1, false, 5, false, false, 0, 0⟩, ⟨11, 2, false, 0, true, false, 0, 0⟩,
        ⟨12, 3, true, 0, false, true, 0, 0⟩] };
      (s.ctx 0 0).copies[0]? = some ⟨9, 0, false, 0, false, false, 0, 0⟩ ∧ 0 ≤ s.now ∧ (s.ctx 0 0).copies[1]? = some ⟨10, 1, false, 5, false, false, 0, 0⟩ ∧ s.now < 5 ∧
      (s.ctx 0 0).copies[2]? = some ⟨11, 2, false, 0, true, false, 0, 0⟩ ∧ (s.ctx 0 0).copies[3]? = some ⟨12, 3, true, 0, false, true, 0, 0⟩ ∧ s.net = []) ∧
    (let m := fromPeer (.putsSignal 3 ⟨0, 1, 9⟩ 0 128 1);
      Claims.Arrives (sent owned m) 0 m owned ∧ (sent owned m).peerTurn 0 m = true ∧ owned.owns 1 128 = true ∧ s0.owns 1 128 = false ∧
      (({ owned with net := [fromPeer (.acc (access 5 128 (.load 8))), m] } : State).peerTurn 1 m = false) ∧
      (0, fun o a _ => o + a) ∈ Claims.amoTable ∧ Sparse.get false owned.mem.gate (128 / 64) = false) :=
  ⟨fun _ => ⟨arrives s0 _ rfl, atPlot _ _, .inr rfl⟩, by decide +kernel, by decide +kernel, by decide +kernel, fun _ => arrives s0 _ rfl, rfl, by decide +kernel,
    arrives _ _ rfl, by decide +kernel, by decide +kernel, by decide +kernel, by decide +kernel, by simp [Claims.amoTable], by decide +kernel⟩

/-- A request of plot 0, with a control word and a length, from A to W of the plot. -/
def collReq (ctl : Word) (len : Nat) : CollReq := ⟨⟨0, 1, 9⟩, ctl, 0, .scratch 0 0 0, .scratch 0 1 0, len, 1⟩

/-- Communicator 2 of this package alone, whose member is plot 0. -/
def comm2 : Comm := { Comm.reset with en := true, members := [0], locals := [0], tenant := 1, vch := 16 }

/-- With it, and instances. -/
def communicates (c : Comm) (is : List Inst) : State := { s0 with comms := [(2, c)], insts := is }

/-- Its instance of sequence number 0 of an operation over 64 bytes, with steps to take or complete. -/
def instanceOf (op : Nat) (todo : List (Nat × Nat × Nat)) (st : Nat) : Inst :=
  ⟨2, 0, .ofNat 64 (2 + op * 256), [collReq (.ofNat 64 (2 + op * 256)) (if op = 0 then 0 else 64)], todo, 0, st, 0, [], 0, [], []⟩

/-- Of a barrier, running or complete. -/
def instance0 (st : Nat) : Inst := instanceOf 0 (if st = 0 then [(0, 0, 0)] else []) st

/-- A packet for sluice 0. -/
def toHead (b : Msg) : Packet := ⟨.req, .plot 0, .head 0, 1, b⟩

/-- A chunk of an instance on channel 16. -/
def chunkOf (seq kind blk n : Nat) : Chunk := ⟨16, 1, seq, 2, 64, 0, false, kind, blk, 0, List.replicate n 5, 0, 0, 0⟩

theorem meets_Collectives :
    (∀ b s, s.net = [] → Claims.Arrives (sent s (toHead b)) 0 (toHead b) s) ∧
    (let c := (communicates comm2 []).comm 2; c.en = true ∧ c.tenant = 1 ∧ c.tenant ≠ 2 ∧ 0 ∈ c.locals ∧ 5 ∉ c.locals ∧ 0 < c.npk + 1 ∧ c.brk = false ∧ (s0.comm 2).en = false) ∧
    (∀ n ∈ [0x10, 0x11, 1], { comm2 with brk := true, bcause := n }.brk = true ∧ { comm2 with brk := true, bcause := n }.bcause = n) ∧
    (s0.foreign (collReq 2 0).src 1 = false ∧ s0.foreign (collReq 2 0).dst 1 = false ∧ s0.foreign (.scratch 5 0 0) 1 = true) ∧
    { comm2 with reqs := [collReq 2 0] }.ready = some [collReq 2 0] ∧ comm2.staged = [] ∧ (collReq 2 0).who.plot / 2 ^ 20 = s0.pkg ∧
    (let c := { comm2 with locals := [0, 1], reqs := [collReq 2 0, { collReq 0x102 0 with who := ⟨1, 1, 9⟩ }] };
      c.ready = some [collReq 2 0, { collReq 0x102 0 with who := ⟨1, 1, 9⟩ }] ∧ (0x102 : Word) ≠ 2) ∧
    (Claims.Signed (chunkOf 0 0 0 64) (instanceOf 2 [] 0) ∧ ¬ Claims.Signed (chunkOf 0 0 0 64) (instanceOf 1 [] 0)) ∧
    (∀ st ∈ [0, 1, 2], (communicates comm2 [instance0 st]).insts.find? (fun i => i.comm == 2 && i.seq == 2 / 2 ^ 16 % 2 ^ 16) = some (instance0 st) ∧ (instance0 st).status = st) ∧
    ((2 : Nat) / 256 % 256 = 0 ∧ (2 : Nat) / 2 ^ 32 = 0) ∧
    (let r := { collReq 0x102 0 with who := ⟨1, 1, 9⟩, tval := 0x10000 }; let c := { comm2 with locals := [0, 1] };
      ¬ (r.tval = 0 ∨ r.ctl.toNat / 2 ^ 8 % 2 ^ 4 ≠ 1 ∨ (c.rank = 0 ∧ c.locals.head? = some r.who.plot))) ∧
    (Claims.ToWrite comm2 (instanceOf 2 [] 0) (2, 0, 0) ∧ Claims.ToWrite comm2 (instanceOf 2 [] 0) (0, 0, 0) ∧ ¬ Claims.ToWrite comm2 (instanceOf 2 [] 0) (0, 1, 0)) ∧
    (communicates comm2 [instance0 1]).insts.find? (fun i => i.comm == 2 && i.status == 0) = none ∧
    (communicates comm2 [instance0 0]).insts.find? (fun i => i.comm == 2 && i.status == 0) = some (instance0 0) := by
  refine ⟨fun b s h => arrives s _ h, by decide +kernel, by decide +kernel, by decide +kernel, by decide +kernel, by decide +kernel, by decide +kernel, by decide +kernel,
    ⟨⟨by decide, by decide, by decide, _, _, rfl, by decide⟩, fun h => absurd h.1 (by decide)⟩, by decide +kernel, by decide, by decide +kernel, ?_, by decide +kernel,
    by decide +kernel⟩
  unfold Claims.ToWrite
  decide +kernel

/-- No communicator has the channel of a notice; and requests of two contexts of one plot and of another plot wait when one breaks. -/
theorem meets_NoticesAstray : (∀ y, y < 256 → ¬ ((s0.comm y).en = true ∧ (s0.comm y).tenant = 1 ∧ (s0.comm y).vch = 16)) ∧
    (let r := collReq 2 0; let q := { r with who := ⟨1, 1, 9⟩ }; let before := [r, q]; let c := { comm2 with reqs := before ++ r :: [] };
      c.brk = false ∧ r.who.plot / 2 ^ 20 = s0.pkg ∧ (before.filter fun q => q.who.plot == r.who.plot).length = 1) := by decide +kernel

/-- The chunk of a later instance goes to the communicator of its channel, and to no other. -/
theorem meets_ChunkArrives : ∀ y, y < 256 →
    (((communicates comm2 []).comm y).en = true ∧ ((communicates comm2 []).comm y).tenant = 1 ∧ ((communicates comm2 []).comm y).vch = 16 ↔ y = 2) := by
  decide +kernel

/-- A communicator of this package and package 3, with a chunk staged. -/
def two (staged : List Chunk) : Comm := { comm2 with npk := 1, members := [0, 3], staged := staged }

/-- Its sluice, with a chunk in progress. -/
def serving (staged : List Chunk) (todo : List (Nat × Nat × Nat)) (k : Option Taken) : State :=
  { communicates (two staged) [instanceOf 2 todo 0] with sluices := [(0, ⟨some 5, none, [], k⟩)] }

/-- A step that is ready, of the bulk communicator whose turn it is, of an urgent one, and behind an urgent one; a step that starts from the member's
bytes, one that merges a staged chunk and one that passes it on; a chunk in progress that is sent, and ones that are written. -/
theorem meets_ChunksMove :
    (let s : State := { communicates comm2 [instance0 0] with sluices := [(0, ⟨some 5, none, [], none⟩)] };
      s.steps[0]? = some (instance0 0, (0, 0, 0)) ∧ (s.sluice 0).taken = none ∧
      comm2.urg = false ∧ s.urgent 0 = false ∧ (instance0 0).ready comm2 (0, 0, 0) = true ∧ (s.sluice 0).bulk = some 5 ∧ s.nextBulk 0 = some 2) ∧
    (let u := { comm2 with urg := true, vch := 17 };
      let s : State := { s0 with comms := [(2, comm2), (3, u)], insts := [instance0 0, { instance0 0 with comm := 3 }] };
      s.urgent 0 = true ∧ { instance0 0 with comm := 3 }.ready u (0, 0, 0) = true) ∧
    (instanceOf 2 [] 0).ready (two []) (0, 0, 0) = false ∧
    (∀ n ∈ [2, 3, 32768], let d := (n + 2 ^ 16 - comm2.seq) % 2 ^ 16; d = n ∧ (d < 3 ∨ (3 ≤ d ∧ d < 32768) ∨ 32768 ≤ d)) ∧
    (Claims.TakesUp (serving [] [(0, 1, 0)] none) 0 (instanceOf 2 [(0, 1, 0)] 0) (0, 1, 0) ∧ (instanceOf 2 [(0, 1, 0)] 0).needs (two []) (0, 1, 0) = false) ∧
    (∀ q ∈ [(0, 0), (1, 1)], let k := chunkOf 0 q.1 q.2 64; let i := instanceOf 2 [(q.1, q.2, 0)] 0;
      Claims.TakesUp (serving [k] [(q.1, q.2, 0)] none) 0 i (q.1, q.2, 0) ∧ i.needs (two [k]) (q.1, q.2, 0) = true ∧
      (two [k]).staged.find? (i.wants (two [k]) (q.1, q.2, 0)) = some k) ∧
    (∀ q ∈ [(0, 1), (0, 0), (1, 1)], let k : Taken := ⟨2, 0, (q.1, q.2, 0), List.replicate 64 5, 0, 0⟩; let i := instanceOf 2 [(q.1, q.2, 0)] 0;
      Claims.InProgress (serving [] [(q.1, q.2, 0)] (some k)) 0 i k ∧ i.ahead = [] ∧ i.held = [] ∧ i.todo.erase k.step = [] ∧
      ((two []).rank ≠ q.2 ↔ q.2 = 1)) ∧
    (Claims.Settled (serving [] [] none) (collReq 2 64).src 0 0 0 ∧ Claims.Settled (serving [] [] none) (collReq 2 64).dst 0 1 0) := by
  unfold Claims.TakesUp Claims.InProgress Claims.Settled
  exact ⟨by decide +kernel, by decide +kernel, by decide +kernel, by decide +kernel, by decide +kernel, by decide +kernel, by decide +kernel, by decide +kernel⟩

/-! Events: Lintil. -/

/-- An open connection with package 5 over port 1. -/
def conn : Conn := ⟨5, 1, 1, 1, 7, 8, [], [], 0, [], 65536, 15000, 0, 0, 0, false, 0, 0, 0⟩

/-- A frame of it. -/
def frame (kind seq : Nat) (b : Option Packet) : Frame := ⟨kind, 5, 0, 1, 7, 0, seq, 0, 0, 0, 0, 0, 0, b, false⟩

/-- With the connection and a frame received. -/
def linked (x : Conn) (f : Frame) : State := { s0 with link := { Link.reset with conns := [x], rx := [f], routes := [(6, 2)] } }

/-- In order, behind, and ahead, with room to keep it or without: how many are kept is free. -/
theorem meets_LintilFrames :
    (∀ kind ∈ [0, 1, 2, 4, 5], let f := frame kind 0 (some (toPlot .inv (.raw [] 0 0))); let s := linked conn f;
      s.link.rx[0]? = some f ∧ f.pause = false ∧ f.kind = kind ∧ s.connOf f = some (conn, 0)) ∧ conn.spilled = false ∧
    (∀ n ∈ [0, 0xFFFFFFFF, 3], let f := frame 0 n (some (toPlot .inv (.raw [] 0 0))); let s := linked conn f;
      let t : State := { s with link := { s.link with rx := s.link.rx.eraseIdx 0 } };
      ((t.ackPart 0 f).link.conns[0]?).map (fun y => (y.chan 0).recvSeq) = some 0 ∧ ((t.ackPart 0 f).link.conns[0]?).map (fun y => (y.chan 0).kept) = some []) ∧
    (seqBefore 0xFFFFFFFF 0 = true ∧ seqBefore 3 0 = false ∧ ((0 + 1) % 2 ^ 32 + 2 ^ 32 - 0) % 2 ^ 32 < 8) ∧
    ((0 < keptFrames → ([] : List (Nat × Packet)).length < keptFrames) ∧ keptFrames ≤ (List.replicate keptFrames (0, toPlot .inv (.raw [] 0 0))).length) ∧
    (let f := { frame 3 9 none with spkg := 6 }; let s := linked conn f; s.link.rx[0]? = some f ∧ f.pause = false ∧ f.kind = 3 ∧
      (∀ c ∈ s.link.conns, ¬ (c.peer = f.spkg ∧ c.tenant = f.ten ∧ c.state ≤ 1)) ∧ s.link.routes.find? (fun r => r.1 == f.spkg) = some (6, 2) ∧
      s.link.conns.length < 2048) ∧
    (let f := { frame 3 9 none with spkg := 4 }; ∀ r ∈ (linked conn f).link.routes, r.1 ≠ f.spkg) ∧
    ({ frame 3 9 none with pause := true }.pause = true ∧ 5 < (frame 6 0 none).kind) :=
  ⟨by decide +kernel, by decide +kernel, by decide +kernel, by decide +kernel, ⟨fun h => h, by simp⟩, by decide +kernel, by decide +kernel, by decide⟩

/-- Packets of the own partition and of another, for a plot, an object's home, a peer's access and its copy; and what comes by a frame. -/
theorem meets_PortTake : (∀ m ∈ [toPlot .inv (.raw [] 0 0), toPlot .sys (.dirMap 0x1000 0x2000 ⟨2 ^ 20, 1, 9⟩)],
      s0.foreignTo (Claims.received s0.pkg 1 m) = false ∧ s0.foreignTo (Claims.received s0.pkg 2 m) = true ∧ s0.foreignTo (Claims.received s0.pkg 0 m) = false) ∧
    (∀ b ∈ [.acc (access 5 128 (.load 8)), .gate ⟨⟨2 ^ 20, 1, 9⟩, 0, 128, 128, .rel, 1⟩, Msg.copyOut 3 ⟨2 ^ 20, 1, 9⟩ [(128, 5)] []], let m := fromPeer b; m.dst = .peer 0 ∧
      owned.foreignTo m = false ∧ s0.foreignTo m = true) := by decide +kernel

/-- An open for a spilled connection, the eighth frame that is not acknowledged, a frame for no connection, and one for a spilled connection. -/
theorem meets_FramesOwed :
    (let f := { frame 3 9 none with spkg := conn.peer, ten := conn.tenant }; let s := linked { conn with spilled := true } f; s.link.rx[0]? = some f ∧ f.pause = false ∧
      f.kind = 3 ∧ ∃ x ∈ s.link.conns, x.peer = f.spkg ∧ x.tenant = f.ten ∧ x.state ≤ 1 ∧ x.spilled = true) ∧
    8 ≤ ((7 + 1) % 2 ^ 32 + 2 ^ 32 - 0) % 2 ^ 32 ∧
    (let f := { frame 1 0 none with conn := 9 }; let s := linked conn f; s.link.rx[0]? = some f ∧ s.connOf f = none) ∧
    (let f := frame 1 0 none; let x := { conn with spilled := true }; let s := linked x f; s.link.rx[0]? = some f ∧ s.connOf f = some (x, 0)) := by decide +kernel

/-- A headworks whose cache is full, with a host area. -/
def crowded : State := { s0 with link := { Link.reset with conns := List.replicate 2048 conn, spillArea := some (0, 0x10000) } }

/-- Connections that are open, closed and spilled, with and without a write under way; an open frame and a data frame that time out; and room made. -/
theorem meets_LintilTimers :
    (∀ x ∈ [conn, { conn with state := 2 }, { conn with state := 0 }, { conn with spilled := true }], (linked x (frame 0 0 none)).link.conns[0]? = some x) ∧ conn.state = 1 ∧
    (∀ n ∈ [0, 15], let x := { conn with chans := [(0, ⟨1, 0, 0, 0, [], [(0, toPlot .inv (.raw [] 0 0), 0)]⟩)], timeouts := n };
      x.oldest = some 0 ∧ { x with state := 0 }.asking = 0 ∧
      (s0.now < 0 + 8 * s0.target x) ∧ 0 + 8 * s0.target x ≤ ({ s0 with cycle := 0x100000 } : State).now ∧ x.timeouts = n) ∧
    (∀ l ∈ [[], [(0x1000, [1])]], let s : State := { linked { conn with spilled := true, place := 16 } (frame 0 0 none) with
        link := { (linked { conn with spilled := true, place := 16 } (frame 0 0 none)).link with spillArea := some (0, 0x10000), spills := l } };
      s.link.spillArea = some (0, 0x10000) ∧ ((∃ e ∈ s.link.spills, e.1 = 0 + 256 * 16) ↔ l ≠ []) ∧ s.link.conns.length ≤ 2048) ∧
    ∃ u, crowded.connRoom 1 = some u ∧ u ≠ crowded := by
  refine ⟨by decide +kernel, by decide +kernel, by decide +kernel, by decide +kernel, ?_⟩
  have h : (crowded.connRoom 1).map (·.link.spills.length) = some 1 := by decide +kernel
  cases k : crowded.connRoom 1 with
  | none => simp [k] at h
  | some u =>
    refine ⟨u, rfl, fun e => ?_⟩
    rw [k, e] at h
    exact absurd h (by decide)

/-- Two packets that wait, the second on the SYS channel; and a connection that may send and one whose window is full. -/
theorem meets_LintilSends :
    (let f := frame 0 5 none; f.kind < 16 ∧ f.spkg < 65536 ∧ f.dpkg < 65536 ∧ f.ten < 65536 ∧ f.conn < 8192 ∧ f.ch < 256 ∧ f.seq < 2 ^ 32 ∧ f.ack < 2 ^ 32 ∧
      f.ach < 256 ∧ f.ts < 2 ^ 32 ∧ f.tse < 2 ^ 32 ∧ f.len < 65536 ∧ f.cred < 256) ∧
    (let k := toPlot .inv (.raw [] 0 0); let y := toPlot .sys (.chanBlock 0 3 true); let x := { conn with queue := [k, y] };
      s0.nextOut x = some (y, 1) ∧ s0.nextOut { conn with queue := [k] } = some (k, 0) ∧ s0.goesFirst 1 k = false ∧
      x.state = 1 ∧ x.spilled = false ∧ x.inFlight + y.bytes ≤ x.window ∧ ¬ ({ x with window := 0 }.inFlight + y.bytes ≤ ({ x with window := 0 } : Conn).window)) := by
  decide +kernel
/-! A plot's hardware, and its debug port. -/

theorem meets_PlotCare :
    (let x := Sparse.get Thr.reset (onPlot { Plot.reset with thr := [(4, ⟨2, 5, 9, false⟩)] } task |>.plot 0).thr 4; x.win ≠ 0 ∧ s0.now % (x.win * 1024) = 0) ∧
    ((Sparse.get Thr.reset (s0.plot 0).thr 4).win = 0) ∧
    (let s : State := { onPlot Plot.reset { task with block := some ⟨.fence 0, 0⟩ } with cycle := 0x1000000 };
      (s.ctx 0 0).blockedSince = some 0 ∧ (s.ctx 0 0).live = true ∧ (s.now - 0) / 2 ^ 24 = 1 ∧ (s.ctx 0 0).watched = (0, 0) ∧
      { task with watched := (0, 1) }.watched = (0, 1)) ∧
    (3 ∈ { Bufs.reset with rebuilding := [3] }.rebuilding) ∧
    (let s : State := { only Plot.reset with cycle := 4096 }; let u := Claims.noticed s 0; (u.plot 0).sched.asleep = false ∧ (u.plot 0).sched.idleSince + 4096 ≤ s.now) := by
  decide +kernel

/-- A debug operation of tenant 1. -/
def debugged (x : Ctx) (o : DbgOp) : State := { onPlot Plot.reset x with dbgOps := [⟨1, o⟩] }

theorem debugs (x : Ctx) (o : DbgOp) (h : o.plot = 0) : Claims.Debugs (debugged x o) (onPlot Plot.reset x) 0 o 0 :=
  ⟨⟨_, rfl, rfl, rfl⟩, ⟨h, by decide +kernel, by decide⟩, by simp, rfl⟩

/-- Every operation; one of another tenant; contexts that run, are empty, are in a pair, are held, and halted with a trap. -/
theorem meets_DebugPort :
    (∀ o : DbgOp, o.plot = 0 → Claims.Debugs (debugged task o) (onPlot Plot.reset task) 0 o 0) ∧
    (let s : State := { s0 with dbgOps := [⟨2, .resume 0 0⟩] }; s.dbgOps[0]? = some ⟨2, .resume 0 0⟩ ∧ (2 : Nat) ≠ (s.plot 0).tenant) ∧
    ((s0.ctx 0 0).live = true ∧ (s0.ctx 0 0).ended = false ∧ (s0.ctx 0 0).furrow.leader = none ∧ (s0.ctx 0 0).pair = none ∧ (s0.ctx 0 0).hold = none ∧ (s0.ctx 0 1).live = false) ∧
    (let x := { task with halted := true, hotTrap := some (.illegal, 0, 0x40, false) }; (Claims.Debugs (debugged x (.deliver 0 0)) (onPlot Plot.reset x) 0 (.deliver 0 0) 0) ∧
      x.halted = true ∧ x.hotTrap = some (.illegal, 0, 0x40, false)) ∧
    ((s0.comm 9).tenant ≠ (s0.plot 0).tenant) ∧ ((s0.ctx 0 0).pending 5 = false ∧ (s0.ctx 0 0).multi = []) ∧ (csrKnown 0x10 = true ∧ csrReadOnly 0x10 = false) ∧
    (0x3FF8 + 8 ≤ Claims.lengthOf 0 ∧ (s0.plot 0).bufs.errs = []) ∧ (0x1FFC % 4 = 0 ∧ 0x1FFC ≤ 0x1FFC) ∧
    (let t := withImage { task with halted := true }; let s : State := { t with dbgOps := [⟨1, .resume 0 4⟩] };
      Claims.Debugs s t 0 (.resume 0 4) 0 ∧ (t.plot 0).sched.images[4 - 4]? = some ({ task with halted := true }, none)) :=
  ⟨fun o h => debugs task o h, by decide +kernel, by decide +kernel, ⟨debugs _ _ rfl, rfl, rfl⟩, by decide +kernel, by decide +kernel, by decide +kernel, by decide +kernel, by decide,
    ⟨⟨_, rfl, rfl, rfl⟩, ⟨rfl, by decide +kernel, by decide⟩, by simp, rfl⟩, rfl⟩

/-! The host, Damkar, and start-up. -/

/-- An operation of the host. -/
def hosted (o : HostOp) : State := { s0 with host := { HostIf.reset with ops := [o], parts := [part 0 []], slots := [] } }

/-- With it taken. -/
def hostTook : State := { s0 with host := { HostIf.reset with parts := [part 0 []] } }

theorem hostDoes (kind : HostOp → Bool) (o : HostOp) : Claims.HostDoes (hosted o) hostTook 0 kind o := ⟨rfl, by simp, rfl⟩

/-- A slot of the partition as the host wrote its control word. -/
def slotted (ctl res : Word) : State := { s0 with host := { hostTook.host with
  slots := [(0 * 63 * 16 + 3 * 16 + 1, ctl)], taken := [(0 * 63 * 16 + 3 * 16 + 1, ctl), (0 * 63 * 16 + 3 * 16 + 10, res)] } }

/-- Every kind of operation; a granule; a slot that is free, one with GO = 1, slot 63 and word 11; the mailbox free and taken, with and without a
failed command; a slot that waits for its turn and one that breaks its form in each of its fields; and a record of the host. -/
theorem meets_HostWindow :
    (∀ o, Claims.HostDoes (hosted o) hostTook 0 HostOp.isWindow o ∧ Claims.HostDoes (hosted o) hostTook 0 HostOp.isPosted o ∧
      Claims.HostDoes (hosted o) hostTook 0 HostOp.isBar o ∧ Claims.HostDoes (hosted o) hostTook 0 HostOp.isConfig o) ∧
    (let s : State := { s0 with host := { HostIf.reset with windows := [(1, some (0x80000000, 1))] } }; Sparse.get none s.host.windows 1 = some (0x80000000, 1) ∧
      0x80000000 % 2 ^ 30 = 0 ∧ 0x40000005 / 2 ^ 30 = 1 ∧ Sparse.get false s.mem.gate ((0x80000000 + 5) / 64) = false) ∧
    (hosted (.slotWrite 0 3 1 0)).partAt 0 = some (part 0 []) ∧ bitw ((hosted (.slotWrite 0 3 1 0)).slot 0 3 1) 63 = false ∧
    bitw ((slotted 0x8000000000000000 0).slot 0 3 1) 63 = true ∧ (slotted 0 0).partAt 0 = some (part 0 []) ∧ (63 ≤ 63 ∧ 11 ≤ 11) ∧
    (bitw 0x8000000000000000 63 = true ∧ bitw 7 63 = false) ∧
    (({ hostTook.host.mailbox with code := 7 }.code = 7 ∧ hostTook.host.mailbox.status = 0) ∧ hostTook.loadedElsewhere [⟨.object 0x1000, 0, []⟩] = true ∧
      hostTook.loadedElsewhere [⟨.object (2 ^ 48), 0, []⟩] = false) ∧
    (hostTook.host.mailbox.go = false ∧ { hostTook.host.mailbox with go := true }.go = true ∧ (let w : Word := 0x8000000000000007;
      bitw w 63 = true ∧ 1 ≤ w.toNat % 65536 ∧ w.toNat % 65536 ≤ 12)) ∧
    ((slotted 0 0).partAt (part 0 []).index = some (part 0 []) ∧ (slotted 0 0).host.ops.length + (part 0 []).index * 63 + 3 = 3) ∧
    (∀ x ∈ [(0x2000000000, 0), (0x1000, 0), (0x40, 0), (0x900, 0), (0x1000100, 0), (0x20000, 0), (0, 8), (0, 0x1000000000000)],
      let s := slotted (.ofNat 64 x.1) (.ofNat 64 x.2)
      let ctl := (s.takenWord 0 3 1).toNat
      let res := (s.takenWord 0 3 10).toNat
      let part := fun (lo n : Nat) => ctl / 2 ^ lo % 2 ^ n
      part 37 25 ≠ 0 ∨ part 12 4 ≠ 0 ∨ part 6 2 ≠ 0 ∨ 8 < part 8 4 ∨ part 24 8 &&& part 16 8 ≠ part 24 8 ∨ 2 ^ part 8 4 ≤ part 16 8 ∨ res % 16 ≠ 0 ∨ 2 ^ 48 ≤ res) ∧
    (∀ l ∈ ([⟨.object 0x1000, 0, [1, 2]⟩, ⟨.plots 0x1000, 63, []⟩] : List Launch), l.args.length ≤ 8 ∧ l.chan < 64) ∧
    (let s := recorded { open_ with owner := .host 64 }; hPlot (mkHandle 0 5 1) / 2 ^ 20 = s.pkg ∧ (s.plot (hPlot (mkHandle 0 5 1) % 2 ^ 20)).tenant = 1 ∧
      (s.plot (hPlot (mkHandle 0 5 1) % 2 ^ 20)).named (mkHandle 0 5 1) = some { open_ with gen := 1, owner := .host 64 }) :=
  ⟨fun o => ⟨hostDoes _ o, hostDoes _ o, hostDoes _ o, hostDoes _ o⟩, by decide +kernel, by decide +kernel, by decide +kernel, by decide +kernel, by decide +kernel,
    by decide, by decide +kernel, by decide +kernel, by decide +kernel, by decide +kernel, by decide +kernel, by decide +kernel⟩

/-- A command in the mailbox, at a stage, with a partition or none. -/
def mailed (stage code : Nat) (p : Payload) (parts : List Part) : State :=
  { s0 with stage := stage, host := { HostIf.reset with parts := parts, mailbox := ⟨true, code, false, 0, p, []⟩, granules := [(0, 1)] } }

theorem commands (code : Nat) (p : Payload) (parts : List Part) : Claims.Commands (mailed 5 code p parts) code p := ⟨rfl, rfl, rfl, rfl⟩

/-- An image of one word. -/
def image (data : Nat × List Byte) : Image := ⟨[], [0xF4000400], [1], [2], [], [], data, [], []⟩

/-- A plot's field with a translation of the page that DATA goes to. -/
def loading : State := { mailed 5 7 (.imageLoad 1 (image (0x10000, [9])) [0]) [part 0 []] with fields := [(0, { Field.reset with tlb := [page 0] })] }

/-- Not the boundary of a quantum: the partition's plot is in deterministic mode and within one. -/
def within (code : Nat) (p : Payload) (wins : Sparse (Option (Nat × Nat))) : State :=
  let s := deterministic 5 false []
  { s with host := { s.host with windows := wins, mailbox := ⟨true, code, false, 0, p, []⟩, granules := [(0, 1)] } }

theorem meets_Management :
    (∀ code, (mailed 4 code .none []).host.mailbox.go = true ∧ (mailed 4 code .none []).host.mailbox.code = code ∧ (mailed 4 code .none []).stage ≠ 5) ∧
    (∀ code p parts, Claims.Commands (mailed 5 code p parts) code p) ∧
    (let rs := [(0, 0, 4, 1, 2)]; let plots := (rs.flatMap fun r => (List.range r.2.2.2.1).flatMap fun i => (List.range r.2.2.2.2).map fun j =>
        r.1 * 2 ^ 16 + (r.2.1 + i) * 256 + (r.2.2.1 + j)).eraseDups;
      rs.all rectIn = true ∧ 4 ∈ plots ∧ (∀ p ∈ plots, ((mailed 5 1 .none []).plot p).tenant = 0) ∧ (∀ g ∈ [1], g < 576 ∧ Sparse.get 0 (mailed 5 1 .none []).host.granules g = 0)) ∧
    (let s := mailed 5 1 (.create 2 [s0.pkg] [(0, 0, 4, 1, 1)] [] 0 0 0 0) [part 0 []];
      s.part 2 = none ∧ (s.plot 0).tenant ≠ 0 ∧ (s.plot 4).tenant = 0 ∧ (s.plot 5).tenant = 0) ∧
    (∀ x ∈ [(2, Payload.destroy 1, []), (3, .setDet 1 0 0, []), (4, .setCont 1 0, []), (6, .windowMap 1 0 1, []), (6, .windowMap 1 0 0, [(1, some (0, 1))])],
      let s := within x.1 x.2.1 x.2.2; s.part 1 = some (part 1 []) ∧ s.atBoundary (part 1 []) = false ∧ s.host.mailbox.go = true ∧ s.host.mailbox.code = x.1 ∧
        s.host.mailbox.payload = x.2.1 ∧ s.stage = 5) ∧
    (Claims.Parted (mailed 5 2 (.destroy 1) [part 0 []]) 1 (part 0 []) ∧ (part 0 []).dying = none) ∧
    ((mailed 5 2 (.destroy 1) [part 0 []]).openOf 1 = false ∧
      ({ mailed 5 2 (.destroy 1) [part 0 []] with flumes := [(3, ⟨[command], [], none⟩)] } : State).openOf 1 = true) ∧
    (let s : State := { mailed 5 2 (.destroy 1) [{ part 0 [] with dying := some 0 }] with cycle := 0x4000000 };
      Claims.Commands s 2 (.destroy 1) ∧ Claims.Parted s 1 { part 0 [] with dying := some 0 } ∧ 0 + 2 ^ 26 ≤ s.now ∧ s.link.conns = [] ∧ s.comms = [] ∧
      ∀ f, (s.flume f).waiting = []) ∧
    (let s := mailed 5 5 .none [part 0 []]; (s.plot (0 % 2 ^ 20)).tenant = 1 ∧ plotOk (0 % 2 ^ 20) = true ∧ s.comms = [] ∧ (s.comm 2).tenant = 0 ∧ ({ s with comms := [(2, { comm2 with tenant := 2 })] } : State).comm 2 = { comm2 with tenant := 2 } ∧
      (let e : Word := 0x8000001000000000; e.toNat / 2 ^ 48 % 2 ^ 8 = 0 ∧ e.toNat % 2 ^ 6 = 0 ∧ 16 ≤ e.toNat / 2 ^ 32 % 2 ^ 8 ∧ e.toNat / 2 ^ 8 % 2 ^ 8 = 0)) ∧
    ((∀ g, Sparse.get none (mailed 5 6 .none [part 0 []]).host.windows g = none) ∧
      (let s : State := { s0 with host := { HostIf.reset with windows := [(1, some (0x80000000, 2))] } }; Sparse.get none s.host.windows 1 = some (0x80000000, 2))) ∧
    ((mailed 5 6 .none [part 0 []]).owner 0 = 1 ∧ (mailed 5 6 .none [part 0 []]).owner 0x40000000 ≠ 1 ∧ 0x40000000 < Config.hbmBytes) ∧
    (∀ d, (image d).text.length ≤ 2048 ∧ (image d).abuf.length ≤ 0x4000 ∧ (image d).wbuf.length ≤ 0x8000 ∧ (image d).objs = [] ∧ (image d).chans = []) ∧
    (Claims.Parted loading 1 (part 0 []) ∧ (0x10000, [9]) ∉ (part 0 []).segments ∧ ((0x10000, [9]) : Nat × List Byte) ∈ { part 0 [] with segments := [(0x10000, [9])] }.segments ∧
      loading.service 0 0x10000 = some (page 0) ∧ (mailed 5 7 .none []).service 0 0x10000 = none ∧ (page 0).ty = 0 ∧ (page 0).va ≤ 0x10000) ∧
    ((mailed 5 12 .none []).host.parts = [] ∧ (mailed 5 12 .none []).link.conns = [] ∧ (mailed 5 12 .none [part 0 []]).host.parts ≠ []) := by
  refine ⟨fun _ => ⟨rfl, rfl, Nat.succ_ne_self 4 ∘ Eq.symm⟩, commands, by decide +kernel, by decide +kernel, by decide +kernel, ⟨?_, rfl⟩, by decide +kernel,
    ⟨⟨rfl, rfl, rfl, rfl⟩, ?_, by decide +kernel, rfl, rfl, fun _ => rfl⟩, by decide +kernel,
    ⟨fun _ => rfl, by decide +kernel⟩, by decide +kernel, fun _ => ⟨(by decide : 1 ≤ 2048), (by decide : 1 ≤ 0x4000), (by decide : 1 ≤ 0x8000), rfl, rfl⟩, ?_, by decide +kernel⟩
  all_goals
    unfold Claims.Parted
    decide +kernel

/-- How long a digest's message is remains free: RESYNC finds room for it, or not, where there is any. -/
theorem meets_Resync : let n := (Config.summary (mailed 5 8 .none []).summary).length; n ≤ n ∧ (0 < n → 0 < n) := ⟨Nat.le_refl _, id⟩

/-- SPDM requests of every code, one that is no code of the protocol, and lengths that suffice and do not. -/
theorem meets_StartupAndSpdm :
    (∀ n ∈ [1, 2, 3, 4, 5], ({ State.reset with stage := n } : State).stage = n) ∧
    (∀ (code n : Nat), code < 256 → let bs := [.ofNat 8 (if code = 0x84 then 0x10 else 0x12), .ofNat 8 code] ++ List.replicate n 0;
      let s : State := { s0 with stage := 4, host := { HostIf.reset with ops := [.spdm bs] } }; Claims.Spdm_ s { s with host := { s.host with ops := [] } } 0 code bs) ∧
    (s0.host.spdm.version = false ∧ s0.host.spdm.caps = false ∧ s0.host.spdm.algs = false) ∧
    (let s : State := { State.reset with stage := 2, selfTest := [(7, 1, 31)] }; s.stage = 2 ∧ s.selfTest = [(7, 1, 31)] ∧ 1 < 3 ∧ 31 < squares 1) := by
  refine ⟨by decide, fun code n h => ⟨rfl, ?_, ?_, Nat.le_refl _, by simp, rfl⟩, ⟨rfl, rfl, rfl⟩, by decide +kernel⟩
  · simp [Nat.mod_eq_of_lt h]
  · by_cases k : code = 0x84 <;> simp [k]

/-! Frames. -/

theorem meets_StepRunsEvents : ({ s0 with agenda := [.event (.floorTick 0)] } : State).agenda = .event (.floorTick 0) :: [] := rfl

/-- An instruction has run: a store, and one that traps into the handler. The hypotheses of CsrsKept, OthersKept, MemoryKept and ModeGuarded
are met by the same, and by a split. -/
theorem meets_RegistersKept :
    (∃ t, exec (.stl 3 4 false 0 0 0) s0 = .next t ∧ t.me.live = true) ∧ encode (.stl 3 4 false 0 0 0) ≠ none ∧
    (∃ t, exec .tret (onPlot vectored task) = .next t ∧ t.me.live = true ∧ t.me.sup = true) ∧ (onPlot vectored task).me.sup = false ∧
    bitw (onPlot vectored task).me.csr.tstat 1 = false ∧ Claims.writesCsr .tret = false ∧ encode .tret ≠ none ∧
    (∃ t, exec .split furrow = .next t ∧ t.me.live = true) ∧ encode .split ≠ none := by
  refine ⟨answers (f := fun t => t.me.live) (by decide +kernel), by decide +kernel, ?_, by decide +kernel, by decide +kernel, rfl, by decide +kernel,
    answers (f := fun t => t.me.live) (by decide +kernel), by decide +kernel⟩
  obtain ⟨t, h, g⟩ := answers (r := exec .tret (onPlot vectored task)) (f := fun t => t.me.live && t.me.sup) (by decide +kernel)
  exact ⟨t, h, by simpa using g⟩

/-- A recv of a channel with a message and one without, and a context that goes on. -/
theorem meets_RecvKept : encode (.recv 5 3 false) ≠ none ∧
    (∀ q ∈ [[], [(0, Queued.raw [5] 0)]], let s := onPlot { Plot.reset with queues := [(0, q)] } (withG [(3, 0)]);
      ∃ t, exec (.recv 5 3 false) s = .next t ∧ (t.ctx 0 0).live = true) ∧
    ∀ q, let s := onPlot { Plot.reset with queues := [(0, q)] } (withG [(3, 0)]); s.cur.1 < 2 ^ 20 ∧ ∀ k, ∀ e ∈ (s.myPlot.chan k).recvs, e.1.plot % 2 ^ 20 = s.cur.1 := by
  refine ⟨by decide +kernel, fun q h => answers (f := fun t => (t.ctx 0 0).live) ?_, fun q => ⟨(by decide : 0 < 2 ^ 20), fun k e h => ?_⟩⟩
  · revert q
    decide +kernel
  · exact nomatch (h : e ∈ ([] : List (Who × Nat)))
end Sys2Proof.Tests
end

section
/-!
PROOFS. The number formats of 02_number_formats.md: the quotients of R28 and the instructions that give products and quotients later (O18),
and the layout of VFMT (O25).
-/

namespace Sys2Proof.Machine

open Sys2Proof

/-! ## Integer codes and the division of R28 -/

/-- The code of a bit vector stands for its two's complement value. -/
theorem toInt_true_toNat {w : Nat} (x : BitVec w) : toInt w true x.toNat = x.toInt := by
  cases w with
  | zero => simp [toInt, BitVec.of_length_zero (x := x)]
  | succ n =>
    have half : 2 ^ n ≤ x.toNat ↔ ¬ 2 * x.toNat < 2 ^ (n + 1) := by rw [pow_succ]; omega
    simp only [toInt, BitVec.toInt_eq_toNat_cond, Nat.add_sub_cancel, half, Bool.true_and, decide_eq_true_eq, ite_not, Nat.cast_pow, Nat.cast_ofNat]

/-- A code whose top bit is set stands for a negative number. -/
theorem toInt_true_of_half_le {w c : Nat} (h : 2 ^ (w - 1) ≤ c) : toInt w true c = c - 2 ^ w := by simp [toInt, h]

theorem divCode_zero (w : Nat) (signed : Bool) (x : Nat) : divCode w signed x 0 = (2 ^ w - 1, x) := rfl

theorem divCode_unsigned (w x : Nat) {y : Nat} (hy : y ≠ 0) : divCode w false x y = (x / y, x % y) := by
  simp [divCode, hy]

/-- R28: the quotient truncates toward zero, so what the model subtracts leaves the remainder with the sign of the dividend. -/
theorem divCode_signed (w x : Nat) {y : Nat} (hy : y ≠ 0) : divCode w true x y =
    (((toInt w true x).tdiv (toInt w true y) % 2 ^ w).toNat, ((toInt w true x).tmod (toInt w true y) % 2 ^ w).toNat) := by
  simp [divCode, hy, Int.tmod_def, Int.mul_comm]

/-- R28: the signed division whose quotient has no code, -2^(w-1) by -1, gives the dividend and remainder 0. -/
theorem divCode_overflow {w : Nat} (hw : 1 < w) : divCode w true (2 ^ (w - 1)) (2 ^ w - 1) = (2 ^ (w - 1), 0) := by
  obtain ⟨n, rfl⟩ : ∃ n, w = n + 1 := ⟨w - 1, by omega⟩
  have hn : 2 ≤ 2 ^ n := Nat.le_self_pow (by omega) 2
  have hx : toInt (n + 1) true (2 ^ n) = -2 ^ n := by
    rw [toInt_true_of_half_le (by simp)]; push_cast; ring
  have hy : toInt (n + 1) true (2 ^ (n + 1) - 1) = -1 := by
    rw [toInt_true_of_half_le (by rw [Nat.add_sub_cancel, pow_succ]; omega), Nat.cast_sub Nat.one_le_two_pow]
    push_cast; ring
  have hq : (2 ^ n : Int) % 2 ^ (n + 1) = 2 ^ n :=
    Int.emod_eq_of_lt (by positivity) (pow_lt_pow_right₀ one_lt_two n.lt_succ_self)
  rw [divCode_signed _ _ (by rw [pow_succ]; omega), Nat.add_sub_cancel, hx, hy]
  simp [hq, Int.toNat_pow_of_nonneg]

/-- R28, the second half of O18: the table of the cases of a division. -/
theorem stated_divisionTable : Stated.DivisionTable := by
  intro w signed x y _ _ _
  refine ⟨?_, ?_, ?_, ?_⟩
  · rintro rfl
    exact divCode_zero w signed x
  · rintro rfl rfl rfl hw
    exact divCode_overflow hw
  · rintro hy rfl
    exact divCode_unsigned w x hy
  · rintro hy rfl
    have hpos : (2 ^ w : Int) ≠ 0 := by positivity
    rw [divCode_signed w x hy]
    exact ⟨Int.toNat_of_nonneg (Int.emod_nonneg _ hpos), Int.toNat_of_nonneg (Int.emod_nonneg _ hpos)⟩

/-! ## Division and multiplication of words -/

theorem toNat_ne_zero {y : Word} (h : y ≠ 0) : y.toNat ≠ 0 := fun e => h (BitVec.eq_of_toNat_eq e)

theorem ofNat_divCode_unsigned_fst (x y : Word) :
    BitVec.ofNat 64 (divCode 64 false x.toNat y.toNat).1 = if y = 0 then BitVec.allOnes 64 else .ofNat 64 (x.toNat / y.toNat) := by
  split
  · next h => subst h; rfl
  · next h => rw [divCode_unsigned _ _ (toNat_ne_zero h)]

theorem ofNat_divCode_unsigned_snd (x y : Word) :
    BitVec.ofNat 64 (divCode 64 false x.toNat y.toNat).2 = if y = 0 then x else .ofNat 64 (x.toNat % y.toNat) := by
  split
  · next h => subst h; simp [divCode_zero]
  · next h => rw [divCode_unsigned _ _ (toNat_ne_zero h)]

/-- The word of an integer is that of its residue. -/
theorem ofNat_emod_toNat (i : Int) : BitVec.ofNat 64 (i % 2 ^ 64).toNat = BitVec.ofInt 64 i := by
  apply BitVec.eq_of_toNat_eq
  rw [BitVec.toNat_ofNat, BitVec.toNat_ofInt]
  exact Nat.mod_eq_of_lt (by omega)

theorem ofNat_divCode_signed_fst (x y : Word) :
    BitVec.ofNat 64 (divCode 64 true x.toNat y.toNat).1 = if y = 0 then BitVec.allOnes 64 else .ofInt 64 (x.toInt.tdiv y.toInt) := by
  split
  · next h => subst h; rfl
  · next h => rw [divCode_signed _ _ (toNat_ne_zero h), toInt_true_toNat, toInt_true_toNat, ofNat_emod_toNat]

theorem ofNat_divCode_signed_snd (x y : Word) :
    BitVec.ofNat 64 (divCode 64 true x.toNat y.toNat).2 = if y = 0 then x else .ofInt 64 (x.toInt.tmod y.toInt) := by
  split
  · next h => subst h; simp [divCode_zero]
  · next h => rw [divCode_signed _ _ (toNat_ne_zero h), toInt_true_toNat, toInt_true_toNat, ofNat_emod_toNat]

/-- A result of 64 bits, as it is kept while it waits to be written. -/
theorem ofNat_mod_eq_setWidth (n : Nat) : BitVec.ofNat 256 (n % 2 ^ 64) = (BitVec.ofNat 64 n).setWidth 256 := by
  apply BitVec.eq_of_toNat_eq
  simp

/-! ## Instructions with a late result -/

/-- Reading two sources leaves the plot and the context that run. -/
theorem src2_cur (s : State) (a b : BitVec 6) : (Claims.src2 s a b).2.2.cur = s.cur :=
  ((s.takeG (regG a)).2.takeG_frame (regG b)).1.trans (s.takeG_frame (regG a)).1

section
variable {s : State} {d a b : BitVec 6} {t u : Bool} (hr : Ready s [gs a t, gs b u] [regG d]) (op : Nat → Nat → Nat)
include hr

/-- R79: a multiplication with ready operands retires, and its result waits unless g0 discards it. -/
theorem mulOp_ready : let q := Claims.src2 s a b
    mulOp d a b t u op s =
      .next (if d = 0 then q.2.2 else q.2.2.later (regG d) ((BitVec.ofNat 64 (op q.1.toNat q.2.1.toNat)).setWidth 256) false).retire := by
  unfold mulOp
  rw [hr]
  simp only [← ofNat_mod_eq_setWidth]
  rfl

/-- R79, R90: a division with ready operands that finds the divider free takes it and retires, and its result waits. -/
theorem divOp_ready (hfree : s.myPlot.divBusy = none) : let q := Claims.src2 s a b
    divOp d a b t u op s = .next ((q.2.2.modPlot s.cur.1 fun x => { x with divBusy := some s.cur.2 }).later (regG d)
      ((BitVec.ofNat 64 (op q.1.toNat q.2.1.toNat)).setWidth 256) true).retire := by
  unfold divOp
  rw [hr, hfree, ← src2_cur s a b]
  simp only [← ofNat_mod_eq_setWidth]
  rfl

end

section
variable (d a b : BitVec 6) (t u : Bool) (s : State)

theorem exec_mul : exec (.mul d a b t u) s = mulOp d a b t u (fun x y => x * y) s := rfl
theorem exec_mulh : exec (.mulh d a b t u) s =
    mulOp d a b t u (fun x y => (toInt 64 true x * toInt 64 true y / 2 ^ 64 % 2 ^ 64).toNat) s := rfl
theorem exec_mulhn : exec (.mulhn d a b t u) s = mulOp d a b t u (fun x y => x * y / 2 ^ 64) s := rfl
theorem exec_mulhsn : exec (.mulhsn d a b t u) s =
    mulOp d a b t u (fun x y => (toInt 64 true x * (y : Int) / 2 ^ 64 % 2 ^ 64).toNat) s := rfl
theorem exec_div : exec (.div d a b t u) s = divOp d a b t u (fun x y => (divCode 64 true x y).1) s := rfl
theorem exec_divn : exec (.divn d a b t u) s = divOp d a b t u (fun x y => (divCode 64 false x y).1) s := rfl
theorem exec_rem : exec (.rem d a b t u) s = divOp d a b t u (fun x y => (divCode 64 true x y).2) s := rfl
theorem exec_remn : exec (.remn d a b t u) s = divOp d a b t u (fun x y => (divCode 64 false x y).2) s := rfl

end

/-- R76: each product is a multiplication by an operation on codes that gives the word it claims. -/
theorem exec_products : ∀ f ∈ Claims.products, ∃ op : Nat → Nat → Nat,
    (∀ d a b t u s, exec (f.1 d a b t u) s = mulOp d a b t u op s) ∧ ∀ x y : Word, BitVec.ofNat 64 (op x.toNat y.toNat) = f.2 x y := by
  simp only [Claims.products, List.forall_mem_cons]
  refine ⟨⟨_, exec_mul, fun x y => ?mul⟩, ⟨_, exec_mulh, fun x y => ?mulh⟩, ⟨_, exec_mulhn, fun _ _ => rfl⟩,
    ⟨_, exec_mulhsn, fun x y => ?mulhsn⟩, nofun⟩
  case mul => simp [BitVec.ofNat_mul]
  case mulh => rw [toInt_true_toNat, toInt_true_toNat, ofNat_emod_toNat]
  case mulhsn => rw [toInt_true_toNat, ofNat_emod_toNat]

/-- R76, R28: each quotient is a division by an operation on codes that gives the word it claims. -/
theorem exec_quotients : ∀ f ∈ Claims.quotients, ∃ op : Nat → Nat → Nat,
    (∀ d a b t u s, exec (f.1 d a b t u) s = divOp d a b t u op s) ∧ ∀ x y : Word, BitVec.ofNat 64 (op x.toNat y.toNat) = f.2 x y := by
  simp only [Claims.quotients, List.forall_mem_cons]
  exact ⟨⟨_, exec_div, ofNat_divCode_signed_fst⟩, ⟨_, exec_divn, ofNat_divCode_unsigned_fst⟩,
    ⟨_, exec_rem, ofNat_divCode_signed_snd⟩, ⟨_, exec_remn, ofNat_divCode_unsigned_snd⟩, nofun⟩

/-- R76, R79, the first half of O18: the products and quotients retire, and their results wait to be written. -/
theorem stated_lateResult : Stated.LateResult := by
  intro s d a b t u hr
  refine ⟨fun f hf => ?_, fun hfree f hf => ?_⟩
  · obtain ⟨op, hexec, hval⟩ := exec_products f hf
    rw [hexec, mulOp_ready hr, hval]
  · obtain ⟨op, hexec, hval⟩ := exec_quotients f hf
    rw [hexec, divOp_ready hr op hfree, hval]

/-- Settles O18: the instructions by one lemma on multiplications and one on divisions, the values by the cases of `divCode`. -/
theorem divisionTable : Obligations.DivisionTable := ⟨stated_lateResult, stated_divisionTable⟩

/-! ## VFMT -/

/-- A mask of low bits takes the residue. -/
theorem toNat_keepBits_low (w : Word) {n : Nat} (hn : n ≤ 64) : (keepBits w (2 ^ n - 1)).toNat = w.toNat % 2 ^ n := by
  have h : 2 ^ n ≤ 2 ^ 64 := Nat.pow_le_pow_right two_pos hn
  rw [keepBits, BitVec.toNat_and, BitVec.toNat_ofNat, Nat.mod_eq_of_lt (by omega), Nat.and_two_pow_sub_one_eq_mod]

/-- R50: a write keeps X of the word written, and P too unless it is 0. -/
theorem vfmtWrite_toNat (old w : Word) : (vfmtWrite old w).toNat =
    w.toNat / 8 % 2 * 8 + if w.toNat % 8 = 0 then old.toNat % 8 else w.toNat % 8 := by
  have hk : (keepBits w 0xF).toNat = w.toNat % 16 := toNat_keepBits_low w (n := 4) (by omega)
  have hp : ∀ v : Word, fldw v 0 3 = v.toNat % 8 := fun v => by simp [fldw, fld]
  simp only [vfmtWrite, hp]
  split
  · simp only [putw, BitVec.toNat_ofNat, hk]; omega
  · rw [hk]; omega

theorem csrRead_vfmt (s : State) (p c : Nat) : s.csrRead p c 0x11 = (s.ctx p c).csr.vfmt := rfl

/-- R308: a write of VFMT goes through its field rules. -/
theorem csrRead_csrWrite_vfmt (s : State) (p c : Nat) (w : Word) :
    (s.csrWrite p c 0x11 w).csrRead p c 0x11 = vfmtWrite (s.csrRead p c 0x11) w := by
  have hw : s.csrWrite p c 0x11 w = s.setCtx p c { s.ctx p c with csr := { (s.ctx p c).csr with vfmt := vfmtWrite (s.ctx p c).csr.vfmt w } } := rfl
  rw [csrRead_vfmt, csrRead_vfmt, hw, State.setCtx_ctx_self]

/-- Settles O25: every field is read off the number of the word that a write leaves. -/
theorem vfmtLayout : Obligations.VfmtLayout := by
  refine ⟨rfl, fun s p c w => ?_⟩
  dsimp only
  rw [csrRead_csrWrite_vfmt, vfmtWrite_toNat]
  split <;> omega

end Sys2Proof.Machine
end
